-- ==== Sys2Proof/Word.lean ====
section
/-! DEFINITION. The word types of the module: a register word and a byte (R3). -/

namespace Sys2Proof

/-- A register word: every register is 32 bits wide ("Register tables", 00_scope.md). -/
abbrev Word := BitVec 32

/-- One byte of an object, a line or a host buffer. -/
abbrev Byte := BitVec 8

end Sys2Proof
end

