-- ==== Sys2Proof/Syntax.lean ====
section
/-! DEFINITION. The commands of the block: one constructor per row of spec/opcode_table.json, with the operands that the row's rule
needs (the table gives none; log 3). Numbers are plain naturals where the spec counts or names things, bytes where it carries data. -/

namespace Sys2Proof

/-- A queue: tenant 1 to 16 and queue pair 0 to 63, or tenant 0 for the PF admin queue (R20, R112). -/
structure QRef where
  tenant : Nat
  qp : Nat
  deriving DecidableEq, Repr

/-- The common part of a submission entry (R101) and the bytes that its input buffer holds in host memory. -/
structure Entry where
  q : QRef
  cid : Nat
  fence : Bool
  noIrq : Bool
  object : Nat
  inAddr : Nat
  inLen : Nat
  outLen : Nat
  outAddr : Nat
  input : List Byte
  deriving DecidableEq, Repr

/-- The fields of SEARCH at 0x20 to 0x30 (R105). -/
structure SearchF where
  k : Nat
  extensions : Nat
  runnerDepth : Nat
  overfetch : Nat
  filter : Nat
  queryFmt : Nat
  queryDim : Nat
  deriving DecidableEq, Repr

/-- The fields of RETRIEVE_RANK at 0x20 to 0x38 (R105). -/
structure RetrieveF where
  k : Nat
  candidates : Nat
  extensions : Nat
  runnerDepth : Nat
  overfetch : Nat
  filter : Nat
  embedModel : Nat
  rerankModel : Nat
  passages : Nat
  deriving DecidableEq, Repr

/-- The fields of GENERATE at 0x20 to 0x38 (R105); RETRIEVE_GENERATE adds RETRIEVE_OFF. -/
structure GenF where
  maxNew : Nat
  seed : Nat
  grammar : Nat
  stopCount : Nat
  stopOff : Nat
  samplingOff : Nat
  flags : Nat
  deriving DecidableEq, Repr

/-- What a stitch reads that may arrive late (R34, R35, R37). -/
inductive Src where
  | t1 | t2 | t3 | needle | link
  | marker (index target : Nat) (fromLink : Bool)
  deriving DecidableEq, Repr

/-- An input of a running stitch: of one member, or shared by all (R37). -/
structure Input where
  member : Option Nat
  src : Src
  deriving DecidableEq, Repr

/-- A line of a tier (R193). -/
structure TierLine where
  tier : Nat
  line : Nat
  deriving DecidableEq, Repr

/-- How the recovery of a line ended: rebuilt or lost, and whether a second read of it came right (R193, R194). -/
structure LineEnd where
  rebuilt : Bool
  reread : Bool
  deriving DecidableEq, Repr

/-- A page that a Zorber engine wrote: the mismatches of its verification, and its image (R185). -/
structure PageWrite where
  mismatches : Nat
  page : List Nat
  deriving DecidableEq, Repr

/-- The outcome of a die-to-die retry: whether it failed, and the errors of the line as received (R200). -/
structure D2dLine where
  failed : Bool
  errors : List (Nat × Nat)
  deriving DecidableEq, Repr

/-- The commands (spec/opcode_table.json). -/
inductive Instr where
  | rowBoundary
  | accessWindow
  | planCommit (late : Bool) (lateGroups : List Nat)
  | planDeadline (lateGroups : List Nat)
  | runonExpiry
  | stitchStart (slot : Nat) (inputs : List Input)
  | stitchCommit (slot : Nat)
  | slotEnd (slot : Nat)
  | stallLimit (strand : Nat)
  | pinAgeExpiry (strand : Nat)
  | rowsyncEdge (ns : Int)
  | syncLoss
  | relock
  | enableRequest (fn slot : Nat) (value : Word)
  | enableCheckDone (fn slot : Nat)
  | disableWrite (slot : Nat) (value : Word)
  | qpDisable (q : QRef)
  | qpDrainDone (q : QRef)
  | softReset (fn slot : Nat)
  | blockResetDone (fn slot : Nat)
  | commit
  | publishCheckDone
  | admCtrlEnable (value : Word)
  | sqDoorbell (q : QRef) (tail : Nat)
  | cqDoorbell (q : QRef) (head : Nat)
  | entryFetch (q : QRef) (entry input : List Byte)
  | commandDecision
  | irqDelayExpiry (q : QRef)
  | publish (e : Entry)
  | reset (e : Entry) (kind : Nat)
  | abortAny (e : Entry) (strand : Nat)
  | objectLoadShared (e : Entry) (offset : Nat)
  | embed (e : Entry) (inputTokens : Bool) (outFmt : Nat)
  | search (e : Entry) (f : SearchF)
  | retrieveRank (e : Entry) (f : RetrieveF)
  | rank (e : Entry) (batch itemLen : Nat)
  | embedLookup (e : Entry) (bags lookups pool outFmt : Nat)
  | embedUpdate (e : Entry) (rowsIn optimiser rate : Nat)
  | generate (e : Entry) (f : GenF)
  | retrieveGenerate (e : Entry) (f : GenF) (retrieveOff : Nat)
  | indexInsert (e : Entry) (count : Nat)
  | indexDelete (e : Entry) (count : Nat)
  | indexBuild (e : Entry) (neighbours dim metric indexClass : Nat)
  | objectLoad (e : Entry) (offset : Nat)
  | abort (e : Entry) (byStrand : Bool) (targetQp targetCid strand : Nat)
  | markerUnpick (e : Entry) (marker value : Nat)
  | fwHeader (e : Entry)
  | fwBody (e : Entry) (offset : Nat)
  | fwCommit (e : Entry)
  | fwCancel (e : Entry)
  | fwRevert (e : Entry)
  | digestDone
  | rewriteStart
  | loaderReport (part : Nat) (ok : Bool)
  | rewriteTimeout
  | cgRestartDone (group : Nat)
  | pldmRequestUpdate (header : List Byte)
  | pldmTransferComplete (body : List Byte)
  | activateFirmware
  | ixMerge
  | ixCancel
  | jobStart (handle : Nat)
  | jobResult (handle : Nat)
  | selectionWrite (slot off : Nat) (value : Word)
  | rcRead (fn off : Nat)
  | pairLoRead (fn off : Nat)
  | pairHiRead (fn off : Nat)
  | registerWrite (fn off : Nat) (value : Word)
  | markerSignal (marker : Nat) (add : Bool) (operand srcKind source strand : Nat) (met : Bool)
  | mkSelWrite (page : Nat) (value : Word)
  | mvIndexWrite (page : Nat) (value : Word)
  | mvValueWrite (page : Nat) (value : Word)
  | mkForceGo (page : Nat)
  | tierReadReturn (tier server slot : Nat) (member : Option Nat) (late : Bool) (errors : List (Nat × Nat)) (line handle granule : Nat)
  | recoveryDone (line : TierLine) (rebuilt : LineEnd)
  | compressedWrite (die : Nat) (mismatches : PageWrite)
  | scrubPass (slot corrected rewritten : Nat)
  | sliceLoadStart
  | sliceLoadDone
  | errorReport (slot cls detail loc : Nat) (core : Nat)
  | probeStart (slot : Nat)
  | probeEnd (slot : Nat) (passed : Bool)
  | flProbe
  | flSelWrite (value : Word)
  | hostDmaReadError (q : QRef) (cid : Nat)
  | hostWriteRefused (q : QRef)
  | vfFlr (vf : Nat)
  | vfBmeClear (vf : Nat)
  | pfFlr
  | perstAssert
  | perstDeassert
  | strapChange (slotId : Nat) (masterLow : Bool)
  | powerTurnOn (feedB : Bool) (loadersOk : Bool)
  | powerOnReset (failed : List Nat)
  | rebuildDone
  | dropLost
  | feedSample (aMv bMv aMa bMa : Nat)
  | feedLow (feedB : Bool)
  | sagDeclare
  | saveDone (ok : Bool) (tenUs mJ : Nat)
  | feedsReturn
  | feedsOff
  | feedOvervoltage (feedB : Bool)
  | feedReconnect (feedB : Bool)
  | feedTransfer
  | bankCheck
  | bankCheckDue
  | bankCheckDone (uF : Nat)
  | standbySet
  | l2Enter
  | standbyClear
  | thermalWarning (sensor eighths : Nat)
  | thermalWarningClear (sensor eighths : Nat)
  | thermalTrip (sensor eighths : Nat)
  | secLockWrite (value : Word)
  | setEndpointId (i3c : Bool) (eid : Nat)
  | pldmBaseRequest (code : Nat)
  | pldmPlatformRequest (sensor : Nat)
  | pldmFruRequest
  | getVersion
  | getCapabilities
  | negotiateAlgorithms
  | getDigests
  | getCertificate (slot offset length : Nat)
  | challenge (slot : Nat) (nonce : List Byte)
  | getMeasurements (index : Nat) (nonce : List Byte)
  | keyExchange (slot : Nat) (exchange : List Byte)
  | finish (verify : List Byte)
  | heartbeat
  | endSession
  | spdmUnsupported (code : Nat)
  | rowMarker (cascadeRow : Nat) (arrivalNs : Int) (delayNs : Nat) (redundant : Bool) (swatch : Option Nat)
  | prepare (index modules : Nat)
  | memberReply (member reply code slot swatch period topology : Nat)
  | cascadeReplyDeadline
  | go (cascadeRow counter : Nat)
  | abandon
  | commitForward
  | partBroadcast (strand counter : Nat) (e : Entry) (f : SearchF) (kPrime passages : Nat) (query : List Nat)
  | gatherList (strand member : Nat) (entries : List (Nat × Nat)) (passed nans : Nat)
  | passageFetchRequest (strand : Nat) (pids : List Nat)
  | passageFetchReply (strand : Nat) (passages : List (Nat × List Nat))
  | partEnd (strand : Nat)
  | partRefusal (strand code : Nat)
  | runningSumArrival (strand : Nat) (sums : List Nat)
  | memberLost (member : Nat)
  | isolate
  | casLeave
  | linkRetry (port : Nat) (failed : Bool)
  | linkTrainingDone (port lanes delayNs peerModule : Nat) (peerMaster : Bool) (peerPort : Nat)
  | laneFail (port lane : Nat)
  | linkDown (port : Nat)
  | d2dRetry (link : Nat) (failed : D2dLine)
  | alertNLineChange (low : Bool)
  | bankCharged
  | memberReportsLocked (member : Nat)
  | pcieLinkRetrain (rate width : Nat) (flit : Bool) (corr nonFatal fatal replays poisoned : Nat)
  | i3cDynamicAddress (addr : Nat)
  deriving DecidableEq, Repr

end Sys2Proof
end

