-- ==== Sys2Proof/Machine/Bits.lean ====
section
/-! DEFINITION. Bit fields, little-endian byte lists and the small number helpers every family uses (R3). -/

namespace Sys2Proof.Machine

/-- Bits [hi:lo] of a number (R3). -/
def bits (w hi lo : Nat) : Nat := (w >>> lo) % 2 ^ (hi + 1 - lo)

/-- Bit n of a number (R3). -/
def bit (w n : Nat) : Bool := (w >>> n) % 2 == 1

/-- A Boolean as the number of its bit. -/
def b2n (b : Bool) : Nat := if b then 1 else 0

/-- w with bits [hi:lo] replaced by the low bits of v. -/
def setBits (w hi lo v : Nat) : Nat :=
  let m := 2 ^ (hi + 1 - lo)
  w - (bits w hi lo) * 2 ^ lo + (v % m) * 2 ^ lo

/-- w with bit n replaced. -/
def setBit (w n : Nat) (b : Bool) : Nat := setBits w n n (b2n b)

/-- A number as a register word. -/
def wd (n : Nat) : Word := BitVec.ofNat 32 n

/-- The byte at position i of a list, 0 beyond its end (R313, R317: bytes beyond a length read as 0). -/
def byteAt (bs : List Byte) (i : Nat) : Byte := bs.getD i 0

/-- The little-endian number held in a list of bytes (R3). -/
def leNat : List Byte → Nat
  | [] => 0
  | b :: bs => b.toNat + 256 * leNat bs

/-- The n low bytes of a number, least significant first (R3). -/
def toLe : Nat → Nat → List Byte
  | 0, _ => []
  | n + 1, v => BitVec.ofNat 8 v :: toLe n (v / 256)

/-- n bytes of a list from offset off, missing bytes reading 0. -/
def slice (bs : List Byte) (off n : Nat) : List Byte :=
  let t := (bs.drop off).take n
  t ++ List.replicate (n - t.length) 0

/-- The n-byte little-endian number at offset off of a list. -/
def leAt (bs : List Byte) (off n : Nat) : Nat := leNat (slice bs off n)

/-- Ceiling division. -/
def ceilDiv (a b : Nat) : Nat := if b = 0 then 0 else (a + b - 1) / b

/-- ceil(log2 n), 0 for n up to 1. -/
def log2Up (n : Nat) : Nat := if n ≤ 1 then 0 else (n - 1).log2 + 1

/-- The sum of a list of numbers. -/
def sumNat (l : List Nat) : Nat := l.foldl (· + ·) 0

/-- The largest number of a list, 0 for none. -/
def maxNat (l : List Nat) : Nat := l.foldl max 0

/-- The 32-bit two's complement pattern of an integer. -/
def int32 (i : Int) : Word := BitVec.ofInt 32 i

/-- An integer clamped to plus or minus m. -/
def clampInt (i : Int) (m : Nat) : Int :=
  if i < -(m : Int) then -(m : Int) else if (m : Int) < i then (m : Int) else i

/-- A power of two in a closed range (R94). -/
def isPow2In (n lo hi : Nat) : Bool := lo ≤ n && n ≤ hi && n == 2 ^ n.log2

/-- The lowest number from `lo` up, over `fuel` candidates, that is not in the list (R114: the lowest free ID). -/
def lowestFree (used : List Nat) : Nat → Nat → Option Nat
  | 0, _ => none
  | fuel + 1, lo => if used.contains lo then lowestFree used fuel (lo + 1) else some lo

/-- Insertion into a list kept in ascending order of a key; equal keys keep their order. -/
def insertBy {α : Type} (le : α → α → Bool) (a : α) : List α → List α
  | [] => [a]
  | b :: l => if le b a then b :: insertBy le a l else a :: b :: l

/-- Stable insertion sort by an order. -/
def sortBy {α : Type} (le : α → α → Bool) (l : List α) : List α :=
  l.foldl (fun acc a => insertBy le a acc) []

/-- A list cut into runs of n elements. -/
def chunks {α : Type} (n : Nat) (l : List α) : List (List α) :=
  (List.range (ceilDiv l.length n)).map fun i => (l.drop (i * n)).take n

end Sys2Proof.Machine
end

