-- ==== Sys2Proof/Machine/Arith.lean ====
section
/-! DEFINITION. Number formats and arithmetic (11_arithmetic.md): values, bit layouts, rounding, sums, the output unit. -/

namespace Sys2Proof.Machine

/-- A value of the arithmetic: NaN, an infinity, or sign, magnitude m and exponent e for (-1)^s * m * 2^e (R284, R289). -/
inductive FVal where
  | nan
  | inf (neg : Bool)
  | fin (neg : Bool) (m : Nat) (e : Int)
  deriving DecidableEq, Repr

/-- A floating-point layout: exponent bits, fraction bits, bias, and how the top exponent is used (R282, R284). -/
structure Fmt where
  ebits : Nat
  fbits : Nat
  bias : Int
  hasInf : Bool
  hasNan : Bool
  deriving DecidableEq, Repr

def fp32 : Fmt := ⟨8, 23, 127, true, true⟩
def bf16 : Fmt := ⟨8, 7, 127, true, true⟩
def fp16 : Fmt := ⟨5, 10, 15, true, true⟩
def e4m3 : Fmt := ⟨4, 3, 7, false, true⟩
def e5m2 : Fmt := ⟨5, 2, 15, true, true⟩
def e2m1 : Fmt := ⟨2, 1, 1, false, false⟩

/-- The layout of a format code of R282, for the floating-point codes 0 to 4. -/
def fmtOf (code : Nat) : Option Fmt :=
  match code with
  | 0 => some fp32
  | 1 => some bf16
  | 2 => some fp16
  | 3 => some e4m3
  | 4 => some e5m2
  | _ => none

/-- Bytes of one element of a format code 0 to 4 (R313). -/
def fmtBytes (code : Nat) : Nat :=
  match code with
  | 0 => 4
  | 1 => 2
  | 2 => 2
  | _ => 1

/-- The exponent of the lowest bit of a subnormal. -/
def Fmt.emin (f : Fmt) : Int := 1 - f.bias - f.fbits

/-- The value a bit pattern encodes (R284). -/
def Fmt.decode (f : Fmt) (w : Nat) : FVal :=
  let s := bit w (f.ebits + f.fbits)
  let ex := bits w (f.ebits + f.fbits - 1) f.fbits
  let fr := w % 2 ^ f.fbits
  if f.hasInf && ex == 2 ^ f.ebits - 1 then (if fr == 0 then .inf s else .nan)
  else if f.hasNan && !f.hasInf && ex == 2 ^ f.ebits - 1 && fr == 2 ^ f.fbits - 1 then .nan
  else if ex == 0 then .fin s fr f.emin
  else .fin s (2 ^ f.fbits + fr) (f.emin + ex - 1)

/-- The canonical NaN of a format (R289); a format without one gives +0 (R303). -/
def Fmt.nanBits (f : Fmt) : Nat :=
  if f.hasInf then (2 ^ f.ebits - 1) * 2 ^ f.fbits + 2 ^ (f.fbits - 1)
  else if f.hasNan then 2 ^ (f.ebits + f.fbits) - 1 else 0

/-- The largest finite pattern without its sign. -/
def Fmt.maxBits (f : Fmt) : Nat :=
  if f.hasInf then (2 ^ f.ebits - 1) * 2 ^ f.fbits - 1
  else if f.hasNan then 2 ^ (f.ebits + f.fbits) - 2 else 2 ^ (f.ebits + f.fbits) - 1

/-- The rounding modes of R301; the stochastic mode holds the 16-bit draw u of R305. -/
inductive RMode where
  | nearest
  | zero
  | stoch (u : Nat)
  deriving DecidableEq, Repr

/-- A magnitude m shifted right by d bits under a rounding mode (R301, R304). -/
def roundShift (mode : RMode) (m d : Nat) : Nat :=
  let q := m >>> d
  let r := m % 2 ^ d
  match mode with
  | .nearest => if 2 * r > 2 ^ d || (2 * r == 2 ^ d && q % 2 == 1) then q + 1 else q
  | .zero => q
  | .stoch u => if 65536 * r / 2 ^ d + u < 65536 then q else q + 1

/-- Bit length of a number. -/
def bitLen (m : Nat) : Nat := if m = 0 then 0 else m.log2 + 1

/-- A value narrowed to a floating-point format (R301 to R303). -/
def Fmt.encode (f : Fmt) (mode : RMode) (sat : Bool) (v : FVal) : Nat :=
  let sgn (b : Bool) : Nat := if b then 2 ^ (f.ebits + f.fbits) else 0
  let large (neg : Bool) : Nat :=
    sgn neg + (if f.hasInf && !sat && mode != .zero then (2 ^ f.ebits - 1) * 2 ^ f.fbits else f.maxBits)
  match v with
  | .nan => f.nanBits
  | .inf neg => sgn neg + (if f.hasInf && !sat then (2 ^ f.ebits - 1) * 2 ^ f.fbits else f.maxBits)
  | .fin neg m e =>
    if m = 0 then sgn neg else
    let u : Int := max f.emin (e + bitLen m - (f.fbits + 1))
    let q := if u ≤ e then m <<< (e - u).toNat else roundShift mode m (u - e).toNat
    let (q, u) := if q = 2 ^ (f.fbits + 1) then (2 ^ f.fbits, u + 1) else (q, u)
    let p := if q < 2 ^ f.fbits then q else (u - f.emin + 1).toNat * 2 ^ f.fbits + (q - 2 ^ f.fbits)
    if f.maxBits < p then large neg else sgn neg + p

/-- A value narrowed to a two's complement integer of n bits, saturating (R302, R303). -/
def encodeInt (n : Nat) (mode : RMode) (v : FVal) : Int :=
  let hi : Int := 2 ^ (n - 1) - 1
  let lo : Int := -(2 ^ (n - 1) : Nat)
  match v with
  | .nan => 0
  | .inf neg => if neg then lo else hi
  | .fin neg m e =>
    let q : Nat := if 0 ≤ e then m <<< e.toNat else roundShift mode m (-e).toNat
    let i : Int := if neg then -(q : Int) else q
    if i < lo then lo else if hi < i then hi else i

/-- The exact sum (R291). -/
def FVal.add (a b : FVal) : FVal :=
  match a, b with
  | .nan, _ => .nan
  | _, .nan => .nan
  | .inf s, .inf t => if s == t then .inf s else .nan
  | .inf s, _ => .inf s
  | _, .inf t => .inf t
  | .fin s m e, .fin t n g =>
    if m = 0 ∧ n = 0 then .fin (s && t) 0 0 else
    let u := min e g
    let x : Int := (if s then -1 else 1) * ((m <<< (e - u).toNat : Nat) : Int)
    let y : Int := (if t then -1 else 1) * ((n <<< (g - u).toNat : Nat) : Int)
    let z := x + y
    if z = 0 then .fin false 0 0 else .fin (z < 0) z.natAbs u

/-- The negation. -/
def FVal.neg : FVal → FVal
  | .nan => .nan
  | .inf s => .inf (!s)
  | .fin s m e => .fin (!s) m e

/-- The exact product (R291, R295). -/
def FVal.mul (a b : FVal) : FVal :=
  match a, b with
  | .nan, _ => .nan
  | _, .nan => .nan
  | .inf s, .inf t => .inf (s != t)
  | .inf s, .fin t n _ => if n = 0 then .nan else .inf (s != t)
  | .fin s m _, .inf t => if m = 0 then .nan else .inf (s != t)
  | .fin s m e, .fin t n g => .fin (s != t) (m * n) (e + g)

/-- FP32 word of a value, rounded to nearest-even (R295). -/
def r32 (v : FVal) : Nat := fp32.encode .nearest false v

/-- The value of an FP32 word. -/
def v32 (w : Nat) : FVal := fp32.decode w

def f32add (a b : Nat) : Nat := r32 ((v32 a).add (v32 b))
def f32sub (a b : Nat) : Nat := r32 ((v32 a).add (v32 b).neg)
def f32mul (a b : Nat) : Nat := r32 ((v32 a).mul (v32 b))
/-- a * b + c with one rounding (R307). -/
def f32fma (a b c : Nat) : Nat := r32 (((v32 a).mul (v32 b)).add (v32 c))
/-- The FP32 word with its sign bit inverted. -/
def f32neg (a : Nat) : Nat := if a < 2 ^ 31 then a + 2 ^ 31 else a - 2 ^ 31

/-- An FP32 NaN (R289: any sign, any fraction). -/
def f32isNan (a : Nat) : Bool := v32 a == .nan

/-- An FP32 infinity. -/
def f32isInf (a : Nat) : Bool := match v32 a with | .inf _ => true | _ => false

/-- A quotient with more bits than any format keeps, the lowest set when it is not exact: every format rounds it as it would the quotient itself. -/
def FVal.quot (a b : FVal) : FVal :=
  match a, b with
  | .nan, _ => .nan
  | _, .nan => .nan
  | .inf _, .inf _ => .nan
  | .inf s, .fin t _ _ => .inf (s != t)
  | .fin s _ _, .inf t => .fin (s != t) 0 0
  | .fin s m e, .fin t n g =>
    if n = 0 then (if m = 0 then .nan else .inf (s != t))
    else
      let k := 48 + bitLen n
      let q := (m <<< k) / n
      let sticky := b2n ((m <<< k) % n != 0)
      .fin (s != t) (2 * q + sticky) (e - g - k - 1)

/-- The quotient, correctly rounded to FP32: 48 guard bits and a sticky bit (R307). -/
def f32div (a b : Nat) : Nat := r32 ((v32 a).quot (v32 b))

/-- The square root, correctly rounded to FP32 (R307). -/
def f32sqrt (a : Nat) : Nat :=
  match v32 a with
  | .nan => fp32.nanBits
  | .inf s => if s then fp32.nanBits else r32 (.inf false)
  | .fin s m e =>
    if m = 0 then r32 (.fin s 0 0) else if s then fp32.nanBits else
    let k : Nat := if e % 2 = 0 then 64 else 65
    let n := m <<< k
    let q := Nat.sqrt n
    r32 (.fin false (2 * q + b2n (q * q != n)) ((e - k) / 2 - 1))

/-- The reciprocal square root, correctly rounded to FP32 (R307). -/
def f32rsqrt (a : Nat) : Nat :=
  match v32 a with
  | .nan => fp32.nanBits
  | .inf s => if s then fp32.nanBits else r32 (.fin false 0 0)
  | .fin s m e =>
    if m = 0 then r32 (.inf s) else if s then fp32.nanBits else
    let k : Nat := if e % 2 = 0 then 128 else 129
    -- 1/sqrt(m 2^e) = sqrt(2^k / m) * 2^(-(e+k)/2)
    let q := Nat.sqrt (2 ^ k / m)
    r32 (.fin false (2 * q + b2n (q * q * m != 2 ^ k)) (-(e + k) / 2 - 1))

/-- Fraction bits of the fixed-point evaluation of exp and ln (log 14). -/
def fixBits : Nat := 384

/-- The Taylor sum of exp on fixed-point x below 1: the terms x^i / i! from term t = x^(i-1)/(i-1)!. -/
def expTerms (x : Nat) : Nat → Nat → Nat → Nat
  | 0, _, _ => 0
  | fuel + 1, i, t => t + expTerms x fuel (i + 1) (t * x / 2 ^ fixBits / i)

/-- Repeated squaring of a fixed-point number. -/
def squareN : Nat → Nat → Nat
  | 0, y => y
  | n + 1, y => squareN n (y * y / 2 ^ fixBits)

/-- exp of a non-negative fixed-point number below 2^8, as a fixed-point number. -/
def fixExp (x : Nat) : Nat := squareN 12 (expTerms (x / 2 ^ 12) 60 1 (2 ^ fixBits))

/-- The sum of x^(2i+1) / (2i+1), for atanh of a fixed-point number (x2 is its square). -/
def atanhTerms (x2 : Nat) : Nat → Nat → Nat → Nat
  | 0, _, _ => 0
  | fuel + 1, i, t => t / i + atanhTerms x2 fuel (i + 2) (t * x2 / 2 ^ fixBits)

/-- ln of the ratio n / d for n not below d, both of one binade, as a fixed-point number: 2 atanh((n-d)/(n+d)). -/
def fixLnRatio (n d : Nat) : Nat :=
  let x := ((n - d) <<< fixBits) / (n + d)
  2 * atanhTerms (x * x / 2 ^ fixBits) 140 1 x

/-- e^a, correctly rounded to FP32 (R307, log 14). -/
def f32exp (a : Nat) : Nat :=
  match v32 a with
  | .nan => fp32.nanBits
  | .inf s => if s then r32 (.fin false 0 0) else r32 (.inf false)
  | .fin s m e =>
    if m = 0 then r32 (.fin false 1 0) else
    if e + bitLen m > 8 then (if s then r32 (.fin false 0 0) else r32 (.inf false)) else
    let sh : Int := e + fixBits
    let x : Nat := if 0 ≤ sh then m <<< sh.toNat else m >>> (-sh).toNat
    if x = 0 then r32 (.fin false 1 0) else
    let y := fixExp x
    if s then r32 (.fin false (2 * (2 ^ (2 * fixBits) / y) + 1) (-(fixBits : Int) - 1))
    else r32 (.fin false (2 * y + 1) (-(fixBits : Int) - 1))

/-- ln a, correctly rounded to FP32 (R307, log 14). -/
def f32ln (a : Nat) : Nat :=
  match v32 a with
  | .nan => fp32.nanBits
  | .inf s => if s then fp32.nanBits else r32 (.inf false)
  | .fin s m e =>
    if m = 0 then r32 (.inf true) else if s then fp32.nanBits else
    let n := bitLen m
    -- a = z * 2^k with z in [3/4, 3/2)
    let top := 4 * m < 3 * 2 ^ n
    let k : Int := if top then e + n - 1 else e + n
    let d := if top then 2 ^ (n - 1) else 2 ^ n
    let lz : Int := if d ≤ m then fixLnRatio m d else -(fixLnRatio d m : Int)
    let v : Int := k * fixLnRatio 2 1 + lz
    if v = 0 then r32 (.fin false 0 0)
    else r32 (.fin (v < 0) (2 * v.natAbs + 1) (-(fixBits : Int) - 1))

/-- The order of values under R292, for operands that are not NaN: a below b, zeros equal. -/
def FVal.lt (a b : FVal) : Bool :=
  match a, b with
  | .nan, _ => false
  | _, .nan => false
  | .inf s, .inf t => s && !t
  | .inf s, .fin _ _ _ => s
  | .fin _ _ _, .inf t => !t
  | .fin s m e, .fin t n g =>
    let u := min e g
    let x : Int := (if s then -1 else 1) * ((m <<< (e - u).toNat : Nat) : Int)
    let y : Int := (if t then -1 else 1) * ((n <<< (g - u).toNat : Nat) : Int)
    x < y

/-- Equality under R292: zeros equal, NaN equal to nothing. -/
def FVal.eqv (a b : FVal) : Bool :=
  match a, b with
  | .nan, _ => false
  | _, .nan => false
  | _, _ => !a.lt b && !b.lt a

def f32lt (a b : Nat) : Bool := (v32 a).lt (v32 b)
def f32eq (a b : Nat) : Bool := (v32 a).eqv (v32 b)
def f32le (a b : Nat) : Bool := f32lt a b || f32eq a b

/-- Maximum of IEEE 754-2019: NaN when any operand is NaN, -0 below +0 (R292). -/
def f32max (a b : Nat) : Nat :=
  if f32isNan a || f32isNan b then fp32.nanBits
  else if f32lt a b then b
  else if f32lt b a then a
  else if a < 2 ^ 31 then a else b

/-- Minimum of IEEE 754-2019 (R292). -/
def f32min (a b : Nat) : Nat :=
  if f32isNan a || f32isNan b then fp32.nanBits
  else if f32lt a b then a
  else if f32lt b a then b
  else if a < 2 ^ 31 then b else a

/-- One level of the pairwise tree: an absent partner passes a node up unchanged (R296). -/
def treeLevel {α : Type} (add : α → α → α) : List α → List α
  | a :: b :: l => add a b :: treeLevel add l
  | l => l

/-- The balanced pairwise tree over positions 0 to K - 1 (R296); fuel bounds the levels. -/
def treeFuel {α : Type} (add : α → α → α) : Nat → List α → List α
  | 0, l => l
  | n + 1, l => if l.length ≤ 1 then l else treeFuel add n (treeLevel add l)

/-- The tree sum of R296 in FP32; the sum over no position is +0. -/
def treeSum (l : List Nat) : Nat := (treeFuel f32add l.length l).headD 0

/-- INT32 addition with saturation (R296). -/
def i32add (a b : Int) : Int := encodeInt 32 .nearest (.fin (a + b < 0) (a + b).natAbs 0)

/-- The tree sum of R296 in INT32. -/
def treeSumInt (l : List Int) : Int := (treeFuel i32add l.length l).headD 0

/-- An addition in the accumulator format of a reduction, INT32 or FP32, on 32-bit words (R294 to R296). -/
def accAdd (int : Bool) (a b : Nat) : Nat :=
  if int then (BitVec.ofInt 32 (i32add (BitVec.ofNat 32 a).toInt (BitVec.ofNat 32 b).toInt)).toNat else f32add a b

/-- The tree sum of R296 in an accumulator format, on 32-bit words. -/
def treeSumAcc (int : Bool) (l : List Nat) : Nat := (treeFuel (accAdd int) l.length l).headD 0

/-- The running sum of parts in ascending part index (R299), in FP32 and in the accumulator format. -/
def chainSum (l : List Nat) : Nat :=
  match l with
  | [] => 0
  | s :: t => t.foldl f32add s

/-- Running sums with the next part added, element by element; a part that is not there changes nothing (R299, R455). -/
def chainStep (int : Bool) (sums part : List Nat) : List Nat :=
  if part.isEmpty then sums else if sums.isEmpty then part else List.zipWith (accAdd int) sums part

/-- Products of R295: formed exactly, rounded once to FP32. -/
def prod32 (a b : FVal) : Nat := r32 (a.mul b)

/-- The dot product in the tree of R296. -/
def dot32 (a b : List FVal) : Nat := treeSum (List.zipWith prod32 a b)

/-- The draw u of R305 for strand key k, stitch index s and element index e. -/
def draw (k s e : Nat) : Nat :=
  let M := 2 ^ 64
  let z := ((k * 2 ^ 32) % M) ||| (s % 2 ^ 32)
  let z := z ^^^ (((e + 1) * 0x9E3779B97F4A7C15) % M)
  let z := ((z ^^^ (z >>> 30)) * 0xBF58476D1CE4E5B9) % M
  let z := ((z ^^^ (z >>> 27)) * 0x94D049BB133111EB) % M
  let z := z ^^^ (z >>> 31)
  bits z 63 48

/-- The row maximum of R308; no output gives -infinity. -/
def rowMax (l : List Nat) : Nat := l.foldl f32max 0xFF800000

/-- The row sum of R309 over exponentials of differences to the maximum. -/
def rowSum (m : Nat) (l : List Nat) : Nat :=
  if m = 0xFF800000 then 0
  else if f32isNan m || m = 0x7F800000 then fp32.nanBits
  else treeSum (l.map fun x => f32exp (f32sub x m))

/-- The pair (m, S) of a part of a row (R308, R309). -/
def rowStat (l : List Nat) : Nat × Nat := (rowMax l, rowSum (rowMax l) l)

/-- One step of the chain of R310. -/
def rowJoin (a b : Nat × Nat) : Nat × Nat :=
  let m := f32max a.1 b.1
  if m = 0xFF800000 then (m, 0)
  else (m, f32add (f32mul a.2 (f32exp (f32sub a.1 m))) (f32mul b.2 (f32exp (f32sub b.1 m))))

/-- The pair of a row cut into parts, combined in ascending part index (R310). -/
def rowChain (parts : List (Nat × Nat)) : Nat × Nat :=
  match parts with
  | [] => (0xFF800000, 0)
  | p :: t => t.foldl rowJoin p

/-- The smallest integer e with a not above q * 2^e (R288 step 3), for a magnitude a = m * 2^g, m not 0. -/
def blockExp (q m : Nat) (g : Int) : Int :=
  let e0 : Int := g + bitLen m - bitLen q
  -- m 2^g ≤ q 2^e0 ?
  let u := min g e0
  if (m <<< (g - u).toNat) ≤ (q <<< (e0 - u).toNat) then e0 else e0 + 1

/-- The magnitude order of two values, NaN and infinities aside. -/
def magLe (a b : FVal) : Bool :=
  match a, b with
  | .fin _ m e, .fin _ n g => !(FVal.lt (.fin false n g) (.fin false m e))
  | .fin _ _ _, .inf _ => true
  | .inf _, .inf _ => true
  | _, _ => false

/-- The element of largest magnitude of a block. -/
def maxMag (l : List FVal) : FVal := l.foldl (fun a b => if magLe a b then b else a) (.fin false 0 0)

/-- The scale byte of a block (R288): q is 127 for HB8 and 6 for HB4. -/
def blockScale (q : Nat) (l : List FVal) : Nat :=
  if l.any (· == .nan) then 0xFF else
  match maxMag l with
  | .fin _ m g => if m = 0 then 0 else
      let e := blockExp q m g + 127
      if e < 0 then 0 else if 254 < e then 254 else e.toNat
  | _ => 254

/-- A value times a power of two, exactly. -/
def FVal.scale (v : FVal) (k : Int) : FVal :=
  match v with
  | .fin s m e => .fin s m (e + k)
  | v => v

/-- A block of 32 values formed in HB8 or HB4 (R288): the scale byte and the element fields. `mode` gives each element's
rounding. -/
def blockForm (hb4 : Bool) (mode : Nat → RMode) (l : List FVal) : Nat × List Nat :=
  let q := if hb4 then 6 else 127
  let E := blockScale q l
  if E = 0xFF then (E, l.map fun _ => 0)
  else if (match maxMag l with | .fin _ 0 _ => true | _ => false) then (0, l.map fun _ => 0)
  else
    let k : Int := 127 - E
    (E, (List.zip (List.range l.length) l).map fun p =>
      let x := p.2.scale k
      if hb4 then e2m1.encode (mode p.1) true x
      else (BitVec.ofInt 8 (encodeInt 8 (mode p.1) x)).toNat)

/-- The value of an element field of a block with scale byte E (R286). -/
def blockVal (hb4 : Bool) (E fld : Nat) : FVal :=
  if E = 0xFF then .nan
  else if hb4 then (e2m1.decode fld).scale ((E : Int) - 127)
  else
    let i := (BitVec.ofNat 8 fld).toInt
    (FVal.fin (i < 0) i.natAbs 0).scale ((E : Int) - 127)

/-! The formats of R282 and their roles -/

/-- Formats by code (R282). -/
inductive Format where
  | float (f : Fmt)
  /-- two's complement of so many bits: INT8, INT4, INT32 -/
  | int (bits : Nat)
  /-- HB8 or HB4: a block format with elements of INT8 or E2M1 (R286) -/
  | block (hb4 : Bool)
  deriving DecidableEq, Repr

/-- The format of a code; none for a reserved one. -/
def formatOf (code : Nat) : Option Format :=
  match code with
  | 5 => some (.int 8)
  | 6 => some (.int 4)
  | 7 => some (.block false)
  | 8 => some (.block true)
  | 9 => some (.int 32)
  | _ => (fmtOf code).map .float

/-- Bits of one element (R282, R284). -/
def Format.bits : Format → Nat
  | .float f => 1 + f.ebits + f.fbits
  | .int n => n
  | .block hb4 => if hb4 then 4 else 8

/-- The roles of a format code (R282): weights, activations, outputs. -/
def weightCode (code : Nat) : Bool := code ≤ 8
def activationCode (code : Nat) : Bool := code ≤ 5
def outputCode (code : Nat) : Bool := code ≤ 9

/-- A format whose values are integers (R294). -/
def Format.isInt : Format → Bool
  | .int _ => true
  | _ => false

/-- The integer that an element word of n bits encodes (R284). -/
def intValue (n w : Nat) : Int := (BitVec.ofNat n w).toInt

/-- The value of an element word, its block's scale byte given (R284, R286). -/
def Format.value (f : Format) (scale w : Nat) : FVal :=
  match f with
  | .float g => g.decode w
  | .int n => let i := intValue n w; .fin (i < 0) i.natAbs 0
  | .block hb4 => blockVal hb4 scale w

/-- The product of a weight and an activation in the accumulator format (R294, R295). -/
def accProduct (wf af : Format) (scale w a : Nat) : Nat :=
  match wf, af with
  | .int n, .int m => (BitVec.ofInt 32 (intValue n w * intValue m a)).toNat
  | _, _ => prod32 (wf.value scale w) (af.value 0 a)

/-- An accumulated word converted to an output format that is not a block format (R301 to R304). -/
def Format.narrow (f : Format) (mode : RMode) (sat : Bool) (v : FVal) : Nat :=
  match f with
  | .float g => g.encode mode sat v
  | .int n => (BitVec.ofInt n (encodeInt n mode v)).toNat
  | .block _ => 0

/-- Elements of a list of bytes in a floating-point format, little-endian (R285). -/
def elemsOf (code : Nat) (bs : List Byte) (n : Nat) : List FVal :=
  (List.range n).map fun i =>
    match fmtOf code with
    | some f => f.decode (leAt bs (i * fmtBytes code) (fmtBytes code))
    | none => .nan

/-- The bytes of elements in a floating-point format. -/
def elemBytes (code : Nat) (ws : List Nat) : List Byte := (ws.map (toLe (fmtBytes code))).flatten

/-- A value narrowed to a format code 0 to 4 under nearest-even with saturation, as R322 and R221 convert. -/
def narrowSat (code : Nat) (v : FVal) : Nat :=
  match fmtOf code with
  | some f => f.encode .nearest true v
  | none => 0

end Sys2Proof.Machine
end

