-- ==== Sys2Proof/Machine/Maps.lean ====
section
/-! DEFINITION. Sparse maps from numbers as lists in one canonical form: keys strictly rising, and no entry equal to what an
unlisted key reads as. Object bytes, registers and every table keyed by a number use them. -/

namespace Sys2Proof.Machine

/-- A sparse map: key and value pairs, keys strictly rising. -/
abbrev NMap (α : Type) := List (Nat × α)

/-- The keys of a map rise strictly. -/
def NMap.wf {α : Type} (m : NMap α) : Prop := m.Pairwise (fun a b => a.1 < b.1)

/-- The value listed at a key, if any. -/
def nget {α : Type} (m : NMap α) (k : Nat) : Option α :=
  match m with
  | [] => none
  | (k', v) :: m' => if k' = k then some v else nget m' k

/-- The map with the entry of a key removed. -/
def nerase {α : Type} (m : NMap α) (k : Nat) : NMap α := m.filter fun p => p.1 != k

/-- The map with a key set to a value, keys kept rising. -/
def nset {α : Type} (m : NMap α) (k : Nat) (v : α) : NMap α :=
  match m with
  | [] => [(k, v)]
  | (k', v') :: m' =>
    if k' < k then (k', v') :: nset m' k v
    else if k' = k then (k, v) :: m'
    else (k, v) :: (k', v') :: m'

/-- The map with the value at a key changed, when one is listed. -/
def nmod {α : Type} (m : NMap α) (k : Nat) (f : α → α) : NMap α :=
  m.map fun p => if p.1 = k then (p.1, f p.2) else p

/-- Bytes in canonical form: an unlisted address reads 0 (log 6), so no entry holds 0. -/
abbrev Bytes := List (Nat × Byte)

/-- One byte of an object's content. -/
def Bytes.read (m : Bytes) (a : Nat) : Byte := (nget m a).getD 0

/-- The content with one byte written; writing 0 removes the entry. -/
def Bytes.write (m : Bytes) (a : Nat) (b : Byte) : Bytes :=
  if b = 0 then nerase m a else nset m a b

/-- Canonical form of object bytes: keys strictly rising and no byte equal to 0. -/
abbrev Bytes.wf (m : Bytes) : Prop := m.Pairwise (fun a b => a.1 < b.1) ∧ ∀ p ∈ m, p.2 ≠ 0

/-- n bytes from an address. -/
def Bytes.readN (m : Bytes) (a : Nat) : Nat → List Byte
  | 0 => []
  | n + 1 => m.read a :: Bytes.readN m (a + 1) n

/-- A list of bytes written from an address up. -/
def Bytes.writeN (m : Bytes) (a : Nat) : List Byte → Bytes
  | [] => m
  | b :: bs => Bytes.writeN (m.write a b) (a + 1) bs

/-- The n-byte little-endian number at an address (R3). -/
def Bytes.le (m : Bytes) (a n : Nat) : Nat := leNat (m.readN a n)

end Sys2Proof.Machine
end

