-- ==== Sys2Proof/Machine/Data.lean ====
section
/-! DEFINITION. The plain data that objects, indexes and searches are made of (06_epochs.md, 08_vector_search_walk.md, 09_vector_search_results.md). -/

namespace Sys2Proof.Machine

/-- One entry of an index: a sprout record, an entry of the scanned array, or the entry of a graph node (R213, R216). -/
structure IxEntry where
  /-- passage ID, 48 bits (R22) -/
  pid : Nat
  /-- line index of the passage in the passage-store body, 40 bits (R213) -/
  line : Nat
  /-- token count of the passage, 16 bits (R213) -/
  toks : Nat
  /-- attribute record, 64 bytes (R239) -/
  attr : List Byte
  /-- element patterns in STORE_FMT, or the code bytes of a SKETCH entry (R213) -/
  vec : List Nat
  /-- PQ code, 32 centroid numbers (R214); empty outside GRAPH -/
  pq : List Nat
  /-- the husk mark: the flag of a sprout record, the husk-map bit of a graph node (R216) -/
  husked : Bool
  deriving DecidableEq, Repr

/-- A graph node (R220): its entry, its shard, its neighbours, and its neighbours within each navigation level. -/
structure GraphNode where
  entry : IxEntry
  shard : Nat
  nbrs : List Nat
  nav : NMap (List Nat)
  deriving DecidableEq, Repr

/-- What the module itself keeps of an index beside the descriptor and codebook bytes (R210). -/
structure IndexBody where
  /-- graph nodes by passage number -/
  nodes : NMap GraphNode
  /-- the scanned entry array of FLAT and SKETCH -/
  flat : List IxEntry
  /-- the sprout, in the order its records entered -/
  sprout : List IxEntry
  deriving DecidableEq, Repr

/-- The content of an object: its bytes, header first (R147), and an index's own structure. -/
structure Content where
  bytes : Bytes
  index : IndexBody
  deriving DecidableEq, Repr

/-- An entry of a candidate heap (R222, R223). -/
structure HeapEnt where
  entry : IxEntry
  /-- FP32 key (R209) -/
  key : Nat
  /-- a graph node, else a sprout record or an array entry -/
  node : Bool
  /-- its read has been requested by the runner -/
  asked : Bool
  /-- its exact key is known -/
  exact : Bool
  /-- expanded -/
  expanded : Bool
  deriving DecidableEq, Repr

/-- The context of one shard walk or scan (R218). -/
structure Walk where
  heap : List HeapEnt
  /-- nodes marked in the visited filter (R219) -/
  visited : List Nat
  waves : Nat
  ended : Bool
  /-- NaN keys refused (R223) -/
  nans : Nat
  /-- nodes wrongly reported as visited (R219) -/
  skips : Nat
  /-- pages and records read -/
  reads : Nat
  /-- sprout records scanned -/
  scanned : Nat
  deriving DecidableEq, Repr

/-- An entry of a candidate list or of a result: its search key and, after a re-rank, its score. -/
structure Cand where
  entry : IxEntry
  key : Nat
  /-- FP32 re-rank score, when scored -/
  score : Option Nat
  deriving DecidableEq, Repr

end Sys2Proof.Machine
end

