-- ==== Sys2Proof/Machine/Search.lean ====
section
/-! DEFINITION. Vector search: descriptors, keys, PQ codes, the graph walk and the scans (08_vector_search_walk.md). -/

namespace Sys2Proof.Machine

def Content.empty : Content := ⟨[], ⟨[], [], []⟩⟩

/-- The fields of an index descriptor as stored (R210). -/
structure IxDesc where
  fmt : Nat
  metric : Nat
  cls : Nat
  nbrs : Nat
  dim : Nat
  fanout : Nat
  waves : Nat
  shards : Nat
  capacity : Nat
  mergeAt : Nat
  deriving DecidableEq, Repr

/-- The descriptor at 0x40 of an index (R210), tuning values defaulted and clamped (R210, R211). CAPACITY is in entries. -/
def ixDesc (b : Bytes) : IxDesc :=
  let d0 := b.le 0x40 4
  let d1 := b.le 0x44 4
  let d2 := b.le 0x48 4
  let dflt (v d hi : Nat) := if v = 0 then d else min v hi
  let cls := bits d0 3 0
  { fmt := bits d0 19 16, metric := bits d0 11 8, cls := cls,
    nbrs := bits d1 23 16, dim := bits d1 15 0,
    fanout := dflt (bits d2 23 16) 4 8, waves := dflt (bits d2 15 8) 8 64, shards := dflt (bits d2 7 0) 1 32,
    capacity := min (bits (b.le 0x4C 4) 23 0 * 1024) (if cls = 0 then 17179868160 else 67108864),
    mergeAt := b.le 0x50 4 }

/-- The structural fields of R211 as they are stored, by which a shadow is emptied and a write is stale. -/
def ixStruct (b : Bytes) : List Nat :=
  let d := ixDesc b
  [d.cls, d.metric, d.fmt, d.dim, d.nbrs, bits (b.le 0x48 4) 7 0, bits (b.le 0x4C 4) 23 0]

/-- The end of the bytes software may write in an index: the codebook's end for GRAPH, 0x80 otherwise (R210). -/
def ixEnd (b : Bytes) : Nat :=
  let d := ixDesc b
  if d.cls = 0 then 0x80 + 512 * d.dim else 0x80

/-- METRIC, class or format checks of R212: the metric failure. -/
def ixMetricBad (d : IxDesc) : Bool :=
  2 < d.cls || 3 < d.metric || (d.cls != 2 && 1 < d.fmt) || (d.metric == 3) != (d.cls == 2)

/-- The DIM and NEIGHBOURS ranges of R208 and R212. -/
def ixDimBad (d : IxDesc) : Bool :=
  (match d.cls with
   | 0 => d.dim < 32 || 1024 < d.dim || d.dim % 32 != 0
   | 1 => d.dim < 1 || 1024 < d.dim
   | _ => d.dim < 32 || 512 < d.dim || d.dim % 32 != 0)
  || (d.cls == 0 && (d.nbrs < 1 || 64 < d.nbrs))

/-- The arithmetic format code of STORE_FMT (R210, R283). -/
def storeCode (d : IxDesc) : Nat := if d.fmt = 0 then 3 else 1

/-- Bytes of a stored vector (R213). -/
def vecBytes (d : IxDesc) : Nat := if d.cls = 2 then d.dim else d.dim * fmtBytes (storeCode d)

/-- Size of an INDEX_INSERT entry (R213). -/
def ixEntrySize (d : IxDesc) : Nat := 128 + 64 * ceilDiv (vecBytes d) 64

/-- Values of stored element patterns. -/
def vecVals (d : IxDesc) (v : List Nat) : List FVal :=
  match fmtOf (storeCode d) with
  | some f => v.map f.decode
  | none => []

/-- Count of one bits. -/
def popcount8 (n : Nat) : Nat := sumNat ((List.range 8).map fun i => b2n (bit n i))

/-- The Hamming distance of two codes (R209). -/
def hamming (a b : List Nat) : Nat := sumNat (List.zipWith (fun x y => popcount8 (x ^^^ y)) a b)

/-- A number as an FP32 word. -/
def natF32 (n : Nat) : Nat := r32 (.fin false n 0)

/-- The squared Euclidean sum of R209 in FP32. -/
def sqDist (q p : List FVal) : Nat :=
  treeSum (List.zipWith (fun x y => let d := v32 (r32 (x.add y.neg)); prod32 d d) q p)

/-- The exact key of a dense metric (R209). -/
def denseKey (metric : Nat) (q p : List FVal) : Nat :=
  if metric = 2 then sqDist q p else f32neg (dot32 q p)

/-- The exact key of a stored vector against a query, given as patterns in STORE_FMT or code bytes (R209). -/
def exactKey (d : IxDesc) (q v : List Nat) : Nat :=
  if d.metric = 3 then natF32 (hamming q v) else denseKey d.metric (vecVals d q) (vecVals d v)

/-- The raw metric a result reports for a key (R209). -/
def rawMetric (d : IxDesc) (key : Nat) : Nat :=
  if d.metric ≤ 1 then (if f32isNan key then key else f32neg key) else key

/-- The FP32 norm of a vector: correctly rounded root of the pairwise sum of squares (R214). -/
def norm32 (v : List FVal) : Nat := f32sqrt (treeSum (v.map fun x => prod32 x x))

/-- A vector divided by its norm, in FP32. -/
def normalise (v : List FVal) : List FVal :=
  let n := norm32 v
  v.map fun x => v32 (f32div (r32 x) n)

/-- A cosine vector as it is stored: each quotient rounded once, into STORE_FMT (R214). -/
def storeNormal (d : IxDesc) (v : List FVal) : List Nat :=
  let n := v32 (norm32 v)
  v.map fun x => narrowSat (storeCode d) (x.quot n)

/-- The converted query of step 1 of R221. -/
def convQuery (d : IxDesc) (qfmt : Nat) (input : List Byte) : List Nat :=
  if d.cls = 2 then (slice input 0 d.dim).map (·.toNat) else
  let q := elemsOf qfmt input d.dim
  let q := if d.metric = 1 then normalise q else q
  q.map (narrowSat (storeCode d))

/-- Element j of centroid c of subspace s of the codebook (R210). -/
def centroid (b : Bytes) (d : IxDesc) (s c : Nat) : List FVal :=
  let n := d.dim / 32
  (List.range n).map fun j => bf16.decode (b.le (0x80 + ((s * 256 + c) * n + j) * 2) 2)

/-- The subvector of subspace s. -/
def subvec (d : IxDesc) (v : List FVal) (s : Nat) : List FVal := (v.drop (s * (d.dim / 32))).take (d.dim / 32)

/-- The nearest of 256 centroids, ties to the lower index (R214). -/
def pqChoose (b : Bytes) (d : IxDesc) (v : List FVal) (s : Nat) : Nat :=
  let x := subvec d v s
  ((List.range 256).foldl (fun (best : Nat × Nat) c =>
    let k := sqDist x (centroid b d s c)
    if f32lt k best.2 then (c, k) else best) (0, sqDist x (centroid b d s 0))).1

/-- The PQ code of a vector (R214); empty outside GRAPH. -/
def pqEncode (b : Bytes) (d : IxDesc) (v : List Nat) : List Nat :=
  if d.cls = 0 then (List.range 32).map (pqChoose b d (vecVals d v)) else []

/-- The entry of the PQ table for subspace s and centroid c (step 2 of R221). -/
def pqPart (b : Bytes) (d : IxDesc) (q : List FVal) (s c : Nat) : Nat :=
  let x := subvec d q s
  let y := centroid b d s c
  if d.metric = 2 then sqDist x y else dot32 x y

/-- The PQ key of a code (R221). -/
def pqKey (b : Bytes) (d : IxDesc) (q : List Nat) (code : List Nat) : Nat :=
  let qs := vecVals d q
  let s := treeSum ((List.zip (List.range 32) code).map fun p => pqPart b d qs p.1 p.2)
  if d.metric = 2 then s else f32neg s

/-- The 64-bit product of h1 (R219). -/
def hash1 (n : Nat) : Nat := (n * 0x9E3779B97F4A7C15) % 2 ^ 64
/-- The 64-bit product of h2 (R219). -/
def hash2 (n : Nat) : Nat := (n * 0xC2B2AE3D27D4EB4F) % 2 ^ 64

/-- The two filter bits of a node (R219). -/
def filterBits (n : Nat) : Nat × Nat := (bits (hash1 n) 63 46, bits (hash2 n) 63 46)

/-- The filter reports a node as visited (R219). -/
def reported (visited : List Nat) (n : Nat) : Bool :=
  let marks := visited.foldl (fun acc v => (filterBits v).1 :: (filterBits v).2 :: acc) []
  marks.contains (filterBits n).1 && marks.contains (filterBits n).2

/-- Node n belongs to navigation level j (R220). -/
def inLevel (j n : Nat) : Bool := hash1 n % 2 ^ (6 * j) == 0

/-- The members of a level among the graph nodes. -/
def levelNodes (nodes : NMap GraphNode) (j : Nat) : List Nat := (nodes.map (·.1)).filter (inLevel j)

/-- The top level: the lowest that holds 4,096 nodes or fewer (R220). -/
def topLevel (nodes : NMap GraphNode) : Nat → Nat → Nat
  | 0, j => j
  | fuel + 1, j => if (levelNodes nodes j).length ≤ 4096 then j else topLevel nodes fuel (j + 1)

/-- The entry node: the lowest passage number of the top level, if any (R220). -/
def entryNode (nodes : NMap GraphNode) : Option (Nat × Nat) :=
  let j := topLevel nodes 8 1
  match levelNodes nodes j with
  | [] => none
  | n :: _ => some (j, n)

/-- Heap order: key, then passage ID (R223); keys compare with zeros equal. -/
def heapLe (a b : HeapEnt) : Bool :=
  f32lt a.key b.key || (f32eq a.key b.key && a.entry.pid ≤ b.entry.pid)

/-- An entry offered to a heap of length L (R223). -/
def offer (L : Nat) (w : Walk) (e : HeapEnt) : Walk :=
  if f32isNan e.key then { w with nans := w.nans + 1 }
  else { w with heap := (insertBy heapLe e w.heap).take L }

/-- The key of a node by its FP8 navigation vector (R220, R221). -/
def navKey (d : IxDesc) (q : List Nat) (e : IxEntry) : Nat :=
  let v := (vecVals d e.vec).map fun x => e4m3.decode (e4m3.encode .nearest true x)
  denseKey d.metric (vecVals d q) v

/-- Beam order: FP8 key, then passage number. -/
def beamLe (a b : Nat × Nat) : Bool := f32lt a.2 b.2 || (f32eq a.2 b.2 && a.1 ≤ b.1)

/-- One hop of the beam on level j: the best R of the beam and its members' neighbours within the level (R221). -/
def beamHop (d : IxDesc) (nodes : NMap GraphNode) (q : List Nat) (R j : Nat) (beam : List (Nat × Nat)) :
    List (Nat × Nat) :=
  let near := (beam.map fun p => match nget nodes p.1 with
    | some g => (nget g.nav j).getD []
    | none => []).flatten
  let fresh := near.filterMap fun n =>
    match nget nodes n with
    | some g => some (n, navKey d q g.entry)
    | none => none
  let all := fresh.foldl (fun acc p => if acc.any (·.1 == p.1) || f32isNan p.2 then acc else insertBy beamLe p acc) beam
  all.take R

/-- Hops on a level, at most `fuel`, until one improves no member (R221). -/
def beamLevel (d : IxDesc) (nodes : NMap GraphNode) (q : List Nat) (R j : Nat) : Nat → List (Nat × Nat) → List (Nat × Nat)
  | 0, beam => beam
  | fuel + 1, beam =>
    let beam' := beamHop d nodes q R j beam
    if beam' = beam then beam else beamLevel d nodes q R j fuel beam'

/-- The descent from level j to level 1, 8 hops a level (R221). -/
def descend (d : IxDesc) (nodes : NMap GraphNode) (q : List Nat) (R : Nat) : Nat → List (Nat × Nat) → List (Nat × Nat)
  | 0, beam => beam
  | j + 1, beam => descend d nodes q R j (beamLevel d nodes q R (j + 1) 8 beam)

def heapEnt (e : IxEntry) (key : Nat) (node : Bool) : HeapEnt := ⟨e, key, node, false, false, false⟩

/-- The runner step: the best R * F entries without a requested read are requested (R222 step 4). -/
def runner (RF : Nat) (w : Walk) : Walk :=
  let h := w.heap.foldl (fun (acc : List HeapEnt × Nat) e =>
    if e.asked || acc.2 = 0 then (acc.1 ++ [e], acc.2) else (acc.1 ++ [{ e with asked := true }], acc.2 - 1)) ([], RF)
  { w with heap := h.1 }

def Walk.fresh : Walk := ⟨[], [], 0, false, 0, 0, 0, 0⟩

/-- The heap length L of pass e (R223, R225): an OVERFETCH of 0 means 4. -/
def heapLen (overfetch K e : Nat) : Nat := min 1024 ((e + 1) * (if overfetch = 0 then 4 else overfetch) * K)

/-- The preparation row of a shard's walk of a GRAPH index (R221). DEDUCED (log 80): a shard's walk enters at the index's own entry node and may
reach every node of the index, since no rule keeps it to the nodes placed in the shard. -/
def prepWalk (b : Bytes) (d : IxDesc) (ix : IndexBody) (q : List Nat) (R L : Nat) : Walk :=
  let live := ix.sprout.filter fun e => !e.husked
  let w := live.foldl (fun w e => offer L w (heapEnt e (pqKey b d q e.pq) false)) Walk.fresh
  let w := { w with scanned := live.length }
  let nodes := ix.nodes
  let w := match entryNode nodes with
    | none => w
    | some (j, n) =>
      let k0 := match nget nodes n with | some g => navKey d q g.entry | none => fp32.nanBits
      let beam := descend d nodes q R j [(n, k0)]
      beam.foldl (fun w p => match nget nodes p.1 with
        | some g => { offer L w (heapEnt g.entry p.2 true) with visited := p.1 :: w.visited }
        | none => w) w
  runner (R * d.fanout) w

/-- The exact scoring of one requested entry: it takes its rank by the exact key (R222 step 2). -/
def scoreOne (d : IxDesc) (q : List Nat) (L : Nat) (w : Walk) (e : HeapEnt) : Walk :=
  let rest := w.heap.filter fun x => !(x.entry.pid == e.entry.pid && x.node == e.node)
  let k := exactKey d q e.entry.vec
  offer L { w with heap := rest, reads := w.reads + 1 } { e with key := k, exact := true }

/-- Expansion of one node: its unvisited neighbours are offered with their PQ keys (R222 step 3). -/
def expandOne (b : Bytes) (d : IxDesc) (nodes : NMap GraphNode) (q : List Nat) (L : Nat) (w : Walk) (n : Nat) : Walk :=
  let w := { w with heap := w.heap.map fun x => if x.node && x.entry.pid % 2 ^ 44 == n then { x with expanded := true } else x }
  match nget nodes n with
  | none => w
  | some g => g.nbrs.foldl (fun w m =>
      match nget nodes m with
      | none => w
      | some h =>
        if reported w.visited m then
          (if w.visited.contains m then w else { w with skips := w.skips + 1 })
        else offer L { w with visited := m :: w.visited } (heapEnt h.entry (pqKey b d q h.entry.pq) true)) w

/-- Convergence: every entry read and scored, no exact-scored graph node unexpanded (R224). -/
def converged (w : Walk) : Bool := w.heap.all fun e => e.exact && (!e.node || e.expanded)

/-- One wave (R222): score the requested entries, expand the best R, run the runner. `waves` ends the walk (R224). -/
def wave (b : Bytes) (d : IxDesc) (ix : IndexBody) (q : List Nat) (R L : Nat) (last : Bool) (w : Walk) : Walk :=
  let due := w.heap.filter fun e => e.asked && !e.exact
  let w := due.foldl (scoreOne d q L) w
  let front := ((w.heap.filter fun e => e.node && e.exact && !e.expanded).take R).map fun e => e.entry.pid % 2 ^ 44
  let w := front.foldl (expandOne b d ix.nodes q L) w
  let w := runner (R * d.fanout) w
  { w with waves := w.waves + 1, ended := last || converged w }

/-- The candidate list of a shard: its exact-scored entries in heap order (R224). -/
def shardList (w : Walk) : List Cand :=
  (w.heap.filter (·.exact)).map fun e => ⟨e.entry, e.key, none⟩

/-- The entries of shard s of a FLAT or SKETCH array: a contiguous range (R227). -/
def shardRange (ix : IndexBody) (shards s : Nat) : List IxEntry :=
  let n := ceilDiv ix.flat.length (max 1 shards)
  (ix.flat.drop (s * n)).take n

/-- A scan of one shard, the sprout first (R227). Husked entries are offered like any other and fall at the filter. -/
def scanShard (d : IxDesc) (ix : IndexBody) (q : List Nat) (L s : Nat) : Walk :=
  let es := ix.sprout ++ shardRange ix d.shards s
  let w := es.foldl (fun w e => offer L w { heapEnt e (exactKey d q e.vec) false with asked := true, exact := true })
    Walk.fresh
  { w with waves := 1, ended := true, reads := ix.sprout.length, scanned := ix.sprout.length }

/-- Waves per row (R226), the period in µs. -/
def wavesPerRow (P : Nat) : Nat := max 1 (P / 110)

/-- Entries scanned per row (R227). -/
def scanPerRow (d : IxDesc) : Nat := 32768 / max 1 (ceilDiv (vecBytes d) 128)

/-- Scan rows of one pass (R227). -/
def scanRows (d : IxDesc) (ix : IndexBody) : Nat :=
  let ns := ceilDiv ix.flat.length (max 1 d.shards) + ix.sprout.length
  max 1 (ceilDiv ns (max 1 (scanPerRow d)))

/-- The bound N of a search (R226, R227). -/
def searchRows (d : IxDesc) (ix : IndexBody) (P ext : Nat) : Nat :=
  if d.cls = 0 then 3 + ceilDiv d.waves (wavesPerRow P) + ceilDiv ext (wavesPerRow P)
  else 3 + scanRows d ix * (1 + ext)

/-- T0 granules of a search per shard (R228). -/
def searchT0 (d : IxDesc) (R : Nat) : Nat := if d.cls = 0 then 41 + R * (d.fanout + 1) else 41

/-- One insert entry read from its bytes (R213). -/
def readEntry (b : Bytes) (d : IxDesc) (bs : List Byte) : IxEntry :=
  let code := storeCode d
  let vec := if d.cls = 2 then (slice bs 0x80 d.dim).map (·.toNat)
    else (List.range d.dim).map fun i => leAt bs (0x80 + i * fmtBytes code) (fmtBytes code)
  let vec := if d.cls != 2 && d.metric == 1 then storeNormal d (vecVals d vec) else vec
  ⟨leAt bs 0 6, leAt bs 8 8 % 2 ^ 40, bits (leAt bs 8 8) 55 40, slice bs 0x10 64, vec, pqEncode b d vec, false⟩

/-- The skip cases of R214 for an insert entry. -/
def entrySkip (d : IxDesc) (modIx : Nat) (bs : List Byte) : Bool :=
  let code := storeCode d
  let raw := elemsOf code (bs.drop 0x80) d.dim
  let reserved := leAt bs 6 2 != 0 || leAt bs 15 1 != 0 || leAt bs 0x50 48 != 0
  let pid := leAt bs 0 6
  reserved || bits pid 47 44 != modIx || d.capacity ≤ pid % 2 ^ 44
  || (d.cls != 2 && raw.any fun v => match v with | .fin _ _ _ => false | _ => true)
  || (d.cls != 2 && d.metric == 1 && f32eq (norm32 (raw.take d.dim)) 0)

/-- Husk the unhusked entry of a passage ID, saying whether there was one (R165, R215). -/
def huskPid (ix : IndexBody) (pid : Nat) : IndexBody × Bool :=
  let hit (e : IxEntry) : Bool := e.pid == pid && !e.husked
  let mark (e : IxEntry) : IxEntry := if hit e then { e with husked := true } else e
  let any := ix.sprout.any hit || ix.flat.any hit || ix.nodes.any fun p => hit p.2.entry
  (⟨ix.nodes.map fun p => (p.1, { p.2 with entry := mark p.2.entry }), ix.flat.map mark, ix.sprout.map mark⟩, any)

/-- An insert: the present entry of the ID is husked and the new one enters the sprout, in one write (R165, R163). -/
def insertEntry (ix : IndexBody) (e : IxEntry) : IndexBody :=
  let ix := (huskPid ix e.pid).1
  { ix with sprout := ix.sprout ++ [e] }

/-- The entries of an INDEX_INSERT applied in input order: the new structure and the count applied (R214). -/
def insertAll (b : Bytes) (d : IxDesc) (modIx : Nat) (ix : IndexBody) (input : List (List Byte)) : IndexBody × Nat :=
  input.foldl (fun acc bs =>
    if entrySkip d modIx bs then acc else (insertEntry acc.1 (readEntry b d bs), acc.2 + 1)) (ix, 0)

/-- The entries of an INDEX_DELETE applied in input order (R215). -/
def deleteAll (ix : IndexBody) (input : List (List Byte)) : IndexBody × Nat :=
  input.foldl (fun acc bs =>
    if leAt bs 6 2 != 0 then acc else
    let r := huskPid acc.1 (leAt bs 0 6)
    if r.2 then (r.1, acc.2 + 1) else acc) (ix, 0)

/-- Every unhusked entry of an index. -/
def liveEntries (ix : IndexBody) : List IxEntry :=
  ((ix.nodes.map fun p => p.2.entry) ++ ix.flat ++ ix.sprout).filter fun e => !e.husked

/-- The husked entries of an index. -/
def huskedEntries (ix : IndexBody) : List IxEntry :=
  ((ix.nodes.map fun p => p.2.entry) ++ ix.flat ++ ix.sprout).filter fun e => e.husked

end Sys2Proof.Machine
end

