-- ==== Sys2Proof/Machine/Select.lean ====
section
/-! DEFINITION. Filter programs, merging and selection (09_vector_search_results.md). -/

namespace Sys2Proof.Machine

/-- A predicate of a filter program (R240). -/
structure Pred where
  group : Nat
  op : Nat
  type : Nat
  width : Nat
  offset : Nat
  reserved : Bool
  operand : Nat
  deriving DecidableEq, Repr

/-- The byte of an object body, reading 0 at and beyond LENGTH (R240, R313). -/
def bodyByte (b : Bytes) (a : Nat) : Byte := if a < 0x40 + b.le 0x08 8 then b.read a else 0

/-- n body bytes as a little-endian number. -/
def bodyLe (b : Bytes) (a : Nat) : Nat → Nat
  | 0 => 0
  | n + 1 => (bodyByte b a).toNat + 256 * bodyLe b (a + 1) n

/-- Predicate i of a filter program (R240). -/
def filterPred (b : Bytes) (i : Nat) : Pred :=
  let w := bodyLe b (0x50 + 16 * i) 4
  { group := bits w 23 20, op := bits w 19 16, type := bits w 15 12, width := bits w 9 8, offset := bits w 5 0,
    reserved := bits w 31 24 != 0 || bits w 11 10 != 0 || bits w 7 6 != 0 || bodyLe b (0x54 + 16 * i) 4 != 0,
    operand := bodyLe b (0x58 + 16 * i) 8 }

/-- Predicate count field of R240. -/
def filterCount (b : Bytes) : Nat := bodyLe b 0x40 1

/-- The header FORMAT of an object (R147). -/
def objFormat (b : Bytes) : Nat := b.le 0 2

/-- A predicate is invalid (R242). -/
def predInvalid (p : Pred) : Bool :=
  9 < p.op || 3 < p.type || p.reserved || (p.type == 2 && p.width != 2)
  || (3 ≤ p.op && p.op ≤ 6 && p.type == 3)
  || (7 ≤ p.op && (p.type == 1 || p.type == 2))

/-- A field read in its type as an integer (types 0, 1, 3). -/
def typedInt (type width v : Nat) : Int :=
  let n := 8 * 2 ^ width
  let u : Nat := v % 2 ^ n
  if type = 1 && 2 ^ (n - 1) ≤ u then (u : Int) - 2 ^ n else u

/-- A valid predicate on an attribute record (R241). -/
def predTrue (p : Pred) (attr : List Byte) : Bool :=
  let bytes := 2 ^ p.width
  let off := p.offset - p.offset % bytes
  let f := leAt attr off bytes
  let o := p.operand % 2 ^ (8 * bytes)
  if p.type = 2 then
    match p.op with
    | 0 => true
    | 1 => f32eq f o
    | 2 => !f32eq f o
    | 3 => f32lt f o
    | 4 => f32le f o
    | 5 => f32lt o f
    | _ => f32le o f
  else
    let x := typedInt p.type p.width f
    let y := typedInt p.type p.width o
    match p.op with
    | 0 => true
    | 1 => x == y
    | 2 => x != y
    | 3 => x < y
    | 4 => x ≤ y
    | 5 => y < x
    | 6 => y ≤ x
    | 7 => (f &&& o) != 0
    | 8 => (f &&& o) == o
    | _ => (f &&& o) == 0

/-- The predicates of a program; a wrong FORMAT reads as one invalid predicate (R240). -/
def filterPreds (b : Bytes) : List Pred :=
  if objFormat b != 1 then [⟨0, 15, 0, 0, 0, false, 0⟩]
  else (List.range (filterCount b)).map (filterPred b)

/-- A program holds an invalid predicate (R242). -/
def filterInvalid (b : Bytes) : Bool := (filterPreds b).any predInvalid

/-- A record passes the predicates: one true in every group that holds any (R243). -/
def predsPass (ps : List Pred) (attr : List Byte) : Bool :=
  (List.range 16).all fun g =>
    let mine := ps.filter (·.group == g)
    mine.isEmpty || mine.any fun p => !predInvalid p && predTrue p attr

/-- An entry stays at the filter stage: not husked, and it passes (R243, R164). `prog` is the pinned program, if any. -/
def keeps (prog : Option Bytes) (c : Cand) : Bool :=
  !c.entry.husked && (match prog with | none => true | some b => predsPass (filterPreds b) c.entry.attr)

/-- The merge of kept lists in ascending shard index (R247): the list, the entries removed, and those with another key. -/
def mergeLists (lists : List (List Cand)) : List Cand × Nat × Nat :=
  lists.flatten.foldl (fun (acc : List Cand × Nat × Nat) c =>
    match acc.1.find? (·.entry.pid == c.entry.pid) with
    | none => (acc.1 ++ [c], acc.2.1, acc.2.2)
    | some o =>
      if f32eq o.key c.key then (acc.1, acc.2.1 + 1, acc.2.2)
      else if f32lt c.key o.key then
        (acc.1.map (fun x => if x.entry.pid == c.entry.pid then c else x), acc.2.1 + 1, acc.2.2 + 1)
      else (acc.1, acc.2.1 + 1, acc.2.2 + 1)) ([], 0, 0)

/-- The key a candidate is ranked by: minus its score when scored (R258), else its search key. -/
def rankKey (c : Cand) : Nat := match c.score with | some s => f32neg s | none => c.key

/-- Selection order: key, then passage ID (R249). -/
def candLe (a b : Cand) : Bool :=
  f32lt (rankKey a) (rankKey b) || (f32eq (rankKey a) (rankKey b) && a.entry.pid ≤ b.entry.pid)

/-- The outcome of a selection (R249, R250): the entries written, the ties left out at the K-th place, the NaNs met. -/
structure Selected where
  entries : List Cand
  ties : Nat
  nans : Nat
  deriving DecidableEq, Repr

/-- Selection of the best K (R249, R250). Every path of R252 gives this result (R255). -/
def selectK (k : Nat) (l : List Cand) : Selected :=
  let good := l.filter fun c => !f32isNan (rankKey c)
  let sorted := sortBy candLe good
  let top := sorted.take k
  let ties := match top.getLast? with
    | none => 0
    | some s => ((sorted.drop k).filter fun c => f32eq (rankKey c) (rankKey s)).length
  ⟨top, ties, l.length - good.length⟩

/-- The path by k alone: 0 main, 1 multi-pass, 2 fallback (R252). -/
def selectPath (k : Nat) : Nat := if k ≤ 1024 then 0 else if k ≤ 65536 then 1 else 2

/-- Cycles of a selection of k from n with m inputs not worse than the k-th key (R252). -/
def selectCycles (k n m : Nat) : Nat :=
  match selectPath k with
  | 0 => ceilDiv n 64 + 1100
  | 1 => ceilDiv k 1024 * (ceilDiv n 64 + 1100)
  | _ => 4 * (ceilDiv n 16 + 2048) + ceilDiv n 16 + log2Up m * ceilDiv m 64

/-- A pass over inputs at a number of them per cycle, and the cycles that close it: whole when it fits in B, else cut at boundaries of
1,048,576 inputs (R256). -/
def cutPass (B inputs per close : Nat) : List Nat :=
  if ceilDiv inputs per + close ≤ B then [ceilDiv inputs per + close]
  else
    let parts := ceilDiv inputs 1048576
    (List.range parts).map fun i => ceilDiv (min 1048576 (inputs - i * 1048576)) per + (if i + 1 = parts then close else 0)

/-- The passes a selection runs, in order, each with its cycles (R256). -/
def selectPasses (B k n m : Nat) : List Nat :=
  match selectPath k with
  | 0 => [selectCycles k n m]
  | 1 => List.replicate (ceilDiv k 1024) (ceilDiv n 64 + 1100)
  | _ => cutPass B n 16 0 ++ (List.replicate 4 (cutPass B n 16 2048)).flatten ++ (List.replicate (log2Up m) (cutPass B m 64 0)).flatten

/-- Whole passes packed into stitches no longer than B, in order (R256). -/
def packPasses (B : Nat) : List Nat → List Nat
  | [] => []
  | c :: l => match packPasses B l with
    | [] => [c]
    | x :: t => if c + x ≤ B then (c + x) :: t else c :: x :: t

/-- The per-row stitches of a selection, each with its cycles: as many whole passes as fit in B (R256). -/
def selectSplit (B k n m : Nat) : List Nat := (packPasses B (selectPasses B k n m).reverse).reverse

/-- Stitches of a selection (R256). -/
def selectStitches (B k n m : Nat) : Nat := (selectSplit B k n m).length

/-- One result entry of 16 bytes (R110). -/
def resultEntry (d : IxDesc) (reranked : Bool) (c : Cand) : List Byte :=
  toLe 6 c.entry.pid ++ toLe 2 0
    ++ toLe 4 (if reranked then c.score.getD fp32.nanBits else rawMetric d c.key)
    ++ toLe 4 (if reranked then rawMetric d c.key else 0)

end Sys2Proof.Machine
end

