-- ==== Sys2Proof/Machine/Embed.lean ====
section
/-! DEFINITION. Embedding tables: the table object, lookups and updates (12_embedding_tables.md). -/

namespace Sys2Proof.Machine

/-- The descriptor of a table (R313). -/
structure TblDesc where
  round : Nat
  fmt : Nat
  dim : Nat
  rows : Nat
  eps : Nat
  reserved : Bool
  deriving DecidableEq, Repr

def tblDesc (b : Bytes) : TblDesc :=
  let d0 := bodyLe b 0x40 4
  let d1 := bodyLe b 0x44 4
  { round := bits d0 7 4, fmt := bits d0 3 0, dim := bits d1 12 0, rows := bodyLe b 0x48 4, eps := bodyLe b 0x4C 4,
    reserved := bits d0 31 8 != 0 || bits d1 31 13 != 0 || bodyLe b 0x50 48 != 0 }

/-- Element bytes of a row (R313). -/
def tblElemBytes (d : TblDesc) : Nat :=
  match d.fmt with
  | 7 => d.dim
  | 8 => d.dim / 2
  | f => d.dim * fmtBytes f

/-- A block row format (HB8 or HB4). -/
def tblBlock (d : TblDesc) : Bool := d.fmt == 7 || d.fmt == 8

/-- The row stride s (R313). -/
def tblStride (d : TblDesc) : Nat :=
  if tblBlock d then 64 * ceilDiv (tblElemBytes d) 64 + 64 * ceilDiv d.dim 2048
  else 64 * ceilDiv (tblElemBytes d) 64

/-- The descriptor checks of R314. -/
def tblBad (d : TblDesc) : Bool :=
  d.dim < 1 || 4096 < d.dim || d.rows == 0 || (tblBlock d && d.dim % 32 != 0)
  || !([0, 1, 2, 3, 4, 7, 8].contains d.fmt) || !([0, 2].contains d.round) || d.reserved

/-- Element j of row r, exactly (R286, R313). -/
def tblElem (b : Bytes) (d : TblDesc) (r j : Nat) : FVal :=
  let base := 0x80 + r * tblStride d
  let scale := bodyLe b (base + 64 * ceilDiv (tblElemBytes d) 64 + j / 32) 1
  match d.fmt with
  | 7 => blockVal false scale (bodyLe b (base + j) 1)
  | 8 =>
    let y := bodyLe b (base + j / 2) 1
    blockVal true scale (if j % 2 = 0 then y % 16 else y / 16)
  | f => match fmtOf f with
    | some g => g.decode (bodyLe b (base + j * fmtBytes f) (fmtBytes f))
    | none => .nan

/-- The bag lengths of a lookup's input (R317). -/
def bagLens (input : List Byte) (bags : Nat) : List Nat := (List.range bags).map fun i => leAt input (4 * i) 4

/-- The index at a position of the index array: none where the position is absent (R317). -/
def lookupIndex (input : List Byte) (bags lookups i : Nat) : Option Nat :=
  let off := 64 * ceilDiv (4 * bags) 64 + 4 * i
  if lookups ≤ i || input.length < off + 4 then none else some (leAt input off 4)

/-- The positions of each bag: bag b takes the next length[b] indices (R317). -/
def bagPositions (lens : List Nat) : List (List Nat) :=
  (lens.foldl (fun (acc : List (List Nat) × Nat) n =>
    (acc.1 ++ [(List.range n).map (· + acc.2)], acc.2 + n)) ([], 0)).1

/-- The present indices of every bag, and the number of indices not present (R319). -/
def bagRows (d : TblDesc) (input : List Byte) (bags lookups : Nat) : List (List Nat) × Nat :=
  let ps := bagPositions (bagLens input bags)
  let rows := ps.map fun l => l.filterMap fun i => match lookupIndex input bags lookups i with
    | some r => if r < d.rows then some r else none
    | none => none
  (rows, sumNat (List.zipWith (fun a b => a.length - b.length) ps rows))

/-- Distinct rows in ascending number with multiplicities (R321). -/
def multiplicities (rows : List Nat) : List (Nat × Nat) :=
  (sortBy (fun a b => decide (a ≤ b)) rows).foldl (fun (acc : List (Nat × Nat)) r =>
    match acc.getLast? with
    | some (q, m) => if q = r then acc.dropLast ++ [(r, m + 1)] else acc ++ [(r, 1)]
    | none => [(r, 1)]) []

/-- The pooled sum of element j of a bag (R322). -/
def poolSum (b : Bytes) (d : TblDesc) (rows : List Nat) (j : Nat) : Nat :=
  let parts := (chunks 1024 (multiplicities rows)).map fun seg =>
    treeSum (seg.map fun p => prod32 (.fin false p.2 0) (v32 (r32 (tblElem b d p.1 j))))
  chainSum parts

/-- The pooled vector of a bag in OUT_FMT (R322, R323). -/
def poolBag (b : Bytes) (d : TblDesc) (mean : Bool) (outFmt : Nat) (rows : List Nat) : List Nat :=
  (List.range d.dim).map fun j =>
    if rows.isEmpty then 0 else
    let s := poolSum b d rows j
    narrowSat outFmt (v32 (if mean then f32div s (natF32 rows.length) else s))

/-- The output stride o of R320. -/
def poolStride (d : TblDesc) (outFmt : Nat) : Nat := 64 * ceilDiv (d.dim * fmtBytes outFmt) 64

/-- The output bytes of a lookup, one vector per bag, padding 0 (R320). -/
def poolOutput (d : TblDesc) (outFmt : Nat) (vs : List (List Nat)) : List Byte :=
  (vs.map fun v => slice (elemBytes outFmt v) 0 (poolStride d outFmt)).flatten

/-- Pairs one pooling row serves (R324). -/
def lookupVe (B : Nat) (d : TblDesc) : Nat := 8 * ((B - 2048) / max 1 (ceilDiv (tblStride d) 64))

/-- Pooling rows (R324). -/
def lookupPr (B : Nat) (d : TblDesc) (lookups : Nat) : Nat := max 1 (ceilDiv lookups (max 1 (lookupVe B d)))

/-- One gradient entry (R325): size, row, reserved bytes, elements. -/
def gradSize (d : TblDesc) : Nat := 64 + 64 * ceilDiv (4 * d.dim) 64

def gradEntries (d : TblDesc) (rowsIn : Nat) (input : List Byte) : List (List Byte) :=
  (List.range (min rowsIn (input.length / gradSize d))).map fun i => slice input (i * gradSize d) (gradSize d)

def gradElems (d : TblDesc) (e : List Byte) : List Nat := (List.range d.dim).map fun j => leAt e (64 + 4 * j) 4

/-- An entry is skipped (R326). -/
def gradSkip (d : TblDesc) (e : List Byte) : Bool :=
  leAt e 4 60 != 0 || d.rows ≤ leAt e 0 4 || (gradElems d e).any fun w => f32isNan w || f32isInf w

/-- RATE applies no entry (R326): NaN, infinite or negative. -/
def rateBad (rate : Nat) : Bool := f32isNan rate || f32isInf rate || f32lt rate 0

/-- The merged gradient of a row: tree sums over its entries in input order (R327). -/
def mergedGrad (d : TblDesc) (es : List (List Byte)) : List Nat :=
  (List.range d.dim).map fun j => treeSum (es.map fun e => (gradElems d e).getD j 0)

/-- The address of row r's accumulator (R313). -/
def accAddr (d : TblDesc) (r : Nat) : Nat := 0x80 + d.rows * tblStride d + 4 * r

/-- A row of FP32 elements written in ROW_FMT under UPDATE_ROUND (R327, R328, R288); `key` is the pinned stamp. -/
def rowBytes (d : TblDesc) (key r : Nat) (xs : List Nat) : List Byte :=
  let mode (j : Nat) : RMode := if d.round = 2 then .stoch (draw key r j) else .nearest
  if tblBlock d then
    let blocks := (List.range (d.dim / 32)).map fun t =>
      blockForm (d.fmt == 8) (fun i => mode (32 * t + i)) (((xs.drop (32 * t)).take 32).map v32)
    let es := (blocks.map (·.2)).flatten
    let plane := if d.fmt = 8 then
        (List.range (d.dim / 2)).map fun i => BitVec.ofNat 8 (es.getD (2 * i) 0 + 16 * es.getD (2 * i + 1) 0)
      else es.map (BitVec.ofNat 8)
    slice plane 0 (64 * ceilDiv (tblElemBytes d) 64) ++ slice (blocks.map fun p => BitVec.ofNat 8 p.1) 0 (64 * ceilDiv d.dim 2048)
  else
    match fmtOf d.fmt with
    | some f => slice (((List.zip (List.range d.dim) xs).map fun p => toLe (fmtBytes d.fmt) (f.encode (mode p.1) true (v32 p.2))).flatten)
        0 (tblStride d)
    | none => []

/-- The update of one row (R327). -/
def updateRow (d : TblDesc) (key opt rate : Nat) (b : Bytes) (r : Nat) (es : List (List Byte)) : Bytes :=
  let g := mergedGrad d es
  let x := (List.range d.dim).map fun j => r32 (tblElem b d r j)
  if opt = 0 then
    let x' := List.zipWith (fun gj xj => f32fma (f32neg rate) gj xj) g x
    b.writeN (0x80 + r * tblStride d) (rowBytes d key r x')
  else
    let a := f32add (bodyLe b (accAddr d r) 4) (f32div (treeSum (g.map fun v => f32mul v v)) (natF32 d.dim))
    let q := f32div rate (f32add (f32sqrt a) d.eps)
    let x' := List.zipWith (fun gj xj => f32fma (f32neg q) gj xj) g x
    (b.writeN (0x80 + r * tblStride d) (rowBytes d key r x')).writeN (accAddr d r) (toLe 4 a)

/-- The rows an update touches, ascending. -/
def gradRows (es : List (List Byte)) : List Nat := (multiplicities (es.map fun e => leAt e 0 4)).map (·.1)

/-- An EMBED_UPDATE applied to a table's bytes (R326, R327): the bytes, entries applied, entries skipped, rows updated. -/
def applyUpdate (d : TblDesc) (key opt rate rowsIn : Nat) (input : List Byte) (b : Bytes) : Bytes × Nat × Nat × Nat :=
  let es := gradEntries d rowsIn input
  let ok := if rateBad rate then [] else es.filter fun e => !gradSkip d e
  let rows := gradRows ok
  (rows.foldl (fun b r => updateRow d key opt rate b r (ok.filter fun e => leAt e 0 4 == r)) b,
    ok.length, es.length - ok.length, rows.length)

/-- Entries one update row serves (R330). -/
def updateVu (B : Nat) (d : TblDesc) : Nat :=
  8 * ((B - 2048) / (ceilDiv (4 * d.dim) 64 + 2 * ceilDiv (tblStride d) 64 + 16))

/-- The structural fields by which an update is stale (R329). -/
def tblStruct (b : Bytes) : List Nat := let d := tblDesc b; [d.dim, d.fmt, d.rows]

end Sys2Proof.Machine
end

