-- ==== Sys2Proof/Machine/Model.lean ====
section
/-! DEFINITION. The model object, its pattern and the arithmetic of rounds and passes (13_model_serving.md). -/

namespace Sys2Proof.Machine

/-- The checked part of a model object (R333). -/
structure ModelDesc where
  kvFmt : Nat
  tier : Nat
  role : Nat
  outDim : Nat
  context : Nat
  kvBytes : Nat
  kvLayers : Nat
  layers : Nat
  tables : List Nat
  tableCount : Nat
  patOff : Nat
  patLen : Nat
  wOff : Nat
  wLen : Nat
  vocOff : Nat
  vocLen : Nat
  length : Nat
  deriving DecidableEq, Repr

def modelDesc (b : Bytes) : ModelDesc :=
  let d0 := b.le 0x40 4
  let d3 := b.le 0x4C 4
  let n := b.le 0x50 4 % 16
  { kvFmt := bits d0 11 8, tier := bits d0 7 4, role := bits d0 3 0, outDim := b.le 0x44 2, context := b.le 0x48 4,
    kvBytes := bits d3 31 16, kvLayers := bits d3 15 8, layers := bits d3 7 0,
    tables := (List.range (min n 8)).map fun i => b.le (0x54 + 4 * i) 4, tableCount := n,
    patOff := b.le 0x80 8, patLen := b.le 0x88 8, wOff := b.le 0x90 8, wLen := b.le 0x98 8,
    vocOff := b.le 0xA0 8, vocLen := b.le 0xA8 8, length := b.le 0x08 8 }

/-- A period record of a pattern (R336): worst-case stitch times W_u and the per-row peaks c_X,u by class and type. -/
structure PeriodRec where
  period : Nat
  invRows : Nat
  w : List Nat
  cL : List Nat
  cD : List Nat
  cP : List Nat
  passS : Nat
  passB : Nat
  loadNs : Nat
  deriving DecidableEq, Repr

/-- The pattern header and its period records (R336). -/
structure Pattern where
  stepping : Nat
  target : Nat
  format : Nat
  chunk : Nat
  roundRows : Nat
  tier : Nat
  periods : Nat
  invBatch : Nat
  laneBatch : Nat
  itemLen : Nat
  markers : Nat
  t0Fixed : Nat
  t0Scratch : Nat
  recs : List PeriodRec
  deriving DecidableEq, Repr

def dwords (b : Bytes) (a n : Nat) : List Nat := (List.range n).map fun i => b.le (a + 4 * i) 4

def periodRec (b : Bytes) (a : Nat) : PeriodRec :=
  { period := b.le a 4 % 1024, invRows := b.le (a + 4) 4 % 65536, w := dwords b (a + 8) 5,
    cL := dwords b (a + 0x1C) 5, cD := dwords b (a + 0x30) 5, cP := dwords b (a + 0x44) 5,
    passS := b.le (a + 0x58) 4, passB := b.le (a + 0x5C) 4, loadNs := b.le (a + 0x60) 4 }

def pattern (b : Bytes) : Pattern :=
  let o := (modelDesc b).patOff
  let d0 := b.le o 4
  let d1 := b.le (o + 4) 4
  let d2 := b.le (o + 8) 4
  let d3 := b.le (o + 12) 4
  let n := bits d1 3 0
  { stepping := bits d0 31 24, target := bits d0 23 16, format := bits d0 15 0,
    chunk := bits d1 31 16, roundRows := bits d1 15 8, tier := bits d1 7 4, periods := n,
    invBatch := bits d2 31 16, laneBatch := bits d2 15 0, itemLen := bits d3 31 16, markers := bits d3 15 0,
    t0Fixed := b.le (o + 16) 4, t0Scratch := b.le (o + 20) 4,
    recs := (List.range (min n 4)).map fun i => periodRec b (o + 0x40 + 0x80 * i) }

/-- The period record for a row period, if the pattern was compiled for it. -/
def Pattern.rec? (p : Pattern) (us : Nat) : Option PeriodRec := p.recs.find? (·.period == us)

def PeriodRec.zero : PeriodRec := ⟨0, 0, [], [], [], [], 0, 0, 0⟩

/-- Order 1 of R338: ranges, sections and roles. -/
def modelRangeBad (b : Bytes) : Bool :=
  let d := modelDesc b
  let p := pattern b
  let past (o l : Nat) : Bool := l != 0 && 0x40 + d.length < o + l
  3 < d.role || 1 < d.tier || !([0, 1, 2, 3, 4].contains d.kvFmt)
  || (d.role == 0 && (d.outDim < 1 || 1024 < d.outDim)) || (d.role != 0 && d.outDim != 0)
  || (d.role != 2 && (d.context < 1 || 65536 < d.context)) || (d.role == 2 && d.context != 0)
  || 8 < d.tableCount || past d.patOff d.patLen || past d.wOff d.wLen || past d.vocOff d.vocLen
  || d.patOff % 64 != 0 || d.wOff % 64 != 0 || d.vocOff % 64 != 0
  || p.format != 1 || p.periods < 1 || 4 < p.periods
  || (d.role == 3 && (d.kvBytes == 0 || p.roundRows == 0 || p.laneBatch == 0 || 4096 < p.laneBatch
      || p.chunk < 1 || 4096 < p.chunk || p.invBatch != 0))
  || (d.role != 3 && (p.invBatch == 0 || p.recs.any (·.invRows == 0) || p.chunk != 0 || p.roundRows != 0))
  || (d.role == 2 && d.vocLen != 0) || (d.role != 2 && d.vocLen == 0)

/-- Order 2 of R159: compiled for another generation or die stepping (R336: 0x02, 0xB1). -/
def patternTargetBad (b : Bytes) : Bool := let p := pattern b; p.target != 0x02 || p.stepping != 0xB1

/-- Unit types a pattern has stitches of, by its W_u (R354 CORES). -/
def patternTypes (p : Pattern) : List Bool :=
  (List.range 5).map fun u => p.recs.any fun r => r.w.getD u 0 != 0

/-- Rows of an invocation of an encoder, cross-encoder or ranker (R342). -/
def invRows (p : Pattern) (us items : Nat) : Nat :=
  ((p.rec? us).getD .zero).invRows * ceilDiv items (max 1 p.invBatch)

/-- KV pages for a token bound T (R124). -/
def kvPages (d : ModelDesc) (T : Nat) : Nat := d.kvLayers * ceilDiv (T * d.kvBytes) 65536

/-- The first round start of a lane with an origin, no earlier than a row (R344). -/
def roundStart (origin rounds row : Nat) : Nat :=
  let r := max 1 rounds
  if row ≤ origin then origin - (origin - row) / r * r else origin + ceilDiv (row - origin) r * r

/-- Prefill chunks of a prompt (R348). -/
def chunkCount (p : Pattern) (tokens : Nat) : Nat := ceilDiv tokens (max 1 p.chunk)

/-- The bound N of a generation strand admitted in row m that joins in row s (R348). -/
def genRows (p : Pattern) (m s tp maxNew : Nat) : Nat :=
  (s - m) + p.roundRows * (chunkCount p tp + max maxNew 1 - 1)

end Sys2Proof.Machine
end

