-- ==== Sys2Proof/Machine/Cells.lean ====
section
/-! DEFINITION. The instructions of matrix arrays and what they name (R266, R272, R297 to R299, R308 to R310): the types in which a pattern states them. -/

namespace Sys2Proof.Machine

/-- A tile of a weight tensor of a model (R262, R270, R287): its format code of R282, where the tensor's element and scale planes lie in the
model object, the tensor's reduction length, the tile's first reduction position and output column, and the rows and columns it uses. -/
structure TileRef where
  fmt : Nat
  elems : Nat
  scales : Nat
  depth : Nat
  row : Nat
  col : Nat
  rows : Nat
  cols : Nat
  deriving DecidableEq, Repr

/-- Where a drained result goes (R298 to R300, R455). -/
inductive Dest where
  /-- to the strand's T0 scratch, converted -/
  | scratch
  /-- a part of a reduction split over stitches: added to the running sum in ascending part index, unconverted -/
  | part (index : Nat)
  /-- part 0 of a reduction split over modules: it starts the chain -/
  | modules
  deriving DecidableEq, Repr

/-- An array instruction ("Array instructions" of 10_matrix_cores.md). -/
inductive ArrInstr where
  /-- WLOAD: one tile for each array of the stream; an array without one stands idle (R265, R271) -/
  | wload (tiles : List TileRef)
  /-- SWAP, at its planned cycle of the stitch or later (R266, R267) -/
  | swap (cycle : Nat)
  /-- STREAM: a source of activation vectors in T0, in a format (R269) -/
  | stream (fmt source : Nat)
  /-- PAIR: two sources through one tile, or one source through two half tiles (R272) -/
  | pair (sameTile : Bool) (fmt source other : Nat)
  /-- DRAIN: output format, rounding mode of R301, saturation, row statistics (R308, R309), the width of the stitch's output tensor and the
  column at which these results begin (R306), and where they go -/
  | drain (fmt mode : Nat) (saturate stats : Bool) (width col : Nat) (dest : Dest)
  deriving DecidableEq, Repr

end Sys2Proof.Machine
end

