-- ==== Sys2Proof/Config.lean ====
section
/-! DEFINITION. What the spec leaves open: uninterpreted constants. Nothing in Lean can evaluate one or prove a value of it. -/

namespace Sys2Proof.Config

/-- The array instructions of a stitch of a model: the model's object bytes; its place in its pass or round, its kind, unit type, number and
instruction stream (the pattern section's contents are kpc's own, R333, R336: log 8). -/
opaque arrayProgram : List (Nat × Byte) → List Nat → List Machine.ArrInstr

/-- The activation vectors that a source of an array instruction gives for one member, as element words: the model's object bytes, those of its
tables, what names the stitch and the source, the member's input, and its T0 scratch (log 8). -/
opaque activations : List (Nat × Byte) → List (List (Nat × Byte)) → List Nat → List Nat → List (List Nat) → List (List Nat)

/-- Element of the vector an encoder gives: the model's object bytes, those of its tables, the tokens, the results of its matrix stitches, the
element number; an FP32 pattern (R342 gives the pass its rows, no rule says how the pattern composes the results: log 8). -/
opaque encoderElem : List (Nat × Byte) → List (List (Nat × Byte)) → List Nat → List (List Nat) → Nat → Nat

/-- FP32 score of a cross-encoder for a query and a passage, as tokens, with the results of its matrix stitches (log 8). -/
opaque pairScore : List (Nat × Byte) → List (List (Nat × Byte)) → List Nat → List Nat → List (List Nat) → Nat

/-- Score that a ranker gives an item of input bytes from its tables and the results of its matrix stitches; an FP32 pattern (log 8). -/
opaque itemScore : List (Nat × Byte) → List (List (Nat × Byte)) → List Byte → List (List Nat) → Nat

/-- FP32 logit of a token after a list of tokens: tables, strand key (R170) and the results of the strand's matrix stitches (log 8). -/
opaque logit : List (Nat × Byte) → List (List (Nat × Byte)) → Nat → List Nat → List (List Nat) → Nat → Nat

/-- The part that a module of a cascade adds to a reduction split over modules: its index and the strand's command as dwords; no word for a
module that takes no part, and whether it accumulates in INT32 (R298, R455: what a pattern splits so is kpc's own; log 8). -/
opaque modulePart : Nat → List Nat → List Nat
opaque partInteger : List Nat → Bool

/-- The neighbours a merge or build gives a node: the number of the node in the result, the level (0: the graph's own), the
passage IDs of the result in order (log 9). -/
opaque neighbours : List Nat → Nat → Nat → List Nat

/-- The shard a merge or build places a passage in (log 9). -/
opaque shardOf : List Nat → Nat → Nat

/-- Columns of one part of a decoder's output head, which its pattern fixes; 0 stands for a head of one part (R310, R388: log 8). -/
opaque headPart : List (Nat × Byte) → Nat

/-- KiB of the slice that a stitch of a model reads from the needle bed, by its place in its pass or round, its kind, unit type and number
(R188, R341: log 25). -/
opaque sliceKib : List (Nat × Byte) → List Nat → Nat

/-- The index that a RETRIEVE_GENERATE command searches: its owner and its entry as dwords (log 18). -/
opaque retrieveIndex : Nat → List Nat → Nat

/-- Bytes of a digest, signature or certificate: what is signed or hashed, by kind and data (log 10). -/
opaque cipherByte : Nat → List Byte → Nat → Byte

/-- A signature over the data verifies under the module's key (log 10). -/
opaque verifies : List Byte → Bool

/-- A module's own forwarding delay of a row marker, ns (R440: its value is not stated; log 4). -/
opaque forwardDelay : Nat

/-- Where in a unit a line lies: the fields of its location below KIND, by page and line (R464: log 26). -/
opaque lineLocation : Nat → Nat → Nat

/-- What a decoder answers for more than four symbol errors: none for a detected line, or the number of symbols it changes
(R198: log 11). -/
opaque decodeBeyond : List (Nat × Nat) → Option Nat

/-- Stored 64-byte lines of a page, by its bytes; the model bounds it to 1 to 64 (R184: log 19). -/
opaque storedLines : List Nat → Nat

/-- Class L cycles on search cores that the built-in search patterns state: descriptor fields and command fields; the model bounds
it by the stitch window (R228: log 21). -/
opaque searchPeak : List Nat → Nat

/-- Spare capacity that retired rows, pages or blocks of a page take: MiB, or the per mille left of flash spare blocks, by page and
number retired (R205, R207 give no size of a row, page or block). -/
opaque spareUse : Nat → Nat → Nat

/-- Feature bits that the firmware of a package header supports (R529: the header has no field for them). -/
opaque firmwareFeatures : List Byte → Nat

/-- The pages of an HBM4 stack that hold KV pages: how the other content of T1 lies over the stacks is not given (R349; log 71). -/
opaque kvStackPages : Nat → Nat

/-- Which of its layers that keep K and V a layer of a decoder is, when not all of them do (R124, R349; log 71). -/
opaque kvLayer : List (Nat × Byte) → Nat → Option Nat

/-- A free value by position (log 4). -/
opaque freeValue : Nat → Nat

end Sys2Proof.Config
end

