-- ==== Sys2Proof/Machine/Matrix.lean ====
section
/-! DEFINITION. Matrix cores and arrays: the cells, the array instructions and the stitch time (10_matrix_cores.md). -/

namespace Sys2Proof.Machine

/-- The load length L for registers of 1, 2 or 4 bytes (R265). -/
def loadLen (bcore : Bool) (regBytes : Nat) : Nat := (if bcore then 16 else 128) * regBytes

/-- Cycles per activation vector r from the element bits of weights and activations (R269). -/
def cyclesPerVec (wbits abits : Nat) : Nat :=
  if 16 < wbits || 16 < abits then 8 else if 8 < wbits || 8 < abits then 2 else 1

/-- The gap g of a B-core (R269). -/
def tileGap (bcore : Bool) (mr : Nat) : Nat := if bcore && mr < 64 then 2 else 0

/-- The tile period T (R269). -/
def tilePeriod (bcore : Bool) (m r l : Nat) : Nat := max (m * r) l + tileGap bcore (m * r)

/-- The tile period of a packed pair that shares a weight tile (R272). -/
def pairPeriod (m1 m2 r l : Nat) : Nat := max (m1 * r + m2 * r + 8) l

/-- The tile period of a packed pair that shares its activations (R272). -/
def pairPeriodN (m r l : Nat) : Nat := max (m * r + 8) l

/-- Columns of a tile: 256 for 4-bit weights, 128 otherwise (R262). -/
def tileCols (wbits : Nat) : Nat := if wbits ≤ 4 then 256 else 128

/-- Tiles of an instruction of shape M x N x K (R269, R270). -/
def tileCount (wbits n k : Nat) : Nat := ceilDiv n (tileCols wbits) * ceilDiv k 128

/-- The worst-case stitch time W of R273: foreground load, tile periods of the array that finishes last, drain 160, crossings X. -/
def stitchTime (l : Nat) (periods : List Nat) (x : Nat) : Nat := l + sumNat periods + 160 + x

/-- Useful array-cycles of one vector, r * f, with f as a ratio of the cells used (R269, R280). -/
def usefulCycles (m r k n ntile : Nat) : Nat := m * r * (min k 128 * n) / (128 * ntile)

/-! The registers of an array (R262 to R268) -/

/-- What the stationary registers of an array hold, front or back: one weight a cell, or two of adjacent columns, in `cols` columns of 128 rows,
and the block scales of each column (R262, R264). Rows and columns beyond those used hold zero weights and stand idle (R270). -/
structure Tile where
  fmt : Nat
  rows : Nat
  cols : Nat
  cells : List (List Nat)
  scales : List (List Nat)
  deriving DecidableEq, Repr

/-- An array: its front and back registers, the load in progress, and the accumulator bank: for each activation vector, for each column, the
pending node of each level above a tile (R262, R263, R267, R297). After a cut its contents are undefined (R268): the free value then stands
for them. -/
structure Arr where
  front : Tile
  back : Tile
  loading : Bool
  bank : List (List (List (Option Nat)))
  int : Bool
  undefined : Option Nat
  deriving DecidableEq, Repr

def Tile.none : Tile := ⟨0, 0, 0, [], []⟩
def Arr.fresh : Arr := ⟨Tile.none, Tile.none, false, [], false, Option.none⟩

/-- An element word of a weight tensor: reduction position k of output column n (R285, R287). A tensor that is not in a block format lies in
the same order, columns of `depth` elements (log 75). -/
def weightWord (b : Bytes) (t : TileRef) (bits k n : Nat) : Nat :=
  let i := n * t.depth + k
  if bits = 4 then (b.read (t.elems + i / 2)).toNat / 16 ^ (i % 2) % 16 else b.le (t.elems + i * (bits / 8)) (bits / 8)

/-- The scale byte of a block of 32 reduction positions of a column (R287). -/
def weightScale (b : Bytes) (t : TileRef) (k n : Nat) : Nat := (b.read (t.scales + n * (t.depth / 32) + k / 32)).toNat

/-- A whole tile as a load writes it: 128 rows with zeros in those unused, four scales a column for a block format (R264, R265, R270). -/
def loadTile (b : Bytes) (t : TileRef) : Tile :=
  let bits := match formatOf t.fmt with | some f => f.bits | none => 0
  let rows := min 128 t.rows
  let cols := min t.cols (tileCols bits)
  { fmt := t.fmt, rows := rows, cols := cols
    cells := (List.range cols).map fun j => (List.range 128).map fun i => if i < rows then weightWord b t bits (t.row + i) (t.col + j) else 0
    scales := if t.fmt = 7 || t.fmt = 8 then
        (List.range cols).map fun j => (List.range 4).map fun i => if 32 * i < rows then weightScale b t (t.row + 32 * i) (t.col + j) else 0
      else [] }

/-- The output of a column for one activation vector: the products of the rows in use summed in the column's tree (R263, R295, R297). -/
def columnSum (t : Tile) (wf af : Format) (j : Nat) (vec : List Nat) : Nat :=
  let col := t.cells.getD j []
  let sc := t.scales.getD j []
  treeSumAcc (wf.isInt && af.isInt) ((List.range t.rows).map fun i => accProduct wf af (sc.getD (i / 32) 0) (col.getD i 0) (vec.getD i 0))

/-- A tile sum added to the pending nodes of an accumulator: nodes of one level pair in tile order (R297). -/
def pushNode (int : Bool) (s : Nat) : List (Option Nat) → List (Option Nat)
  | [] => [some s]
  | none :: l => some s :: l
  | some a :: l => none :: pushNode int (accAdd int a s) l

/-- The sum that the pending nodes stand for: an absent partner passes a node up unchanged (R296, R297). -/
def drainNodes (int : Bool) (l : List (Option Nat)) : Nat :=
  (l.foldl (fun (acc : Option Nat) x => match x, acc with
    | some a, some b => some (accAdd int a b)
    | some a, none => some a
    | none, acc => acc) none).getD 0

/-- A row of outputs added to the bank's row; a row not there yet begins. -/
def bankRow (int : Bool) (row : List (List (Option Nat))) (outs : List Nat) : List (List (Option Nat)) :=
  outs.zipIdx.map fun p => pushNode int p.1 (row.getD p.2 [])

/-- Activation vectors stream through the front weights, from a row of the bank on (R263, R269, R272). -/
def Arr.stream (a : Arr) (af : Format) (from_ : Nat) (vecs : List (List Nat)) : Arr :=
  match formatOf a.front.fmt with
  | none => a
  | some wf =>
    let int := wf.isInt && af.isInt
    let outs := vecs.map fun v => (List.range a.front.cols).map fun j => columnSum a.front wf af j v
    let rows := (List.range (max a.bank.length (from_ + vecs.length))).map fun i =>
      if i < from_ || from_ + vecs.length ≤ i then a.bank.getD i [] else bankRow int (a.bank.getD i []) (outs.getD (i - from_) [])
    { a with bank := rows, int := int }

/-- One results row of the bank, in the accumulator format. -/
def Arr.drained (a : Arr) (i : Nat) : List Nat := (a.bank.getD i []).map (drainNodes a.int)

/-! A stitch on the arrays of a core -/

/-- A result drained for a member: where it goes, whether the bank accumulated in INT32, and its words. -/
structure Drained where
  dest : Dest
  member : Nat
  int : Bool
  words : List Nat
  deriving DecidableEq, Repr

/-- What the arrays of one instruction stream have done so far: the arrays, the stitch's cycle, the cycle at which the present load completes,
the counts of R279, and the members whose vectors the rows of the bank are. -/
structure ArrRun where
  arrs : List Arr
  now : Nat
  ready : Nat
  wait : Nat
  tiles : Nat
  pairs : Nat
  useful : Nat
  streamed : Nat
  owners : List Nat
  outs : List Drained
  deriving DecidableEq, Repr

/-- Cycles per activation vector on the front weights of an array (R269). -/
def Arr.perVec (a : Arr) (af : Format) : Nat := cyclesPerVec ((formatOf a.front.fmt).elim 0 Format.bits) af.bits

/-- A load issues when the one before it has completed, and takes L (R265, R267). -/
def ArrRun.load (r : ArrRun) (bcore : Bool) (b : Bytes) (tiles : List TileRef) : ArrRun :=
  let start := max r.now r.ready
  let bytes := maxNat (tiles.map fun t => match formatOf t.fmt with | some f => ceilDiv f.bits 8 | none => 0)
  { r with now := start, ready := start + loadLen bcore bytes, tiles := r.tiles + min tiles.length r.arrs.length
           arrs := r.arrs.zipIdx.map fun p => match tiles[p.2]? with
             | some t => { p.1 with back := loadTile b t, loading := true }
             | none => { p.1 with back := Tile.none, loading := false } }

/-- A SWAP waits for the load in progress; then front and back change places in every array of the stream (R266, R267). -/
def ArrRun.swap (r : ArrRun) (cycle : Nat) : ArrRun :=
  let at_ := max r.now cycle
  { r with now := max at_ r.ready, wait := r.wait + (r.ready - at_)
           arrs := r.arrs.map fun a => { a with front := a.back, back := a.front, loading := false } }

/-- Vectors of the members stream through every array of the stream that holds a tile (R269, R271, R280). -/
def ArrRun.stream (r : ArrRun) (bcore : Bool) (af : Format) (from_ : Nat) (vecs : List (Nat × List Nat)) : ArrRun :=
  let m := vecs.length
  let busy := r.arrs.filter fun a => a.front.cols != 0
  let cyc := maxNat (busy.map fun a => m * a.perVec af)
  { r with now := r.now + cyc + tileGap bcore cyc
           arrs := r.arrs.map fun a => if a.front.cols = 0 then a else a.stream af from_ (vecs.map (·.2))
           useful := r.useful + sumNat (busy.map fun a =>
             usefulCycles m (a.perVec af) a.front.rows a.front.cols (tileCols ((formatOf a.front.fmt).elim 0 Format.bits)))
           streamed := r.streamed + sumNat (busy.map fun a => m * a.perVec af)
           owners := r.owners.take from_ ++ vecs.map (·.1) }

/-- The results of one member's rows: in the accumulator format, or converted with its strand key and stitch index, row statistics beside them
(R288, R301 to R310). -/
def drainRows (fmt mode : Nat) (saturate stats : Bool) (width col key index : Nat) (raw int : Bool) (rows : List (List Nat)) : List Nat :=
  let val (w : Nat) : FVal := if int then (let i := intValue 32 w; .fin (i < 0) i.natAbs 0) else v32 w
  let rm (i j : Nat) : RMode := match mode with | 1 => .zero | 2 => .stoch (draw key index (i * width + col + j)) | _ => .nearest
  let one (p : List Nat × Nat) : List Nat :=
    if raw then p.1
    else
      let conv := match formatOf fmt with
        | some (.block hb4) => ((chunks 32 p.1).zipIdx.map fun c =>
            let r := blockForm hb4 (fun j => rm p.2 (32 * c.2 + j)) (c.1.map val); r.2 ++ [r.1]).flatten
        | some f => p.1.zipIdx.map fun w => f.narrow (rm p.2 w.2) saturate (val w.1)
        | none => []
      conv ++ (if stats then let s := rowStat (p.1.map fun w => r32 (val w)); [s.1, s.2] else [])
  (rows.zipIdx.map one).flatten

/-- DRAIN: the bank passes through the output unit and is empty (R273, R297). -/
def ArrRun.drain (r : ArrRun) (fmt mode : Nat) (saturate stats : Bool) (width col : Nat) (dest : Dest) (keys : List (Nat × Nat × Nat)) : ArrRun :=
  let int := r.arrs.any (·.int)
  let row (i : Nat) : List Nat := (r.arrs.map fun a => a.drained i).flatten
  let of (id : Nat) : List (List Nat) := (r.owners.zipIdx.filter fun p => p.1 == id).map fun p => row p.2
  let outs := keys.map fun k => Drained.mk dest k.1 int (drainRows fmt mode saturate stats width col k.2.1 k.2.2 (dest != .scratch) int (of k.1))
  { r with now := r.now + 160, owners := [], outs := r.outs ++ outs, arrs := r.arrs.map fun a => { a with bank := [] } }

/-- One instruction of a stream. `src` gives each member's vectors of a source, `keys` each member's strand key and stitch index. -/
def ArrRun.step (bcore : Bool) (b : Bytes) (src : Nat → List (Nat × List Nat)) (keys : List (Nat × Nat × Nat)) (r : ArrRun) (i : ArrInstr) : ArrRun :=
  match i with
  | .wload tiles => r.load bcore b tiles
  | .swap cycle => r.swap cycle
  | .stream fmt source => match formatOf fmt with
    | some f => r.stream bcore f 0 (src source)
    | none => r
  | .pair same fmt source other => match formatOf fmt with
    | none => r
    | some f =>
      let one := r.stream bcore f 0 (src source)
      let two := if same then one.stream bcore f (src source).length (src other) else one
      { two with now := two.now + 8, pairs := two.pairs + b2n (!bcore) }
  | .drain fmt mode sat stats width col dest => r.drain fmt mode sat stats width col dest keys

/-- A stream's instructions run from a start with nothing but the stitch's inputs (R268). -/
def runArrays (bcore : Bool) (b : Bytes) (src : Nat → List (Nat × List Nat)) (keys : List (Nat × Nat × Nat)) (prog : List ArrInstr) : ArrRun :=
  prog.foldl (ArrRun.step bcore b src keys) ⟨List.replicate (if bcore then 4 else 1) Arr.fresh, 0, 0, 0, 0, 0, 0, 0, [], []⟩

/-- The efficiency E of a shape as a ratio (R269). -/
def efficiency (bcore : Bool) (m r k n ntile l : Nat) : Nat × Nat := (m * r * (min k 128 * n), tilePeriod bcore m r l * (128 * ntile))

end Sys2Proof.Machine
end

