-- ==== Sys2Proof/Machine/RegMap.lean ====
section
/-! DEFINITION. The register map: every register of every page with its access code, reset value, survival class, shadow flag and
writable bits, written from the register tables of the chapters (R6, R10, R12, R58 to R61). -/

namespace Sys2Proof.Machine

/-- Access codes of R6; w1c and w1s registers may also hold read-only fields. -/
inductive Acc where
  | ro | rw | rc | w1c | w1s
  deriving DecidableEq, Repr

/-- Survival classes of R12. -/
inductive Surv where
  | n | b | w | c | k | f
  deriving DecidableEq, Repr

/-- One register, or a run of n registers stride bytes apart. -/
structure RegDesc where
  off : Nat
  n : Nat
  stride : Nat
  name : String
  acc : Acc
  reset : Nat
  surv : Surv
  /-- configuration-class (R65) -/
  shadow : Bool
  /-- bits a write stores; the rest are reserved (R10) or the module's -/
  wmask : Nat
  /-- bits a write of 1 clears -/
  c1 : Nat
  /-- bits a write of 1 sets or triggers -/
  s1 : Nat
  deriving DecidableEq, Repr

/-- An RC counter. -/
def cnt (off : Nat) (name : String) (s : Surv) : RegDesc := ⟨off, 1, 4, name, .rc, 0, s, false, 0, 0, 0⟩

/-- A read-only register. -/
def stat (off : Nat) (name : String) (reset : Nat) (s : Surv) : RegDesc := ⟨off, 1, 4, name, .ro, reset, s, false, 0, 0, 0⟩

/-- Registers of header pages (R61). -/
def headerRegs : List RegDesc :=
  [stat 0x000 "PG_ID" 0x0 .f,
   stat 0x004 "PG_CAP" 0x0 .f,
   ⟨0x008, 1, 4, "PG_CTRL", .rw, 0x0, .k, true, 0xFF01, 0x0, 0x0⟩,
   ⟨0x00C, 1, 4, "PG_STAT", .w1c, 0x0, .n, false, 0x0, 0x2, 0x0⟩,
   stat 0x010 "PG_REASON" 0x0 .w,
   stat 0x014 "PG_SWATCH_LO" 0x0 .k,
   stat 0x018 "PG_SWATCH_HI" 0x0 .k,
   stat 0x01C "PG_EPOCH" 0x0 .k,
   ⟨0x020, 1, 4, "PG_ERR_STAT", .w1c, 0x0, .k, false, 0x0, 0xFFF, 0x0⟩,
   ⟨0x024, 1, 4, "PG_ERR_MASK", .rw, 0x0, .k, false, 0xFFF, 0x0, 0x0⟩,
   stat 0x028 "PG_ERR_FIRST" 0x0 .k,
   cnt 0x02C "PG_ERR_CORR" .k,
   cnt 0x030 "PG_ERR_UNCORR" .k,
   stat 0x034 "PG_PROBE_RESULT" 0x0 .k,
   stat 0x038 "PG_ERR_LOC_LO" 0x0 .k,
   stat 0x03C "PG_ERR_LOC_HI" 0x0 .k]

/-- Registers of device pages (R81). -/
def deviceRegs : List RegDesc :=
  [⟨0x100, 1, 4, "DEV_PUB_CMD", .w1s, 0x0, .n, false, 0x0, 0x0, 0x1⟩,
   ⟨0x104, 1, 4, "DEV_PUB_STAT", .w1c, 0x0, .n, false, 0x0, 0xA, 0x0⟩,
   stat 0x108 "DEV_PUB_REASON" 0x0 .w,
   stat 0x10C "DEV_PUB_SLOT" 0x0 .w,
   stat 0x110 "DEV_PUB_COUNT_LO" 0x0 .k,
   stat 0x114 "DEV_PUB_COUNT_HI" 0x0 .k,
   stat 0x118 "DEV_PUB_ROW_LO" 0x0 .w,
   stat 0x11C "DEV_PUB_ROW_HI" 0x0 .w,
   stat 0x120 "DEV_SWATCH_LO" 0x0 .k,
   stat 0x124 "DEV_SWATCH_HI" 0x0 .k,
   stat 0x128 "DEV_PAGES_USED" 0x147 .f]

/-- Registers of rowTimer pages (R55). -/
def rowTimerRegs : List RegDesc :=
  [cnt 0x040 "DROP_T1_LATE" .k,
   cnt 0x044 "DROP_T2_LATE" .k,
   cnt 0x048 "DROP_T3_LATE" .k,
   cnt 0x04C "DROP_TIER_ERR" .k,
   cnt 0x050 "DROP_NEEDLE_LATE" .k,
   cnt 0x054 "DROP_FAULT" .k,
   cnt 0x058 "DROP_LINK_LATE" .k,
   cnt 0x05C "DROP_MARKER_LATE" .k,
   cnt 0x060 "DROP_OVERRUN" .k,
   cnt 0x064 "STALLED" .k,
   cnt 0x068 "PLAN_MISS" .k,
   cnt 0x06C "RUNON_ROWS" .k,
   cnt 0x070 "SYNC_ACCEPTED" .k,
   cnt 0x074 "SYNC_BAD_EDGE" .k,
   cnt 0x078 "SYNC_MISSING" .k,
   cnt 0x07C "SYNC_LOST" .k] ++
  [⟨0x100, 1, 4, "RT_PERIOD", .rw, 0xFA, .k, true, 0x3FF, 0x0, 0x0⟩,
   stat 0x104 "RT_PERIOD_ACTIVE" 0xFA .w,
   stat 0x108 "RT_BUDGET" 0x5A1CD .w,
   ⟨0x10C, 1, 4, "RT_SYNC_CTRL", .rw, 0x10800, .k, true, 0x1FF03, 0x0, 0x0⟩,
   ⟨0x110, 1, 4, "RT_SYNC_CMD", .w1s, 0x0, .n, false, 0x0, 0x0, 0x1⟩,
   ⟨0x114, 1, 4, "RT_SYNC_STAT", .w1c, 0x0, .w, false, 0x0, 0x300, 0x0⟩,
   stat 0x118 "RT_SYNC_OFFSET" 0x0 .n,
   stat 0x11C "RT_SYNC_CORR" 0x0 .n,
   ⟨0x120, 1, 4, "RT_DROP_LIMIT", .rw, 0x10, .k, true, 0xFF, 0x0, 0x0⟩,
   stat 0x124 "RT_RUNON" 0x0 .n,
   stat 0x128 "RT_ROW_COUNT_LO" 0x0 .w,
   stat 0x12C "RT_ROW_COUNT_HI" 0x0 .w]

/-- Registers of controlGroup pages (R510). -/
def controlGroupRegs : List RegDesc :=
  [cnt 0x040 "CG_PLANS" .k,
   cnt 0x044 "CG_PLAN_LATE" .k,
   cnt 0x048 "CG_RESTARTS" .k,
   stat 0x100 "CG_CORES" 0x40F .b,
   stat 0x104 "CG_FW_VER" 0x0 .b,
   stat 0x108 "CG_LOAD" 0x0 .n]

/-- Registers of admission pages (R141). -/
def admissionRegs : List RegDesc :=
  [cnt 0x040 "ADM_ADMITTED" .k,
   cnt 0x044 "ADM_REFUSED" .k,
   cnt 0x048 "ADM_REF_ROW" .k,
   cnt 0x04C "ADM_REF_MEM" .k,
   cnt 0x050 "ADM_REF_SLOTS" .k,
   cnt 0x054 "ADM_REF_STRANDS" .k,
   cnt 0x058 "ADM_REF_QUOTA" .k,
   cnt 0x05C "ADM_REF_OTHER" .k,
   cnt 0x060 "ADM_COMPLETED" .k,
   cnt 0x064 "ADM_ABORTED" .k,
   cnt 0x068 "ADM_LATE_CONTEXT" .k,
   cnt 0x06C "ADM_HELD_ROWS" .k,
   cnt 0x070 "ADM_DEFERRED" .k,
   ⟨0x100, 1, 4, "ADM_SHARES", .rw, 0x1040, .k, true, 0xFFFF, 0x0, 0x0⟩,
   stat 0x104 "ADM_LIMITS" 0x10000200 .f,
   stat 0x108 "ADM_INFLIGHT" 0x0 .b] ++
  [⟨0x10C, 1, 4, "ADM_VIEW_SEL", .rw, 0x0, .n, false, 0x1F01F7, 0x0, 0x0⟩,
   stat 0x110 "ADM_VIEW_CAP" 0x0 .b,
   stat 0x114 "ADM_VIEW_WMAX" 0x0 .b,
   stat 0x118 "ADM_VIEW_RES_L" 0x0 .b,
   stat 0x11C "ADM_VIEW_RES_D" 0x0 .b,
   stat 0x120 "ADM_VIEW_RES_P" 0x0 .b,
   stat 0x124 "ADM_VIEW_UNITS" 0x0 .b,
   stat 0x128 "ADM_T0_POOL" 0x0 .b,
   stat 0x12C "ADM_T0_RES" 0x0 .b,
   stat 0x130 "ADM_KV_POOL" 0x0 .b,
   stat 0x134 "ADM_KV_RES" 0x0 .b,
   stat 0x138 "ADM_T2_POOL" 0x0 .b,
   stat 0x13C "ADM_T2_RES" 0x0 .b,
   stat 0x140 "ADM_SLOTS" 0x0 .b,
   stat 0x144 "ADM_MARKERS" 0x0 .b]

/-- Registers of faultLog pages (R481). -/
def faultLogRegs : List RegDesc :=
  [cnt 0x040 "FL_CORR" .k,
   cnt 0x044 "FL_UNCORR" .k,
   cnt 0x048 "FL_LOGIC" .k,
   cnt 0x04C "FL_LINK" .k,
   cnt 0x050 "FL_PROBES" .k,
   cnt 0x054 "FL_TRANSIENT" .k,
   cnt 0x058 "FL_LASTING" .k,
   cnt 0x05C "FL_STANDINS" .k,
   cnt 0x060 "FL_TAKEOVERS" .k,
   cnt 0x064 "FL_NO_SPARE" .k,
   cnt 0x068 "FL_RETIRED" .k,
   cnt 0x06C "FL_REPEAT_FAILS" .k,
   cnt 0x070 "FL_OVERRUN" .k,
   cnt 0x074 "FL_RUNON_EXPIRY" .k,
   cnt 0x078 "FL_FW_RESTARTS" .k,
   cnt 0x07C "FL_OVERWRITTEN" .k] ++
  [⟨0x100, 1, 4, "FL_REPEAT", .rw, 0x30018, .k, true, 0xFFFFFF, 0x0, 0x0⟩,
   ⟨0x104, 1, 4, "FL_ALERT", .rw, 0xE02, .k, false, 0xFFF, 0x0, 0x0⟩,
   stat 0x108 "FL_SEQ" 0x0 .k,
   ⟨0x10C, 1, 4, "FL_SEL", .rw, 0x0, .n, false, 0xFFFFFFFF, 0x0, 0x0⟩,
   ⟨0x110, 8, 4, "FL_REC0", .ro, 0x0, .n, false, 0x0, 0x0, 0x0⟩,
   stat 0x130 "FL_SPARES" 0x6020211 .n,
   stat 0x134 "FL_CTRL_CORES" 0xFFFF .n,
   ⟨0x138, 1, 4, "FL_CMD", .w1s, 0x0, .n, false, 0x0, 0x0, 0x1⟩,
   ⟨0x13C, 1, 4, "FL_PROBE_SEL", .rw, 0x0, .n, false, 0xFFF, 0x0, 0x0⟩]

/-- Registers of power pages (R505). -/
def powerRegs : List RegDesc :=
  [cnt 0x040 "PW_SAGS" .k,
   cnt 0x044 "PW_GLITCHES" .k,
   cnt 0x048 "PW_FEED_A_LOW" .k,
   cnt 0x04C "PW_FEED_B_LOW" .k,
   cnt 0x050 "PW_SAVES" .k,
   cnt 0x054 "PW_SAVES_BAD" .k,
   cnt 0x058 "PW_RESTORES" .k,
   cnt 0x05C "PW_WARM" .k,
   cnt 0x060 "PW_COLD" .k,
   cnt 0x064 "PW_BANK_CHECKS" .k,
   cnt 0x068 "PW_L2_ENTRIES" .k,
   cnt 0x06C "PW_L0I_ROWS" .k,
   ⟨0x100, 1, 4, "PW_STATE", .w1c, 0x0, .n, false, 0x0, 0x4000000, 0x0⟩,
   ⟨0x104, 1, 4, "PW_CTRL", .rw, 0x0, .w, false, 0x1, 0x0, 0x0⟩,
   stat 0x108 "PW_FEED_A" 0x0 .n,
   stat 0x10C "PW_FEED_B" 0x0 .n] ++
  [stat 0x110 "PW_INPUT" 0x0 .n,
   stat 0x114 "PW_BANK_V" 0x0 .n,
   stat 0x118 "PW_BANK_C" 0x0 .k,
   ⟨0x11C, 1, 4, "PW_BANK_CFG", .rw, 0x181194, .k, true, 0xFFFFFFFF, 0x0, 0x0⟩,
   stat 0x120 "PW_SAG_LIMITS" 0x10680014 .f,
   stat 0x124 "PW_LAST_RESET" 0x0 .k,
   stat 0x128 "PW_SAVE_STAT" 0x0 .k,
   stat 0x12C "PW_SAVE_ROW_LO" 0x0 .k,
   stat 0x130 "PW_SAVE_ROW_HI" 0x0 .k,
   stat 0x134 "PW_RESTORE" 0x0 .n,
   stat 0x138 "PW_LOST" 0x0 .w,
   ⟨0x13C, 1, 4, "PW_CMD", .w1s, 0x0, .n, false, 0x0, 0x0, 0x3⟩]

/-- Registers of security pages (R558). -/
def securityRegs : List RegDesc :=
  [cnt 0x040 "SEC_SPDM_REQ" .k,
   cnt 0x044 "SEC_SPDM_ERR" .k,
   cnt 0x048 "SEC_LOCK_REFUSED" .k,
   cnt 0x04C "SEC_MEAS_CHANGES" .k,
   stat 0x100 "SEC_STATE" 0x0 .n,
   ⟨0x104, 1, 4, "SEC_LOCK", .w1s, 0x0, .w, false, 0x0, 0x0, 0x3F⟩,
   stat 0x108 "SEC_REVISION" 0x4300B1A2 .f]

/-- Registers of management pages (R557). -/
def managementRegs : List RegDesc :=
  [cnt 0x040 "MG_MCTP_RX" .k,
   cnt 0x044 "MG_MCTP_TX" .k,
   cnt 0x048 "MG_PLDM_REQ" .k,
   cnt 0x04C "MG_THERM_WARN" .k,
   cnt 0x050 "MG_STRAP_CHANGED" .k,
   stat 0x100 "MG_STRAPS" 0x0 .f,
   stat 0x104 "MG_MCTP" 0x0 .w,
   stat 0x108 "MG_TEMP0" 0x0 .n,
   stat 0x10C "MG_TEMP1" 0x0 .n,
   stat 0x110 "MG_TEMP2" 0x0 .n,
   stat 0x114 "MG_THERM" 0x0 .k,
   ⟨0x118, 1, 4, "MG_SSC", .rw, 0xAA, .c, false, 0xF, 0x0, 0x0⟩,
   stat 0x11C "MG_ALERT" 0x0 .n,
   stat 0x120 "MG_TRIP_ROW_LO" 0x0 .k,
   stat 0x124 "MG_TRIP_ROW_HI" 0x0 .k]

/-- Registers of firmware pages (R530). -/
def firmwareRegs : List RegDesc :=
  [cnt 0x040 "FW_HEADERS" .k,
   cnt 0x044 "FW_REFUSED" .k,
   cnt 0x048 "FW_ACTIVATIONS" .k,
   cnt 0x04C "FW_ROLLBACKS" .k,
   cnt 0x050 "FW_REVERTS" .k,
   cnt 0x054 "FW_PARTS_SKIPPED" .k,
   stat 0x100 "FW_STATE" 0x0 .n,
   stat 0x104 "FW_REASON" 0x0 .w,
   stat 0x108 "FW_SEC_FLOOR" 0x0 .f,
   stat 0x10C "FW_SEED" 0x0 .c,
   ⟨0x110, 7, 4, "FW_VER_1", .ro, 0x0, .b, false, 0x0, 0x0, 0x0⟩,
   ⟨0x12C, 7, 4, "FW_PREV_1", .ro, 0x0, .b, false, 0x0, 0x0, 0x0⟩,
   stat 0x148 "FW_LAST_ROW_LO" 0x0 .k,
   stat 0x14C "FW_LAST_ROW_HI" 0x0 .k,
   stat 0x150 "FW_RUNON_US" 0x0 .k]

/-- Registers of endpoint pages (R112). -/
def endpointRegs : List RegDesc :=
  [cnt 0x040 "PCIE_CORR" .k,
   cnt 0x044 "PCIE_NONFATAL" .k,
   cnt 0x048 "PCIE_FATAL" .k,
   cnt 0x04C "PCIE_REPLAY" .k,
   cnt 0x050 "PCIE_RETRAIN" .k,
   cnt 0x054 "PCIE_POISON_RX" .k,
   stat 0x100 "PCIE_LINK" 0x0 .n,
   stat 0x104 "PCIE_VF" 0x0 .n,
   ⟨0x108, 1, 4, "ADM_SQ_BASE_LO", .rw, 0x0, .w, false, 0xFFFFF000, 0x0, 0x0⟩,
   ⟨0x10C, 1, 4, "ADM_SQ_BASE_HI", .rw, 0x0, .w, false, 0xFFFFFFFF, 0x0, 0x0⟩,
   ⟨0x110, 1, 4, "ADM_CQ_BASE_LO", .rw, 0x0, .w, false, 0xFFFFF000, 0x0, 0x0⟩,
   ⟨0x114, 1, 4, "ADM_CQ_BASE_HI", .rw, 0x0, .w, false, 0xFFFFFFFF, 0x0, 0x0⟩,
   ⟨0x118, 1, 4, "ADM_SIZE", .rw, 0x0, .w, false, 0xFFFFFFFF, 0x0, 0x0⟩,
   ⟨0x11C, 1, 4, "ADM_CTRL", .rw, 0x0, .w, false, 0x1, 0x0, 0x0⟩,
   ⟨0x120, 1, 4, "ADM_SQ_TAIL", .rw, 0x0, .w, false, 0xFFFF, 0x0, 0x0⟩,
   ⟨0x124, 1, 4, "ADM_CQ_HEAD", .rw, 0x0, .w, false, 0xFFFF, 0x0, 0x0⟩] ++
  [⟨0x128, 1, 4, "ADM_STAT", .w1c, 0x0, .w, false, 0x0, 0xC, 0x0⟩]

/-- Registers of cascade pages (R457). -/
def cascadeRegs : List RegDesc :=
  [cnt 0x040 "CAS_PUBLISHES" .k,
   cnt 0x044 "CAS_PUB_REFUSED" .k,
   cnt 0x048 "CAS_PUB_HELD_ROWS" .k,
   cnt 0x04C "CAS_PARTS" .k,
   cnt 0x050 "CAS_PART_REFUSED" .k,
   cnt 0x054 "CAS_REROUTES" .k,
   cnt 0x058 "CAS_MEMBER_LOST" .k,
   cnt 0x05C "CAS_HELD_ROWS" .k,
   cnt 0x060 "CAS_ISOLATED" .k,
   ⟨0x100, 1, 4, "CAS_CTRL", .rw, 0x10801, .k, true, 0x1FF03, 0x0, 0x0⟩,
   ⟨0x104, 1, 4, "CAS_EXPECT", .rw, 0x0, .k, false, 0x8000000F, 0x0, 0x0⟩,
   ⟨0x108, 1, 4, "CAS_RES_SLOTS", .rw, 0x0, .k, true, 0x7FF, 0x0, 0x0⟩,
   ⟨0x10C, 1, 4, "CAS_RES_ROW", .rw, 0x0, .k, true, 0x3FF03FF, 0x0, 0x0⟩,
   ⟨0x110, 1, 4, "CAS_RES_T0", .rw, 0x0, .k, true, 0xFFFFFF, 0x0, 0x0⟩,
   ⟨0x114, 1, 4, "CAS_RES_T2", .rw, 0x0, .k, true, 0xFFFFFF, 0x0, 0x0⟩,
   ⟨0x118, 1, 4, "CAS_RES_MARKERS", .rw, 0x0, .k, true, 0x1FFF, 0x0, 0x0⟩] ++
  [stat 0x11C "CAS_STAT" 0x0 .n,
   stat 0x120 "CAS_MEMBERS" 0x0 .b,
   stat 0x124 "CAS_PUB_DELTA_LO" 0x0 .w,
   stat 0x128 "CAS_PUB_DELTA_HI" 0x0 .w,
   stat 0x12C "CAS_ROW_DELTA_LO" 0x0 .w,
   stat 0x130 "CAS_ROW_DELTA_HI" 0x0 .w,
   stat 0x134 "CAS_SWATCH_LO" 0x0 .k,
   stat 0x138 "CAS_SWATCH_HI" 0x0 .k,
   stat 0x13C "CAS_PUB_FAIL" 0x0 .w,
   ⟨0x140, 1, 4, "CAS_CMD", .w1s, 0x0, .n, false, 0x0, 0x0, 0x1⟩,
   stat 0x144 "CAS_SYNC_DELAY" 0x0 .n]

/-- Registers of needleBed pages (R204). -/
def needleBedRegs : List RegDesc :=
  [cnt 0x040 "NB_SLICES" .k,
   cnt 0x044 "NB_SLICES_T2" .k,
   cnt 0x048 "NB_MIB_LOADED" .k,
   cnt 0x04C "NB_LATE" .k,
   stat 0x100 "NB_GEOMETRY" 0xA0420 .f,
   stat 0x104 "NB_STATE" 0x0 .b]

/-- Registers of embedding pages (R332). -/
def embeddingRegs : List RegDesc :=
  [cnt 0x040 "EMB_LOOKUPS" .k,
   cnt 0x044 "EMB_FETCHES" .k,
   cnt 0x048 "EMB_SCALED_ADDS" .k,
   cnt 0x04C "EMB_EMPTY_BAGS" .k,
   cnt 0x050 "EMB_BAD_INDEX" .k,
   cnt 0x054 "EMB_GRAD_APPLIED" .k,
   cnt 0x058 "EMB_GRAD_SKIPPED" .k,
   cnt 0x05C "EMB_ROWS_UPDATED" .k,
   cnt 0x060 "EMB_UPDATES_STALE" .k,
   cnt 0x064 "EMB_REPLICA_BUILDS" .k,
   stat 0x100 "EMB_GEOM0" 0x8FFFF .f,
   stat 0x104 "EMB_GEOM1" 0x100000 .f,
   stat 0x108 "EMB_GEOM2" 0x100 .f,
   ⟨0x10C, 1, 4, "EMB_SEL", .rw, 0x0, .n, false, 0xFFFFFFFF, 0x0, 0x0⟩,
   stat 0x110 "EMB_TBL_STAT" 0x0 .b,
   stat 0x114 "EMB_TBL_ROWS" 0x0 .b] ++
  [stat 0x118 "EMB_TBL_T1_ROWS" 0x0 .b,
   stat 0x11C "EMB_TBL_STRIDE" 0x0 .b]

/-- Registers of tier pages (R202). -/
def tierRegs : List RegDesc :=
  [cnt 0x040 "TR_READS" .k,
   cnt 0x044 "TR_LATE" .k,
   cnt 0x048 "TR_REBUILT" .k,
   cnt 0x04C "TR_LOST" .k,
   cnt 0x050 "TR_DAMAGED" .k,
   cnt 0x054 "TR_LATE_REFUSED" .k,
   stat 0x100 "TR_RAW_MIB" 0x0 .f,
   stat 0x104 "TR_USABLE_MIB" 0x0 .f,
   stat 0x108 "TR_FIXED_MIB" 0x0 .b,
   stat 0x10C "TR_POOL_MIB" 0x0 .b,
   stat 0x110 "TR_OBJ_USED_MIB" 0x0 .b,
   ⟨0x114, 1, 4, "TR_SEL", .rw, 0x0, .n, false, 0x1F, 0x0, 0x0⟩,
   stat 0x118 "TR_OWNER_USED_MIB" 0x0 .b,
   stat 0x11C "TR_RATIO" 0x100 .b,
   stat 0x120 "TR_DAMAGED_HANDLE" 0x0 .k,
   ⟨0x180, 17, 4, "TR_Q_OBJ_o", .rw, 0x0, .k, true, 0xFFFFFFFF, 0x0, 0x0⟩]

/-- Registers of modelServing pages (R353). -/
def modelServingRegs : List RegDesc :=
  [cnt 0x040 "MS_BINDS" .k,
   cnt 0x044 "MS_UNBINDS" .k,
   cnt 0x048 "MS_BATCHED" .k,
   cnt 0x04C "MS_PASSES" .k,
   cnt 0x050 "MS_LANE_UNPLANNED" .k,
   cnt 0x054 "MS_OVERRUN" .k,
   stat 0x100 "MS_GEOM" 0x400500 .f,
   stat 0x104 "MS_STORE_USED" 0x0 .b,
   stat 0x108 "MS_MODELS" 0x0 .b,
   stat 0x10C "MS_LOADER" 0x0 .b]

/-- Registers of tenant pages (R143, R480). -/
def tenantRegs : List RegDesc :=
  [cnt 0x040 "TN_ADMITTED" .k,
   cnt 0x044 "TN_REFUSED" .k,
   cnt 0x048 "TN_REF_QUOTA" .k,
   cnt 0x04C "TN_COMPLETED" .k,
   cnt 0x050 "TN_ABORTED" .k,
   cnt 0x054 "TN_STALLED" .k,
   cnt 0x058 "TN_EXPIRED" .k,
   cnt 0x05C "TN_SHORT" .k,
   cnt 0x060 "TN_F_DROPS" .k,
   cnt 0x064 "TN_F_DROP_LATE" .k,
   cnt 0x068 "TN_F_DROP_ERR" .k,
   cnt 0x06C "TN_F_OVERRUN" .k,
   cnt 0x070 "TN_F_POISON" .k,
   cnt 0x074 "TN_F_DAMAGED" .k,
   cnt 0x078 "TN_F_OWNED_ERR" .k,
   cnt 0x07C "TN_F_TYPE_LOST" .k] ++
  [⟨0x100, 1, 4, "TN_PERM", .rw, 0x0, .k, true, 0x7F, 0x0, 0x0⟩,
   ⟨0x104, 1, 4, "TN_Q_STRANDS", .rw, 0x0, .k, true, 0x1FFF7FFF, 0x0, 0x0⟩,
   ⟨0x108, 1, 4, "TN_Q_ROW", .rw, 0x0, .k, true, 0x3FFFFFFF, 0x0, 0x0⟩,
   ⟨0x10C, 1, 4, "TN_Q_T0", .rw, 0x0, .k, true, 0xFFFFFF, 0x0, 0x0⟩,
   ⟨0x110, 1, 4, "TN_Q_KV", .rw, 0x0, .k, true, 0xFFFFFF, 0x0, 0x0⟩,
   ⟨0x114, 1, 4, "TN_Q_T2", .rw, 0x0, .k, true, 0xFFFFFF, 0x0, 0x0⟩,
   ⟨0x118, 1, 4, "TN_Q_SM", .rw, 0x0, .k, true, 0x1FFF07FF, 0x0, 0x0⟩,
   stat 0x11C "TN_USE_STRANDS" 0x0 .b,
   stat 0x120 "TN_USE_T0" 0x0 .b,
   stat 0x124 "TN_USE_KV" 0x0 .b,
   stat 0x128 "TN_USE_T2" 0x0 .b,
   stat 0x12C "TN_USE_SM" 0x0 .b,
   stat 0x130 "TN_LAST_REFUSAL" 0x0 .w]

/-- Registers of markers pages (R426). -/
def markersRegs : List RegDesc :=
  [cnt 0x040 "MK_SIGNALS" .k,
   cnt 0x044 "MK_WAITS" .k,
   cnt 0x048 "MK_WAIT_EXPIRED" .k,
   cnt 0x04C "MK_SET_RACE" .k,
   cnt 0x050 "MK_UNPICKS" .k,
   cnt 0x054 "MK_UNPICK_NOOP" .k,
   ⟨0x100, 1, 4, "MK_SEL", .rw, 0x0, .n, false, 0x3FF, 0x0, 0x0⟩,
   stat 0x104 "MK_VALUE" 0x0 .n,
   stat 0x108 "MK_WAITERS" 0x0 .n,
   stat 0x10C "MK_LAST" 0x0 .n,
   stat 0x110 "MK_HOLDER" 0x0 .n,
   ⟨0x114, 1, 4, "MK_FORCE_VALUE", .rw, 0x0, .n, false, 0xFFFFFFFF, 0x0, 0x0⟩,
   ⟨0x118, 1, 4, "MK_FORCE", .w1s, 0x0, .n, false, 0x0, 0x0, 0x1⟩]

/-- Registers of markerView pages (R427). -/
def markerViewRegs : List RegDesc :=
  [⟨0x100, 1, 4, "MV_INDEX", .rw, 0x0, .n, false, 0x3FF, 0x0, 0x0⟩,
   stat 0x104 "MV_VALUE" 0x0 .n,
   stat 0x108 "MV_WAITERS" 0x0 .n,
   stat 0x10C "MV_LAST" 0x0 .n,
   ⟨0x400, 256, 4, "MV_WAIT_MAP", .ro, 0x0, .n, false, 0x0, 0x0, 0x0⟩]

/-- Registers of strandWindow pages (R144). -/
def strandWindowRegs : List RegDesc :=
  [⟨0x100, 512, 4, "STW_STATE", .ro, 0x0, .b, false, 0x0, 0x0, 0x0⟩,
   ⟨0x900, 1, 4, "STW_SEL", .rw, 0x0, .n, false, 0x3FF, 0x0, 0x0⟩,
   stat 0x904 "STW_ADMIT_ROW_LO" 0x0 .b,
   stat 0x908 "STW_ADMIT_ROW_HI" 0x0 .b,
   stat 0x90C "STW_BOUND_ROW" 0x0 .b,
   stat 0x910 "STW_QUEUE" 0x0 .b,
   stat 0x914 "STW_EPOCH" 0x0 .b,
   stat 0x918 "STW_DROPS" 0x0 .b,
   stat 0x91C "STW_KV" 0x0 .b,
   stat 0x920 "STW_POOL" 0x0 .b]

/-- Registers of modelDesc pages (R354). -/
def modelDescRegs : List RegDesc :=
  [cnt 0x040 "MD_INVOCATIONS" .k,
   cnt 0x044 "MD_GEN_ADMITTED" .k,
   cnt 0x048 "MD_TOKENS" .k,
   cnt 0x04C "MD_CHUNKS" .k,
   cnt 0x050 "MD_LANES_OPENED" .k,
   cnt 0x054 "MD_LANE_UNPLANNED" .k,
   ⟨0x100, 1, 4, "MD_HANDLE", .ro, 0x0, .k, true, 0x0, 0x0, 0x0⟩,
   stat 0x104 "MD_STAT" 0x0 .b,
   stat 0x108 "MD_PERIODS0" 0x0 .b,
   stat 0x10C "MD_PERIODS1" 0x0 .b,
   stat 0x110 "MD_ROUND" 0x0 .b,
   stat 0x114 "MD_LANES" 0x0 .b,
   ⟨0x118, 1, 4, "MD_PASSES", .rw, 0x4, .k, true, 0x1F, 0x0, 0x0⟩,
   stat 0x11C "MD_KV" 0x0 .b,
   stat 0x120 "MD_PATTERN_KIB" 0x0 .b]

/-- Registers of hbm pages (R205). -/
def hbmRegs : List RegDesc :=
  [cnt 0x040 "HBM_LATE" .k,
   cnt 0x044 "HBM_ROWS_SPARED" .k,
   cnt 0x048 "HBM_REBUILT" .k,
   cnt 0x04C "HBM_SCRUB_CORR" .k,
   stat 0x100 "HBM_SPARE" 0x7AE .k,
   stat 0x104 "HBM_TEMP" 0x0 .n,
   stat 0x108 "HBM_STATE" 0x0 .n,
   ⟨0x10C, 1, 4, "HBM_SCRUB", .rw, 0xE10, .k, true, 0xFFFF, 0x0, 0x0⟩]

/-- Registers of tuivy pages (R459). -/
def tuivyRegs : List RegDesc :=
  [cnt 0x040 "TP_FEC_CORR" .k,
   cnt 0x044 "TP_FEC_UNCORR" .k,
   cnt 0x048 "TP_RETRY" .k,
   cnt 0x04C "TP_RETRAIN" .k,
   cnt 0x050 "TP_WIDTH_DOWN" .k,
   cnt 0x054 "TP_LATE" .k,
   stat 0x100 "TP_RATE" 0x8084D .f,
   stat 0x104 "TP_LINK" 0x0 .n,
   stat 0x108 "TP_DELAY" 0x0 .n,
   stat 0x10C "TP_PEER" 0x0 .n]

/-- Registers of d2d pages (R206). -/
def d2dRegs : List RegDesc :=
  [cnt 0x040 "D2D_RETRY" .k,
   cnt 0x044 "D2D_LANES_SPARED" .k,
   cnt 0x048 "D2D_LATE" .k,
   stat 0x100 "D2D_LANES" 0x44044 .k,
   stat 0x104 "D2D_STATE" 0x0 .n,
   stat 0x108 "D2D_RATE" 0x280 .f]

/-- Registers of zorber pages (R207). -/
def zorberRegs : List RegDesc :=
  [cnt 0x040 "ZB_CNT0" .k,
   cnt 0x044 "ZB_CNT1" .k,
   cnt 0x048 "ZB_CNT2" .k,
   cnt 0x04C "ZB_CNT3" .k,
   stat 0x100 "ZB_FUNC" 0x0 .f,
   stat 0x104 "ZB_STATE" 0x0 .n,
   stat 0x108 "ZB_READ0" 0x0 .b,
   stat 0x10C "ZB_READ1" 0x0 .b,
   stat 0x110 "ZB_FW_VER" 0x0 .w,
   ⟨0x114, 1, 4, "ZB_CFG", .rw, 0xE10, .k, true, 0xFFFF, 0x0, 0x0⟩]

/-- Registers of sCore pages (R279). -/
def sCoreRegs : List RegDesc :=
  [cnt 0x040 "MC_STITCHES" .k,
   cnt 0x044 "MC_CUT" .k,
   cnt 0x048 "MC_TILES" .k,
   cnt 0x04C "MC_PAIRS" .k,
   cnt 0x050 "MC_SWAP_WAIT" .k,
   cnt 0x054 "MC_SLOT_CYCLES" .k,
   cnt 0x058 "MC_USEFUL" .k,
   cnt 0x05C "MC_STREAM" .k,
   stat 0x100 "MC_GEOM" 0x28080 .f,
   stat 0x104 "MC_TIMING" 0xA0800008 .f,
   stat 0x108 "MC_T0" 0xC00 .b,
   stat 0x10C "MC_STATE" 0x0 .n]

/-- Registers of bCore pages (R279). -/
def bCoreRegs : List RegDesc :=
  [cnt 0x040 "MC_STITCHES" .k,
   cnt 0x044 "MC_CUT" .k,
   cnt 0x048 "MC_TILES" .k,
   cnt 0x04C "MC_PAIRS" .k,
   cnt 0x050 "MC_SWAP_WAIT" .k,
   cnt 0x054 "MC_SLOT_CYCLES" .k,
   cnt 0x058 "MC_USEFUL" .k,
   cnt 0x05C "MC_STREAM" .k,
   stat 0x100 "MC_GEOM" 0x1048080 .f,
   stat 0x104 "MC_TIMING" 0xA0104020 .f,
   stat 0x108 "MC_T0" 0xC00 .b,
   stat 0x10C "MC_STATE" 0x0 .n]

/-- Registers of searchCore pages (R236). -/
def searchCoreRegs : List RegDesc :=
  [cnt 0x040 "SC_WAVES" .k,
   cnt 0x044 "SC_PAGES" .k,
   cnt 0x048 "SC_SPROUT_SCANNED" .k,
   cnt 0x04C "SC_CONVERGED" .k,
   cnt 0x050 "SC_VISIT_SKIPS" .k,
   cnt 0x054 "SC_JOB_OPS" .k,
   stat 0x100 "SC_GEOM0" 0x4000020 .f,
   stat 0x104 "SC_GEOM1" 0x4001004 .f,
   stat 0x108 "SC_SLOTS" 0x0 .b,
   stat 0x10C "SC_STATE" 0x0 .n]

/-- Registers of textEngine pages (R386). -/
def textEngineRegs : List RegDesc :=
  [cnt 0x040 "TE_IN_BYTES" .k,
   cnt 0x044 "TE_TOKENS" .k,
   cnt 0x048 "TE_DICT_HITS" .k,
   cnt 0x04C "TE_BYTE_FALLBACK" .k,
   cnt 0x050 "TE_PIECE_CUTS" .k,
   cnt 0x054 "TE_PACKED" .k,
   cnt 0x058 "TE_PACK_CUT" .k,
   cnt 0x05C "TE_PACK_LEFT" .k,
   cnt 0x060 "TE_BAD_PASSAGE" .k,
   cnt 0x064 "TE_TEMPLATE_BAD" .k,
   cnt 0x068 "TE_RELEASED" .k,
   cnt 0x06C "TE_STOPS" .k,
   cnt 0x070 "TE_DISCARDED" .k,
   stat 0x100 "TE_GEOM" 0x20001800 .f,
   stat 0x104 "TE_LIMITS" 0x8400400 .f,
   stat 0x108 "TE_T0" 0x0 .b] ++
  [stat 0x10C "TE_VOCABS" 0x0 .b,
   stat 0x110 "TE_STATE" 0x0 .n]

/-- Registers of selectMerge pages (R259). -/
def selectMergeRegs : List RegDesc :=
  [cnt 0x040 "SM_SELECTS" .k,
   cnt 0x044 "SM_MULTIPASS" .k,
   cnt 0x048 "SM_FALLBACK" .k,
   cnt 0x04C "SM_COMPACTS" .k,
   cnt 0x050 "SM_NAN_SEEN" .k,
   cnt 0x054 "SM_DUP_REMOVED" .k,
   cnt 0x058 "SM_DUP_CONFLICT" .k,
   cnt 0x05C "SM_TIE_AT_K" .k,
   cnt 0x060 "SM_SHORT_TESTS" .k,
   cnt 0x064 "SM_EXTENSIONS" .k,
   cnt 0x068 "SM_SHORT" .k,
   cnt 0x06C "SM_PRED_INVALID" .k,
   stat 0x100 "SM_GEOM0" 0x4000040 .f,
   stat 0x104 "SM_GEOM1" 0x401010 .f,
   stat 0x108 "SM_STATE" 0x0 .n,
   stat 0x10C "SM_STAGE" 0x400000 .f]

/-- Registers of tenantView pages (R92). -/
def tenantViewRegs : List RegDesc :=
  [cnt 0x040 "EV_QP_ERR" .n,
   cnt 0x044 "EV_DMA_ERR" .n,
   stat 0x100 "TV_IF_VERSION" 0x20001 .c,
   stat 0x104 "TV_FEATURES" 0xFF .c,
   stat 0x108 "TV_TENANT" 0x0 .w,
   ⟨0x10C, 1, 4, "TV_EVENT", .w1c, 0x0, .n, false, 0x0, 0xF, 0x0⟩,
   ⟨0x110, 1, 4, "TV_EVENT_MASK", .rw, 0x0, .n, false, 0xF, 0x0, 0x0⟩,
   stat 0x114 "TV_PUB_COUNT_LO" 0x0 .k,
   stat 0x118 "TV_PUB_COUNT_HI" 0x0 .k]

/-- Registers of queuePair pages (R93). -/
def queuePairRegs : List RegDesc :=
  [cnt 0x040 "QP_FETCHED" .n,
   cnt 0x044 "QP_COMPLETED" .n,
   cnt 0x048 "QP_REFUSED" .n,
   cnt 0x04C "QP_STREAM_SKIPPED" .n,
   cnt 0x050 "QP_IRQ_SENT" .n,
   ⟨0x100, 1, 4, "QP_SQ_BASE_LO", .rw, 0x0, .n, false, 0xFFFFF000, 0x0, 0x0⟩,
   ⟨0x104, 1, 4, "QP_SQ_BASE_HI", .rw, 0x0, .n, false, 0xFFFFFFFF, 0x0, 0x0⟩,
   ⟨0x108, 1, 4, "QP_CQ_BASE_LO", .rw, 0x0, .n, false, 0xFFFFF000, 0x0, 0x0⟩,
   ⟨0x10C, 1, 4, "QP_CQ_BASE_HI", .rw, 0x0, .n, false, 0xFFFFFFFF, 0x0, 0x0⟩,
   ⟨0x110, 1, 4, "QP_SIZE", .rw, 0x0, .n, false, 0xFFFFFFFF, 0x0, 0x0⟩,
   ⟨0x114, 1, 4, "QP_IRQ", .rw, 0x10000, .n, false, 0xFFFF803F, 0x0, 0x0⟩,
   ⟨0x118, 1, 4, "QP_VERSION_REQ", .rw, 0x0, .n, false, 0xFFFFFFFF, 0x0, 0x0⟩,
   ⟨0x11C, 1, 4, "QP_FEATURES_REQ", .rw, 0x0, .n, false, 0xFFFFFFFF, 0x0, 0x0⟩,
   stat 0x120 "QP_VERSION_GRANT" 0x0 .n,
   stat 0x124 "QP_FEATURES_GRANT" 0x0 .n,
   ⟨0x128, 1, 4, "QP_STAT", .w1c, 0x0, .n, false, 0x0, 0xC, 0x0⟩] ++
  [stat 0x12C "QP_SQ_HEAD" 0x0 .n,
   stat 0x130 "QP_CQ_TAIL" 0x0 .n]

/-- Registers of doorbells pages (R96). -/
def doorbellsRegs : List RegDesc :=
  [⟨0x000, 64, 8, "SQ_TAIL_q", .rw, 0x0, .n, false, 0xFFFF, 0x0, 0x0⟩,
   ⟨0x004, 64, 8, "CQ_HEAD_q", .rw, 0x0, .n, false, 0xFFFF, 0x0, 0x0⟩]

/-- Registers of epochs pages (R173). -/
def epochsRegs : List RegDesc :=
  [⟨0x200, 1, 4, "EP_PIN_AGE", .rw, 0x7D0, .k, true, 0xFFFF, 0x0, 0x0⟩,
   stat 0x204 "EP_OLDEST_PIN" 0x0 .b,
   ⟨0x208, 1, 4, "EP_OBJ_SEL", .rw, 0x0, .n, false, 0xFFFFFFFF, 0x0, 0x0⟩,
   stat 0x20C "EP_OBJ_STAT" 0x0 .b,
   stat 0x210 "EP_OBJ_CUR" 0x0 .b,
   stat 0x214 "EP_OBJ_OLDEST" 0x0 .b,
   stat 0x218 "EP_OBJ_PINS" 0x0 .b,
   stat 0x21C "EP_OBJ_TAG_LO" 0x0 .b,
   stat 0x220 "EP_OBJ_TAG_HI" 0x0 .b,
   cnt 0x224 "EP_EXPIRED" .k,
   cnt 0x228 "EP_LIVE_REFUSED" .k,
   cnt 0x22C "EP_RELEASED" .k]

/-- Registers of indexJobs pages (R237). -/
def indexJobsRegs : List RegDesc :=
  [⟨0x200, 1, 4, "IX_JOB_T3_OPS", .rw, 0x190, .k, true, 0xFFF, 0x0, 0x0⟩,
   stat 0x204 "IX_JOB_LIMIT" 0x8 .f,
   ⟨0x208, 1, 4, "IX_SEL", .rw, 0x0, .n, false, 0xFFFFFFFF, 0x0, 0x0⟩,
   ⟨0x20C, 1, 4, "IX_STAT", .ro, 0x0, .b, false, 0x0, 0x0, 0x0⟩,
   stat 0x210 "IX_JOB_BASE" 0x0 .b,
   stat 0x214 "IX_SPROUT" 0x0 .b,
   stat 0x218 "IX_ENTRIES_LO" 0x0 .b,
   stat 0x21C "IX_ENTRIES_HI" 0x0 .b,
   stat 0x220 "IX_HUSKED_LO" 0x0 .b,
   stat 0x224 "IX_HUSKED_HI" 0x0 .b,
   ⟨0x228, 1, 4, "IX_CMD", .w1s, 0x0, .n, false, 0x0, 0x0, 0x3⟩,
   ⟨0x22C, 1, 4, "IX_JOBS_LANDED", .rc, 0x0, .k, false, 0x0, 0x0, 0x0⟩,
   cnt 0x230 "IX_JOBS_STALE" .k,
   cnt 0x234 "IX_JOBS_CANCELLED" .k]

/-- Registers of sampling pages (R411). -/
def samplingRegs : List RegDesc :=
  [cnt 0x200 "TS_TOKENS" .k,
   cnt 0x204 "TS_GREEDY" .k,
   cnt 0x208 "TS_MASKED" .k,
   cnt 0x20C "TS_DEAD" .k,
   cnt 0x210 "TS_FORCED_EOS" .k,
   cnt 0x214 "TS_NAN_LOGITS" .k,
   cnt 0x218 "TS_INF_LOGITS" .k,
   cnt 0x21C "TS_GRAMMAR_BAD" .k,
   cnt 0x220 "TS_STACK_FULL" .k,
   cnt 0x224 "TS_LOGPROB_CUT" .k,
   stat 0x228 "TS_GEOM" 0x4004008 .f]

/-- The page map of R59: first slot, number of slots, block type, instance of the first slot. -/
def pageMap : List (Nat × Nat × Nat × Nat) :=
  [(0x000, 1, 0x01, 0), (0x001, 1, 0x02, 0), (0x002, 4, 0x03, 0), (0x006, 1, 0x04, 0), (0x007, 1, 0x05, 0), (0x008, 1, 0x06, 0),
   (0x009, 1, 0x07, 0), (0x00A, 1, 0x08, 0), (0x00B, 1, 0x09, 0), (0x00C, 1, 0x0A, 0), (0x00D, 1, 0x0B, 0), (0x00E, 1, 0x0C, 0),
   (0x00F, 1, 0x0D, 0), (0x010, 4, 0x0E, 0), (0x014, 1, 0x0F, 0), (0x020, 16, 0x10, 1), (0x030, 4, 0x11, 0), (0x034, 4, 0x12, 0),
   (0x040, 16, 0x13, 0), (0x050, 64, 0x14, 0), (0x090, 12, 0x15, 0), (0x0A0, 4, 0x16, 0), (0x0A4, 2, 0x17, 0), (0x0B0, 16, 0x18, 0),
   (0x100, 102, 0x20, 0), (0x170, 18, 0x21, 0), (0x190, 34, 0x22, 0), (0x1C0, 9, 0x23, 0), (0x1D0, 5, 0x24, 0)]

/-- The entry of the page map that holds a slot. -/
def findSlot (s : Nat) : List (Nat × Nat × Nat × Nat) → Option (Nat × Nat)
  | [] => none
  | (lo, n, type, inst) :: l => if lo ≤ s && s < lo + n then some (type, inst + (s - lo)) else findSlot s l

/-- Block type and instance of a PF slot (R58, R59); none marks an unpopulated slot. -/
def pfSlot (s : Nat) : Option (Nat × Nat) := findSlot s pageMap

/-- Block type and instance of a VF slot (R60); 0xF1 to 0xF3 stand for the doorbells and the MSI-X slots, which hold no header. -/
def vfSlot (s : Nat) : Option (Nat × Nat) :=
  if s = 0 then some (0x30, 0)
  else if s ≤ 0x40 then some (0x31, s - 1)
  else if s = 0x41 then some (0xF1, 0)
  else if s = 0x42 then some (0xF2, 0)
  else if s = 0x43 then some (0xF3, 0)
  else none

/-- Number of functions a register address can name: the PF's BAR0 (0), the VFs (1 to 16) and the PF's BAR2 (17) (R86). -/
def fnCount : Nat := 18

/-- Key of a page: function and slot. -/
def pageKey (fn slot : Nat) : Nat := fn * 4096 + slot

/-- Key of a register: function and byte offset in its BAR. -/
def regKey (fn off : Nat) : Nat := fn * 2 ^ 24 + off

/-- Function of a register key. -/
def keyFn (k : Nat) : Nat := k / 2 ^ 24
/-- Page key of a register key. -/
def keyPage (k : Nat) : Nat := k / 4096

/-- Block type and instance of a page key. -/
def pageInfo (p : Nat) : Option (Nat × Nat) :=
  let fn := p / 4096
  let s := p % 4096
  if fn = 0 then pfSlot s else if fn ≤ 16 then vfSlot s else if fn = 17 && s < 16 then some (if s < 8 then 0xF2 else 0xF3, s) else none

/-- The page opens with the common header of R61. -/
def hasHeader (type : Nat) : Bool := 0 < type && type < 0xF0

/-- A page of the PF's page map: a populated PF slot. -/
def pfPage (p : Nat) : Bool := p < 4096 && (pfSlot p).isSome

/-- Block registers of a page by type and instance; offsets 0x200 to 0x2FC of a control-group page belong to other chapters (R510). -/
def blockRegs (type inst : Nat) : List RegDesc :=
  match type with
  | 0x01 => deviceRegs
  | 0x02 => rowTimerRegs
  | 0x03 => controlGroupRegs ++ (if inst = 0 then epochsRegs else if inst = 2 then indexJobsRegs else if inst = 3 then samplingRegs else [])
  | 0x04 => admissionRegs
  | 0x05 => faultLogRegs
  | 0x06 => powerRegs
  | 0x07 => securityRegs
  | 0x08 => managementRegs
  | 0x09 => firmwareRegs
  | 0x0A => endpointRegs
  | 0x0B => cascadeRegs
  | 0x0C => needleBedRegs
  | 0x0D => embeddingRegs
  | 0x0E => tierRegs
  | 0x0F => modelServingRegs
  | 0x10 => tenantRegs
  | 0x11 => markersRegs
  | 0x12 => markerViewRegs
  | 0x13 => strandWindowRegs
  | 0x14 => modelDescRegs
  | 0x15 => hbmRegs
  | 0x16 => tuivyRegs
  | 0x17 => d2dRegs
  | 0x18 => zorberRegs
  | 0x20 => sCoreRegs
  | 0x21 => bCoreRegs
  | 0x22 => searchCoreRegs
  | 0x23 => textEngineRegs
  | 0x24 => selectMergeRegs
  | 0x30 => tenantViewRegs
  | 0x31 => queuePairRegs
  | 0xF1 => doorbellsRegs
  | _ => []

/-- The descriptor that covers an offset. -/
def findDesc (off : Nat) : List RegDesc → Option RegDesc
  | [] => none
  | d :: l => if d.off ≤ off && off < d.off + d.n * d.stride && (off - d.off) % d.stride == 0 then some d else findDesc off l

/-- The descriptor of a register of a page (R61: the header, then the block's own registers). -/
def pageDesc (type inst off : Nat) : Option RegDesc :=
  if hasHeader type && off < 0x40 then findDesc off headerRegs else findDesc off (blockRegs type inst)

/-- The MSI-X vector-control word of a table entry: the fourth dword of each 16-byte entry; it comes up masked (R111, log 17). -/
def msixDesc (off : Nat) : RegDesc :=
  ⟨off, 1, 4, "MSIX_TABLE", .rw, if off % 16 = 12 then 1 else 0, .k, false, 0xFFFFFFFF, 0, 0⟩

/-- The descriptor of a register key; none reads 0 and ignores writes (R58). -/
def regDesc (k : Nat) : Option RegDesc :=
  match pageInfo (keyPage k) with
  | none => none
  | some (type, inst) =>
    let off := k % 4096
    if type = 0xF2 then
      (if keyFn k = 17 then (if k % 2 ^ 24 < 8 * 16 then some (msixDesc off) else none)
       else if off < 65 * 16 then some (msixDesc off) else none)
    else pageDesc type inst off

/-- Units fitted and active of a type that has spares (R16); none for a type without. -/
def sparing (type : Nat) : Option (Nat × Nat) :=
  match type with
  | 0x20 => some (102, 96)
  | 0x21 => some (18, 16)
  | 0x22 => some (34, 32)
  | 0x23 => some (9, 8)
  | 0x24 => some (5, 4)
  | _ => none

/-- Instances of a type split over the three NoC fields (R563). -/
def nocCount (type : Nat) : Option Nat :=
  match type with
  | 0x20 => some 102
  | 0x21 => some 18
  | 0x22 => some 34
  | 0x23 => some 9
  | 0x24 => some 5
  | 0x15 => some 12
  | 0x16 => some 4
  | 0x17 => some 2
  | 0x03 => some 4
  | _ => none

/-- PG_CAP.NOC_FIELD (R563). -/
def nocField (type inst : Nat) : Nat :=
  match nocCount type with
  | some n => 3 * inst / n
  | none => if type = 0x0A then 1 else 3

/-- PG_CAP.CTRL_GROUP (R18, R59). -/
def ctrlGroup (type inst : Nat) : Nat :=
  if type = 0x03 then inst
  else if [0x05, 0x06, 0x07, 0x0B, 0x0E, 0x15, 0x16, 0x17, 0x18, 0x23].contains type then 3
  else if [0x0C, 0x0D, 0x0F, 0x14, 0x20, 0x21].contains type then 1
  else if [0x22, 0x24].contains type then 2
  else 0

/-- PG_CAP.PROBE: stated by the chapters of compute units, control groups and Tuivy ports; 1 for the other units of R473 (log 12). -/
def capProbe (type : Nat) : Bool := [0x03, 0x0C, 0x15, 0x16, 0x17, 0x18, 0x20, 0x21, 0x22, 0x23, 0x24].contains type
/-- PG_CAP.OWNABLE: compute units that a tenant may own (R64), and every VF page (R91). -/
def capOwnable (type : Nat) : Bool := [0x20, 0x21, 0x22, 0x23, 0x24, 0x30, 0x31].contains type
/-- PG_CAP.COUNTERS: the counters at 0x040 are defined. -/
def capCounters (type : Nat) : Bool := !([0x01, 0x12, 0x13].contains type)
/-- PG_CAP.SHADOW: block-specific configuration-class registers; 0 on the pages whose chapters say so. -/
def capShadow (type inst : Nat) : Bool :=
  if type = 0x03 then inst == 0 || inst == 2
  else [0x02, 0x04, 0x05, 0x06, 0x0B, 0x0E, 0x10, 0x14, 0x15, 0x18].contains type

/-- The value of PG_CAP (R61). -/
def pgCap (type inst : Nat) : Nat :=
  nocField type inst * 2 ^ 18 + ctrlGroup type inst * 2 ^ 16 + b2n (capCounters type) * 16 + b2n (capProbe type) * 8 +
    b2n (sparing type).isSome * 4 + b2n (capShadow type inst) * 2 + b2n (capOwnable type)

/-- The value of PG_ID (R61): LAYOUT 0x3. -/
def pgId (type inst : Nat) : Nat := type * 2 ^ 24 + inst * 2 ^ 12 + 0x300

/-- The reset value that the tables give a register key, the values given per page, tier, instance or firmware among them. -/
def tableReset (k : Nat) : Nat :=
  match pageInfo (keyPage k) with
  | none => 0
  | some (type, inst) =>
    let off := k % 4096
    if hasHeader type && off = 0 then pgId type inst
    else if hasHeader type && off = 4 then pgCap type inst
    else if type = 0x30 && off = 0x108 then keyFn k
    else if type = 0x0E && off = 0x100 then [696, 589824, 1048576, 45776367].getD inst 0
    else if type = 0x0E && off = 0x104 then [696, 565248, 917504, 38146972].getD inst 0
    else if type = 0x0E && off = 0x108 then [128, 2048, 16384, 0].getD inst 0
    else if type = 0x18 && off = 0x100 then inst
    else match regDesc k with
      | none => 0
      | some d => d.reset

/-- The reset value of a register key, a 32-bit word. -/
def resetOf (k : Nat) : Nat := tableReset k % 2 ^ 32

/-- Pages a page depends on beside the row timer, as its chapter lists them; `topology` is the page's own CAS_CTRL.TOPOLOGY. -/
def pageDeps (p topology : Nat) : List Nat :=
  match pageInfo p with
  | none => []
  | some (type, inst) =>
    match type with
    | 0x05 => [0x011]
    | 0x09 => [0x013]
    | 0x0B => if topology = 0 then [0x0A0, 0x0A1] else [0x0A0, 0x0A1, 0x0A2, 0x0A3]
    | 0x0C => [0x011]
    | 0x0D => [0x011, 0x012, 0x013]
    | 0x0E =>
      if inst = 1 then (List.range 12).map (0x090 + ·)
      else if inst = 2 then [0x0B0, 0x0B1, 0x0B2, 0x0B3, 0x0B8, 0x0B9, 0x0BA, 0x0BB, 0x0A4, 0x0A5]
      else if inst = 3 then [0x0B4, 0x0B5, 0x0B6, 0x0BC, 0x0BD, 0x0BE, 0x0A4, 0x0A5]
      else []
    | 0x0F => [0x011, 0x00E]
    | 0x10 => [0x006]
    | 0x14 => [0x011, 0x00E]
    | 0x18 => [0x0A4 + inst / 8]
    | 0x20 => [0x011, 0x00E]
    | 0x21 => [0x011, 0x00E]
    | 0x22 => [0x011, 0x012, 0x013]
    | 0x23 => [0x011, 0x013]
    | 0x24 => [0x011]
    | _ => []

/-- Lock group of a page in SEC_LOCK (R556); none for a page no lock covers. -/
def lockGroup (type : Nat) : Option Nat :=
  if [0x04, 0x10].contains type then some 0
  else if [0x0E, 0x15, 0x17, 0x18].contains type then some 1
  else if [0x02, 0x0B, 0x16].contains type then some 2
  else if [0x20, 0x21, 0x22, 0x23, 0x24].contains type then some 3
  else if [0x0C, 0x0D, 0x0F, 0x14].contains type then some 4
  else if [0x03, 0x05, 0x06].contains type then some 5
  else none

/-- The configuration-class registers of a page beside PG_CTRL, as offsets in ascending order (R65, R78). -/
def shadowOffs (type inst : Nat) : List Nat :=
  (((blockRegs type inst).filter (·.shadow)).map fun d => (List.range d.n).map fun i => d.off + d.stride * i).flatten

/-- Every populated PF slot, in slot order (R58). -/
def pfSlots : List Nat := (List.range 0x1D5).filter fun s => (pfSlot s).isSome

end Sys2Proof.Machine
end

