-- ==== Sys2Proof/Machine/Text.lean ====
section
/-! DEFINITION. Text engines: vocabularies, tokenisation, prompt packing, release of bytes and stop strings (14_text_engines.md). -/

namespace Sys2Proof.Machine

/-- A vocabulary section inside a model object (R358). -/
structure Vocab where
  b : Bytes
  off : Nat
  deriving DecidableEq, Repr

def vocabOf (b : Bytes) : Vocab := ⟨b, (modelDesc b).vocOff⟩

def Vocab.format (v : Vocab) : Nat := v.b.le v.off 2
def Vocab.size (v : Vocab) : Nat := v.b.le (v.off + 4) 4 % 2 ^ 19
def Vocab.eos (v : Vocab) : Nat := v.b.le (v.off + 8) 4 % 2 ^ 18
def Vocab.noBos (v : Vocab) : Bool := bit (v.b.le (v.off + 12) 4) 31
def Vocab.bos (v : Vocab) : Nat := v.b.le (v.off + 12) 4 % 2 ^ 18
def Vocab.ident (v : Vocab) : Nat := v.b.le (v.off + 0x10) 8
def Vocab.merges (v : Vocab) : Nat := v.b.le (v.off + 0x18) 4
def Vocab.dictEntries (v : Vocab) : Nat := v.b.le (v.off + 0x1C) 4
def Vocab.stringsOff (v : Vocab) : Nat := v.b.le (v.off + 0x20) 8
def Vocab.mergesOff (v : Vocab) : Nat := v.b.le (v.off + 0x28) 8
def Vocab.dictOff (v : Vocab) : Nat := v.b.le (v.off + 0x30) 8

def Vocab.strRec (v : Vocab) (t : Nat) : Nat := v.off + v.stringsOff + 8 * t
def Vocab.strLen (v : Vocab) (t : Nat) : Nat := v.b.le (v.strRec t + 4) 1
/-- A SPECIAL token (R358); the byte tokens are not. -/
def Vocab.special (v : Vocab) (t : Nat) : Bool := 256 ≤ t && bit (v.b.le (v.strRec t + 5) 1) 0

/-- The bytes a token stands for: byte tokens stand for their byte (R358, R378); a SPECIAL token releases none (R359). -/
def Vocab.str (v : Vocab) (t : Nat) : List Byte :=
  if t < 256 then [BitVec.ofNat 8 t]
  else v.b.readN (v.off + v.stringsOff + 8 * v.size + v.b.le (v.strRec t) 4) (v.strLen t)

def Vocab.outBytes (v : Vocab) (t : Nat) : List Byte := if v.special t then [] else v.str t

/-- Merge record i: left, right, result (R358). -/
def Vocab.merge (v : Vocab) (i : Nat) : Nat × Nat × Nat :=
  let a := v.off + v.mergesOff + 12 * i
  (v.b.le a 4 % 2 ^ 18, v.b.le (a + 4) 4 % 2 ^ 18, v.b.le (a + 8) 4 % 2 ^ 18)

def Vocab.mergeList (v : Vocab) : List (Nat × Nat × Nat) := (List.range v.merges).map v.merge

def Vocab.dict (v : Vocab) : List Nat :=
  (List.range v.dictEntries).map fun i => v.b.le (v.off + v.dictOff + 4 * i) 4 % 2 ^ 18

/-- The vocabulary checks of R359 on one model, the comparison with other resident models aside. -/
def vocabBad (v : Vocab) (len : Nat) : Bool :=
  let strEnd := v.stringsOff + 8 * v.size
  let toks := (List.range v.size).filter fun t => 256 ≤ t && !v.special t
  let strs := toks.map v.str
  v.format != 1 || v.size < 512 || 262144 < v.size || v.size - 256 < v.merges || 262144 < v.dictEntries
  || len < strEnd || len < v.mergesOff + 12 * v.merges || len < v.dictOff + 4 * v.dictEntries
  || v.stringsOff % 64 != 0 || v.mergesOff % 64 != 0 || v.dictOff % 64 != 0
  || v.size ≤ v.eos || !v.special v.eos || (!v.noBos && (v.size ≤ v.bos || !v.special v.bos))
  || toks.any (fun t => v.strLen t == 0)
  || (List.range v.size).any (fun t => 256 ≤ t && v.strLen t != 0 && (64 < v.strLen t || len < strEnd + v.b.le (v.strRec t) 4 + v.strLen t))
  || !(strs.eraseDups.length == strs.length)
  || v.mergeList.any (fun m => v.size ≤ m.1 || v.size ≤ m.2.1 || v.size ≤ m.2.2
      || v.special m.1 || v.special m.2.1 || v.special m.2.2 || v.str m.2.2 != v.str m.1 ++ v.str m.2.1)
  || !((v.mergeList.map fun m => (m.1, m.2.1)).eraseDups.length == v.merges)
  || v.dict.any (fun t => t < 256 || v.size ≤ t || v.special t)

/-- T0 bytes a vocabulary copy is charged (R360), rounded up to 4 KiB. -/
def vocabCharge (v : Vocab) : Nat :=
  let dictBytes := sumNat (v.dict.map v.strLen)
  let dataBytes := maxNat (((List.range v.size).filter (256 ≤ ·)).map fun t => v.b.le (v.strRec t) 4 + v.strLen t)
  4096 * ceilDiv (12 * v.size + 8 * v.merges + 8 * dictBytes + dataBytes) 4096

/-- A continuation byte in a range. -/
def contIn (b : Byte) (lo hi : Nat) : Bool := lo ≤ b.toNat && b.toNat ≤ hi

/-- The length of the well-formed UTF-8 character at the head of a list, 0 when there is none (R364: RFC 3629). -/
def utf8Len (l : List Byte) : Nat :=
  match l with
  | [] => 0
  | a :: t =>
    let a := a.toNat
    let c (i lo hi : Nat) : Bool := match t[i]? with | some b => contIn b lo hi | none => false
    if a < 0x80 then 1
    else if 0xC2 ≤ a && a ≤ 0xDF then (if c 0 0x80 0xBF then 2 else 0)
    else if 0xE0 ≤ a && a ≤ 0xEF then
      (if c 0 (if a = 0xE0 then 0xA0 else 0x80) (if a = 0xED then 0x9F else 0xBF) && c 1 0x80 0xBF then 3 else 0)
    else if 0xF0 ≤ a && a ≤ 0xF4 then
      (if c 0 (if a = 0xF0 then 0x90 else 0x80) (if a = 0xF4 then 0x8F else 0xBF) && c 1 0x80 0xBF && c 2 0x80 0xBF
        then 4 else 0)
    else 0

/-- A run of the input: a span of well-formed characters, or one invalid byte (R364). -/
inductive Run where
  | span (chars : List (List Byte))
  | bad (b : Byte)
  deriving DecidableEq, Repr

/-- The input cut into runs (R364); fuel is its length. -/
def runs : Nat → List Byte → List Run
  | 0, _ => []
  | n + 1, l =>
    match l with
    | [] => []
    | b :: t =>
      let k := utf8Len l
      if k = 0 then .bad b :: runs n t
      else match runs n (l.drop k) with
        | .span cs :: r => .span (l.take k :: cs) :: r
        | r => .span [l.take k] :: r

/-- A whitespace character opens a word (R365). -/
def wordChar (c : List Byte) : Bool := c == [0x20] || c == [0x09] || c == [0x0A] || c == [0x0D]

/-- The longest dictionary entry matching at a word start and ending at a word start or the span's end (R365). -/
def dictMatch (v : Vocab) (chars : List (List Byte)) : Option Nat :=
  let text := chars.flatten
  let ok (t : Nat) : Bool :=
    let s := v.str t
    s.isPrefixOf text && (match (text.drop s.length) with
      | [] => true
      | b :: _ => wordChar [b])
  (v.dict.filter ok).foldl (fun best t => match best with
    | none => some t
    | some u => if v.strLen u < v.strLen t then some t else some u) none

/-- Characters before the next word start, the first one aside (R365). -/
def pieceChars : List (List Byte) → List (List Byte)
  | [] => []
  | c :: t => if wordChar c then [] else c :: pieceChars t

/-- A piece cut before the character that would take it past 1,024 bytes (R365). -/
def cutPiece (acc : List (List Byte)) (n : Nat) : List (List Byte) → List (List (List Byte))
  | [] => if acc.isEmpty then [] else [acc]
  | c :: t => if 1024 < n + c.length then acc :: cutPiece [c] c.length t else cutPiece (acc ++ [c]) (n + c.length) t

/-- The lowest merge rank among adjacent pairs (R366). -/
def bestMerge (v : Vocab) (l : List Nat) : Option (Nat × Nat × Nat) :=
  let pairs := List.zip l (l.drop 1)
  v.mergeList.find? fun m => pairs.contains (m.1, m.2.1)

/-- Every non-overlapping occurrence of a pair replaced, left to right (R366); fuel is the length. -/
def mergePair (a b r : Nat) : Nat → List Nat → List Nat
  | 0, l => l
  | n + 1, l =>
    match l with
    | x :: y :: t => if x = a ∧ y = b then r :: mergePair a b r n t else x :: mergePair a b r n (y :: t)
    | l => l

/-- Ranked merging of a piece (R366); fuel is its length. -/
def rankMerge (v : Vocab) : Nat → List Nat → List Nat
  | 0, l => l
  | n + 1, l => match bestMerge v l with
    | none => l
    | some m => rankMerge v n (mergePair m.1 m.2.1 m.2.2 l.length l)

/-- The tokens a character starts as (R366 step 1). -/
def charTokens (v : Vocab) (c : List Byte) : List Nat :=
  match (List.range v.size).find? (fun t => 256 ≤ t && !v.special t && v.str t == c) with
  | some t => [t]
  | none => c.map (·.toNat)

def pieceTokens (v : Vocab) (p : List (List Byte)) : List Nat :=
  let l := (p.map (charTokens v)).flatten
  rankMerge v l.length l

/-- What tokenisation counts: dictionary matches, invalid bytes, piece cuts (R364, R365). -/
structure TokStat where
  hits : Nat
  bad : Nat
  cuts : Nat
  deriving DecidableEq, Repr

def TokStat.add (a b : TokStat) : TokStat := ⟨a.hits + b.hits, a.bad + b.bad, a.cuts + b.cuts⟩

/-- The walk of a span (R365); fuel is its number of characters. -/
def spanTokens (v : Vocab) : Nat → List (List Byte) → List Nat × TokStat
  | 0, _ => ([], ⟨0, 0, 0⟩)
  | n + 1, chars =>
    match chars with
    | [] => ([], ⟨0, 0, 0⟩)
    | c :: t =>
      match dictMatch v chars with
      | some tok =>
        -- the entry ends at a character boundary: drop the characters its string covers
        let k := (chars.foldl (fun (acc : Nat × Nat) ch =>
          if acc.2 < v.strLen tok then (acc.1 + 1, acc.2 + ch.length) else acc) (0, 0)).1
        let r := spanTokens v n (chars.drop (max 1 k))
        (tok :: r.1, r.2.add ⟨1, 0, 0⟩)
      | none =>
        let p := c :: pieceChars t
        let cut := cutPiece [] 0 p
        let r := spanTokens v n (chars.drop p.length)
        ((cut.map (pieceTokens v)).flatten ++ r.1, r.2.add ⟨0, 0, cut.length - 1⟩)

/-- Tokenisation of an input (R364 to R366). -/
def tokenise (v : Vocab) (input : List Byte) : List Nat × TokStat :=
  (runs input.length input).foldl (fun acc r => match r with
    | .bad b => (acc.1 ++ [b.toNat], acc.2.add ⟨0, 1, 0⟩)
    | .span cs => let t := spanTokens v cs.length cs; (acc.1 ++ t.1, acc.2.add t.2)) ([], ⟨0, 0, 0⟩)

/-- A UTF-8 prompt with the vocabulary's start token (R367). -/
def tokenisePrompt (v : Vocab) (input : List Byte) : List Nat × TokStat :=
  let r := tokenise v input
  (if v.noBos then r else (v.bos :: r.1, r.2))

/-- Trailing elements of a value removed. -/
def trimEnd {α : Type} (p : α → Bool) (l : List α) : List α := (l.reverse.dropWhile p).reverse

/-- The text of a prompt region of E bytes (R361). -/
def promptText (input : List Byte) (E : Nat) : List Byte := trimEnd (· == 0) (slice input 0 E)

/-- The tokens of a prompt region of E bytes given as tokens (R361). -/
def promptTokens (input : List Byte) (E : Nat) : List Nat :=
  trimEnd (· == 0xFFFFFFFF) ((List.range (E / 4)).map fun i => leAt input (4 * i) 4)

/-- Bytes one tokenise stitch takes at most, Q of R368. -/
def tokQ (B : Nat) : Nat := (B - 4096) / 96

/-- Tokenise rows of an input of n bytes (R368). -/
def tokRows (B n : Nat) : Nat := max 1 (ceilDiv n (tokQ B - 1088))

/-- VOCAB_ID of a passage store (R369). -/
def storeVocab (b : Bytes) : Nat := b.le 0x48 8

/-- The tokens of a passage, none when it is bad (R369, R371): `size` is that of the reading vocabulary. -/
def passageTokens (b : Bytes) (size line toks : Nat) : Option (List Nat) :=
  let ts := (List.range toks).map fun i => b.le (0x40 + 64 * line + 4 * i) 4 % 2 ^ 18
  if line = 0 || (toks != 0 && b.le 0x08 8 < 64 * (line + ceilDiv toks 16)) || ts.any (size ≤ ·) then none else some ts

/-- A template piece (R372): kind, length, offset. -/
def tplPiece (b : Bytes) (i : Nat) : Nat × Nat × Nat :=
  let w := bodyLe b (0x50 + 8 * i) 4
  (bits w 31 28, bits w 11 0, bodyLe b (0x54 + 8 * i) 4)

def tplPieces (b : Bytes) : List (Nat × Nat × Nat) :=
  (List.range (min 32 (bodyLe b 0x40 4 % 64))).map (tplPiece b)

/-- MIN_CUT, where 0 means 32 (R372). -/
def tplMinCut (b : Bytes) : Nat := let m := bodyLe b 0x44 2; if m = 0 then 32 else m

/-- A piece places nothing and is counted: reserved kind, or text beyond LENGTH (R373). -/
def tplBad (b : Bytes) (p : Nat × Nat × Nat) : Bool :=
  3 < p.1 || ((p.1 == 0 || p.1 == 2) && 0x40 + b.le 0x08 8 < p.2.2 + p.2.1)

/-- The packed prompt (R373 to R377): its tokens, and the counts packed, cut, left, bad passages, bad pieces. -/
structure Packed where
  tokens : List Nat
  fixedTokens : Nat
  whole : Nat
  cut : Nat
  left : Nat
  badPassages : Nat
  badPieces : Nat
  /-- bytes tokenised, and what their tokenisation counts -/
  bytes : Nat
  stat : TokStat
  deriving DecidableEq, Repr

/-- Passages chosen by token counts alone (R374, R375): for each, the tokens kept. -/
def choosePassages (room minCut prefixToks : Nat) (truncate : Bool) : List IxEntry → List (IxEntry × Nat)
  | [] => []
  | e :: t =>
    if prefixToks + e.toks ≤ room then
      (e, e.toks) :: choosePassages (room - (prefixToks + e.toks)) minCut prefixToks truncate t
    else if truncate && prefixToks ≤ room && minCut ≤ room - prefixToks then [(e, room - prefixToks)]
    else []

/-- Prompt packing (R373 to R377). `read` gives a passage's tokens, none when it is bad; `query` is the prompt region's text,
`offered` the retrieval result in order. -/
def packPrompt (v : Vocab) (tpl : Bytes) (read : IxEntry → Option (List Nat)) (query : List Byte) (offered : List IxEntry) (budget : Nat)
    (truncate : Bool) : Packed :=
  let ps := tplPieces tpl
  let good := ps.filter fun p => !tplBad tpl p
  let text (p : Nat × Nat × Nat) : List Nat := (tokenise v (tpl.readN p.2.2 p.2.1)).1
  let fixedOf (p : Nat × Nat × Nat) : List Nat :=
    match p.1 with
    | 0 => text p
    | 1 => (tokenise v query).1
    | 3 => if v.noBos then [] else [v.bos]
    | _ => []
  let F := sumNat (good.map fun p => (fixedOf p).length)
  let firstP := (ps.find? (·.1 == 2)).filter fun p => !tplBad tpl p
  let pre := match firstP with | some p => text p | none => []
  let chosen := match firstP with
    | some _ => choosePassages (budget - F) (tplMinCut tpl) pre.length truncate offered
    | none => []
  let body (p : IxEntry × Nat) : Option (List Nat) :=
    (read p.1).map fun ts => pre ++ ts.take p.2
  let placed := (chosen.map fun p => (body p).getD []).flatten
  let toks := (good.foldl (fun (acc : List Nat × Bool) p =>
    if p.1 = 2 then (if acc.2 then acc else (acc.1 ++ placed, true)) else (acc.1 ++ fixedOf p, acc.2)) ([], false)).1
  -- the texts tokenised: only the first PASSAGES piece places anything (R373)
  let texts := (good.filter fun p => p.1 == 0 || p.1 == 1).map (fun p => if p.1 = 1 then query else tpl.readN p.2.2 p.2.1) ++
    (match firstP with | some p => [tpl.readN p.2.2 p.2.1] | none => [])
  { tokens := toks, fixedTokens := F,
    whole := (chosen.filter fun p => p.2 == p.1.toks).length,
    cut := (chosen.filter fun p => p.2 != p.1.toks).length,
    left := offered.length - chosen.length,
    badPassages := (chosen.filter fun p => (body p).isNone).length,
    badPieces := (ps.filter (tplBad tpl)).length,
    bytes := sumNat (texts.map (·.length)),
    stat := texts.foldl (fun acc t => acc.add (tokenise v t).2) ⟨0, 0, 0⟩ }

/-- Stop-table entry i of a generation command: length and string (R105, R379); bytes beyond the input read 0. -/
def stopEntry (input : List Byte) (off i : Nat) : Nat × List Byte :=
  let a := off + 72 * i
  (leAt input a 2, slice input (a + 8) (leAt input a 2))

def stopStrings (input : List Byte) (off count : Nat) : List (List Byte) :=
  (List.range count).map fun i => (stopEntry input off i).2

/-- The stop completed by the last byte of an output: the longest string, then the lowest index (R380). -/
def stopAt (stops : List (List Byte)) (out : List Byte) : Option (Nat × Nat) :=
  (List.zip (List.range stops.length) stops).foldl (fun best p =>
    if p.2.isSuffixOf out then
      match best with
      | none => some (p.1, p.2.length)
      | some q => if q.2 < p.2.length then some (p.1, p.2.length) else some q
    else best) none

/-- The output scanned one byte at a time: the first stop completed by the new bytes (R380), with the bytes up to it. -/
def scanStop (stops : List (List Byte)) (out : List Byte) : List Byte → Option (Nat × Nat × List Byte)
  | [] => none
  | b :: t =>
    match stopAt stops (out ++ [b]) with
    | some s => some (s.1, s.2, out ++ [b])
    | none => scanStop stops (out ++ [b]) t

/-- Bytes held back: the longest suffix of the unreleased output that is a proper prefix of a stop string (R381). -/
def heldBack (stops : List (List Byte)) (unrel : List Byte) : Nat :=
  maxNat ((List.range (min 63 unrel.length + 1)).filter fun k =>
    stops.any fun s => k < s.length && (unrel.drop (unrel.length - k)).isPrefixOf s)

end Sys2Proof.Machine
end

