-- ==== Sys2Proof/Machine/Sample.lean ====
section
/-! DEFINITION. Choosing the next token: the sampling block, penalties, masks, grammars, the draw, log-probabilities
(15_choosing_tokens.md). -/

namespace Sys2Proof.Machine

/-- The fields of a sampling block (R391). With no block every stage is off and the choice is greedy. -/
structure SamplingBlock where
  present : Bool
  reserved : Bool
  penPrompt : Bool
  penalty : Bool
  minPEn : Bool
  topPEn : Bool
  topKEn : Bool
  mode : Nat
  temperature : Nat
  topK : Nat
  topP : Nat
  minP : Nat
  repPenalty : Nat
  window : Nat
  logprobLen : Nat
  deriving DecidableEq, Repr

def SamplingBlock.none : SamplingBlock := ⟨false, false, false, false, false, false, false, 0, 0, 0, 0, 0, 0, 0, 0⟩

/-- The sampling block at SAMPLING_OFF of an input (R391). -/
def samplingBlock (input : List Byte) (off : Nat) : SamplingBlock :=
  if off = 0 then .none else
  let d (i : Nat) : Nat := leAt input (off + i) 4
  { present := true,
    reserved := bits (d 0) 31 9 != 0 || bits (d 8) 31 19 != 0 || bits (d 0x18) 31 17 != 0 || leAt input (off + 0x20) 32 != 0,
    penPrompt := bit (d 0) 8, penalty := bit (d 0) 7, minPEn := bit (d 0) 6, topPEn := bit (d 0) 5, topKEn := bit (d 0) 4,
    mode := bits (d 0) 3 0, temperature := d 4, topK := bits (d 8) 18 0, topP := d 0x0C, minP := d 0x10,
    repPenalty := d 0x14, window := bits (d 0x18) 16 0, logprobLen := d 0x1C }

/-- An FP32 word lies in a closed range; NaN does not. -/
def f32within (x lo hi : Nat) : Bool := f32le lo x && f32le x hi

/-- A probability threshold out of range: NaN, not greater than 0, or greater than 1 (R392). -/
def probBad (x : Nat) : Bool := !(f32lt 0 x && f32le x 0x3F800000)

/-- The sampling checks of R392, for a decoder of SIZE and CONTEXT. -/
def samplingBad (input : List Byte) (off outLen size context : Nat) (logprobs : Bool) : Bool :=
  let s := samplingBlock input off
  off % 4 != 0 || (s.present && input.length < off + 64) || s.reserved || 1 < s.mode
  || (s.mode == 0 && (s.topKEn || s.topPEn || s.minPEn))
  || (s.mode == 1 && !f32within s.temperature 0x3C800000 0x42800000)
  || (s.topKEn && (s.topK == 0 || size < s.topK))
  || (s.topPEn && probBad s.topP) || (s.minPEn && probBad s.minP)
  || (s.penalty && (!f32within s.repPenalty 0x3F800000 0x41000000 || s.window == 0 || context < s.window))
  || (logprobs && !s.present)
  || (logprobs && (s.logprobLen % 8 != 0 || outLen < s.logprobLen))

/-- The common words of a grammar object (R404). -/
def grammarVocab (b : Bytes) : Nat := b.le 0x40 8
def grammarSize (b : Bytes) : Nat := b.le 0x48 4 % 2 ^ 19

/-- An allowed-token list's bit (R404). -/
def listAllows (b : Bytes) (t : Nat) : Bool := bit (bodyByte b (0x80 + t / 8)).toNat (t % 8)

/-- The grammar state a strand carries (R407): state and stack, top first. -/
structure GramState where
  state : Nat
  stack : List Nat
  deriving DecidableEq, Repr

/-- A state record (R406): mask, default action, first exception, accept, number of exceptions. -/
structure GramRec where
  mask : Nat
  dflt : Nat
  excFirst : Nat
  accept : Bool
  excN : Nat
  deriving DecidableEq, Repr

def gramRec (b : Bytes) (s : Nat) : GramRec :=
  let a := b.le 0x60 8 + 16 * s
  ⟨b.le a 4, b.le (a + 4) 4, b.le (a + 8) 4, bit (b.le (a + 12) 4) 31, b.le (a + 12) 4 % 65536⟩

def gramStates (b : Bytes) : Nat := b.le 0x50 4
def gramEnd (b : Bytes) : Nat := 0x40 + b.le 0x08 8

/-- A malformed state allows nothing (R408). -/
def gramStateBad (b : Bytes) (s : Nat) : Bool :=
  let r := gramRec b s
  let stride := 64 * ceilDiv (grammarSize b) 512
  gramStates b ≤ s || gramEnd b < b.le 0x60 8 + 16 * (s + 1) || b.le 0x54 4 ≤ r.mask
  || gramEnd b < b.le 0x68 8 + stride * (r.mask + 1)
  || (r.excN != 0 && (gramEnd b < b.le 0x70 8 + 8 * (r.excFirst + r.excN) || b.le 0x78 4 < r.excFirst + r.excN))

/-- The action of a token in a state: its exception record, else the default (R407). -/
def gramAction (b : Bytes) (r : GramRec) (t : Nat) : Nat :=
  match (List.range r.excN).find? (fun i => b.le (b.le 0x70 8 + 8 * (r.excFirst + i)) 4 % 2 ^ 18 == t) with
  | some i => b.le (b.le 0x70 8 + 8 * (r.excFirst + i) + 4) 4
  | none => r.dflt

/-- How a grammar judges a token (R407, R408): allowed, refused, refused by NEXT or OP 3, refused by the stack depth alone. -/
inductive GramVerdict where
  | allow
  | deny
  | denyBad
  | denyFull
  deriving DecidableEq, Repr

def gramJudge (b : Bytes) (eos : Nat) (g : GramState) (t : Nat) : GramVerdict :=
  let r := gramRec b g.state
  if gramStateBad b g.state then .deny
  else if t = eos then (if r.accept && g.stack.isEmpty then .allow else .deny)
  else
    let m := b.le 0x68 8 + 64 * ceilDiv (grammarSize b) 512 * r.mask
    if !bit (b.read (m + t / 8)).toNat (t % 8) then .deny
    else
      let a := gramAction b r t
      let op := bits a 31 30
      if op = 3 || gramStates b ≤ bits a 15 0 then .denyBad
      else if op = 2 && g.stack.head? != some (bits a 29 16) then .deny
      else if op = 1 && 1024 ≤ g.stack.length then .denyFull
      else .allow

/-- The state after a chosen token other than EOS (R407). -/
def gramStep (b : Bytes) (g : GramState) (t : Nat) : GramState :=
  let a := gramAction b (gramRec b g.state) t
  match bits a 31 30 with
  | 1 => ⟨bits a 15 0, bits a 29 16 :: g.stack⟩
  | 2 => ⟨bits a 15 0, g.stack.tail⟩
  | _ => ⟨bits a 15 0, g.stack⟩

/-- The verdict of a GRAMMAR handle's object on a token: no grammar, a list, or an automaton (R395). -/
def maskVerdict (gram : Option Bytes) (eos : Nat) (g : GramState) (t : Nat) : GramVerdict :=
  match gram with
  | none => .allow
  | some b => if objFormat b = 1 then (if listAllows b t then .allow else .deny) else gramJudge b eos g t

/-- The penalised logit (R394). -/
def penalise (s : SamplingBlock) (x : Nat) : Nat := if f32lt 0 x then f32div x s.repPenalty else f32mul x s.repPenalty

/-- The tokens in the penalty window (R394): `prompt` as the decoder received it, `gen` the tokens generated. -/
def penaltyWindow (s : SamplingBlock) (prompt gen : List Nat) : List Nat :=
  let seq := if s.penPrompt then prompt ++ gen else gen
  seq.drop (seq.length - s.window)

/-- A step's choice: the token, and what the step counts (R396 to R399). -/
structure Choice where
  token : Option Nat
  dead : Bool
  forced : Bool
  greedy : Bool
  infinite : Bool
  nanSeen : Bool
  gramBad : Bool
  stackFull : Bool
  /-- what select-and-merge units did for it: the k of each selection, threshold compactions, and the NaNs those met (R252, R257) -/
  selects : List Nat
  compacts : Nat
  nans : Nat
  deriving DecidableEq, Repr

/-- Threshold compaction (R257): the entries kept, in input order, and the NaNs met. -/
def compact {α : Type} (strict : Bool) (t : Nat) (key : α → Nat) (l : List α) : List α × Nat :=
  (l.filter (fun x => if strict then f32lt (key x) t else f32le (key x) t), (l.filter fun x => f32isNan (key x)).length)

/-- Cycles of a threshold compaction (R257). -/
def compactCycles (n : Nat) : Nat := ceilDiv n 64 + 64

/-- What the tail of a choice gives: the token, a quotient of +∞, and its selections, compactions and NaNs met. -/
structure Tail where
  token : Option Nat
  infinite : Bool
  selects : List Nat
  compacts : Nat
  nans : Nat
  deriving DecidableEq, Repr

/-- Value order of (logit, token): larger first, then lower token. -/
def better (a b : Nat × Nat) : Bool := f32lt b.2 a.2 || (f32eq a.2 b.2 && a.1 ≤ b.1)

/-- The first token at which a running sum exceeds the target, else the last (R402). -/
def drawWalk (target : Nat) : Nat → List (Nat × Nat) → Option Nat
  | _, [] => none
  | _, [p] => some p.1
  | run, p :: t =>
    let s := f32add run p.2
    if f32lt target s then some p.1 else drawWalk target s t

/-- The shortest leading run whose running sum is not less than the target, or everything (R401). -/
def nucleus (target : Nat) : Nat → List (Nat × Nat) → List (Nat × Nat)
  | _, [] => []
  | run, p :: t =>
    let s := f32add run p.2
    if f32le target s then [p] else p :: nucleus target s t

/-- The 24-bit value v of R403. -/
def drawV (seed p : Nat) : Nat :=
  let M := 2 ^ 64
  let z := ((seed * 2 ^ 32) % M) ||| 0xFFFFFFFF
  let z := z ^^^ (((p + 1) * 0x9E3779B97F4A7C15) % M)
  let z := ((z ^^^ (z >>> 30)) * 0xBF58476D1CE4E5B9) % M
  let z := ((z ^^^ (z >>> 27)) * 0x94D049BB133111EB) % M
  let z := z ^^^ (z >>> 31)
  bits z 63 40

/-- The min-p stage: an inclusive compaction by key −e with threshold −MIN_P (R257, R400). -/
def minPStage (s : SamplingBlock) (e : List (Nat × Nat)) : List (Nat × Nat) × Nat :=
  if s.minPEn then compact false (f32neg s.minP) (fun p => f32neg p.2) e else (e, 0)

/-- The top-p stage (R401): the nucleus of the ranking, which a compaction by the weight of its last token takes from the list (R257). -/
def topPStage (s : SamplingBlock) (e : List (Nat × Nat)) : List (Nat × Nat) × Nat :=
  if s.topPEn then
    let n := nucleus (f32mul s.topP (treeSum (e.map (·.2)))) 0 (sortBy better e)
    let c := compact false (f32neg ((n.getLast?.map (·.2)).getD 0)) (fun p => f32neg p.2) e
    (c.1.filter n.contains, c.2)
  else (e, 0)

/-- The sample-mode tail: temperature, top-k, min-p, top-p and the draw (R399 to R402) over usable (token, logit) pairs in
ascending token ID. -/
def sampleTail (s : SamplingBlock) (v : Nat) (usable : List (Nat × Nat)) : Tail :=
  let y := usable.map fun p => (p.1, f32div p.2 s.temperature)
  match y.find? (fun p => p.2 == 0x7F800000) with
  | some p => ⟨some p.1, true, [], 0, 0⟩
  | none =>
    let kept := if s.topKEn then sortBy (fun a b => decide (a.1 ≤ b.1)) ((sortBy better y).take s.topK) else y
    let M := rowMax (kept.map (·.2))
    let e := kept.map fun p => (p.1, if M = 0xFF800000 then 0x3F800000 else f32exp (f32sub p.2 M))
    let a := minPStage s e
    let b := topPStage s a.1
    let z := treeSum (b.1.map (·.2))
    ⟨drawWalk (f32mul (r32 (.fin false v (-24))) z) 0 b.1, false, if s.topKEn then [s.topK] else [], b2n s.minPEn + b2n s.topPEn, a.2 + b.2⟩

/-- The choice of one token (R393). `logits` are the raw logits of tokens 0 to SIZE - 1. -/
def chooseToken (s : SamplingBlock) (gram : Option Bytes) (g : GramState) (eos : Nat) (forceEos : Bool) (seed pos : Nat)
    (prompt gen logits : List Nat) : Choice :=
  let win := if s.penalty then penaltyWindow s prompt gen else []
  let x := (List.zip (List.range logits.length) logits).map fun p =>
    (p.1, if s.penalty && win.contains p.1 then penalise s p.2 else p.2)
  let judged := x.map fun p => (p, maskVerdict gram eos g p.1)
  let allowed := (judged.filter fun p => p.2 == .allow).map (·.1)
  let usable := allowed.filter fun p => !f32isNan p.2 && p.2 != 0xFF800000
  let nanSeen := allowed.any fun p => f32isNan p.2
  let automaton := match gram with | some b => objFormat b == 2 | none => false
  let gramBad := automaton &&
    ((match gram with | some b => gramStateBad b g.state | none => false) || judged.any fun p => p.2 == .denyBad)
  let full := judged.any fun p => p.2 == .denyFull
  let base : Choice := ⟨none, false, false, false, false, nanSeen, gramBad, full, [], 0, 0⟩
  if usable.isEmpty then
    (if forceEos then { base with token := some eos, forced := true } else { base with dead := true })
  else match usable.find? (fun p => p.2 == 0x7F800000) with
  | some p => { base with token := some p.1, infinite := true }
  | none =>
    if s.mode = 0 then { base with token := (sortBy better usable).head?.map (·.1), greedy := true, selects := [1] }
    else
      let r := sampleTail s (drawV seed pos) usable
      { base with token := r.token, infinite := r.infinite, selects := r.selects, compacts := r.compacts, nans := r.nans }

/-- A log-probability record: token and (x_t - m) - ln S (R410). -/
def logprobRec (t x m S : Nat) : List Byte := toLe 4 t ++ toLe 4 (f32sub (f32sub x m) (f32ln S))

/-- Pages of a pass's logit area (R389). -/
def logitPages (laneBatch size : Nat) : Nat := ceilDiv (laneBatch * 4 * size) 65536

end Sys2Proof.Machine
end

