-- ==== Sys2Proof/Machine/State.lean ====
section
/-! DEFINITION. The state of the block as plain data: registers and their shadows, page status, the row, publishes, queues, strands,
objects, tiers, markers, links, faults, power, firmware and management, and the queue of waiting commands. -/

namespace Sys2Proof.Machine

/-- Why the block stops with a fault. -/
inductive Fault where
  /-- Raised by REGISTER_WRITE, RC_READ, PAIR_LO_READ, PAIR_HI_READ, ENABLE_REQUEST, ENABLE_CHECK_DONE, SOFT_RESET and BLOCK_RESET_DONE
  for a function number the module does not have (R84, R86): no access reaches the module. Safe. -/
  | noSuchFunction
  deriving DecidableEq, Repr

/-- Why the block refuses a command. -/
inductive Refusal where
  /-- A command that the model gives no meaning, by its mnemonic; raised by exec alone. Safe. -/
  | notModelled (mnemonic : String)
  deriving DecidableEq, Repr

/-- Status of one page (R61, R62, R65, R67, R468); PG_STAT is read from it. -/
structure Page where
  /-- PG_STAT.ACTIVE_INDEX; 0xFFF for a spare not in service or a replaced unit (R62) -/
  active : Nat
  /-- the enable is in force (PG_STAT.RUNNING) -/
  running : Bool
  /-- the last check or publish refused the page (PG_STAT.REFUSED) -/
  refused : Bool
  /-- a configuration-class value waits for a publish (PG_STAT.SHADOW_DIRTY) -/
  dirty : Bool
  /-- an enable check runs (PG_STAT.CHECKING) -/
  checking : Bool
  /-- a spare not in service (PG_STAT.SPARE) -/
  spare : Bool
  /-- a probe of the unit runs (PG_STAT.PROBING) -/
  probing : Bool
  /-- the unit is fenced (PG_STAT.FENCED) -/
  fenced : Bool
  /-- the unit takes no work until its probe has acted (R467) -/
  quiesced : Bool
  /-- the page whose unit this spare stands in for (R468) -/
  standFor : Option Nat
  /-- a soft reset waits for a probe (R477) -/
  softReset : Bool
  deriving DecidableEq, Repr

/-- A running enable check (R67 to R69). -/
structure Check where
  page : Nat
  /-- the page's own registers as they stood when the EN write arrived (R68) -/
  regs : NMap Word
  /-- row in which it started -/
  row : Nat
  deriving DecidableEq, Repr

/-- Who committed a publish (R74, R105, R73, R443). -/
inductive PubSrc where
  | register
  | command (cid : Nat) (noIrq : Bool)
  | firmware
  | cascade
  deriving DecidableEq, Repr

/-- The publish committed and not yet in force (R74 to R77). -/
structure Pub where
  src : PubSrc
  /-- row in which the COMMIT arrived -/
  row : Nat
  /-- the snapshot of every shadow register -/
  regs : NMap Word
  /-- object shadows taken in: handle and content (R150) -/
  objs : List (Nat × Content)
  /-- every check has passed -/
  checked : Bool
  /-- it missed its boundary and is held (R75) -/
  held : Bool
  /-- the row at whose boundary it takes effect when nothing holds it -/
  due : Nat
  deriving DecidableEq, Repr

/-- A slot of the row plan and the stitch in it (R31 to R37). -/
structure Slot where
  /-- unit type in the order of ADM_VIEW_SEL.TYPE; 5 for work on no unit (R566) -/
  utype : Nat
  /-- PF slot of the unit that runs it; 0 for work on no unit -/
  unit : Nat
  start : Nat
  len : Nat
  /-- strands served; more than one for a batched stitch -/
  members : List Nat
  /-- which stitch of its members' present steps it is -/
  stitch : Nat
  /-- 0 planned, 1 running, 2 committed, 3 ended without commit -/
  phase : Nat
  /-- inputs not yet there, and those that came since the stitch started -/
  inputs : List Input
  got : List Input
  /-- the unit reported an error during the slot -/
  faulted : Bool
  /-- members (none: all) that wait for an uncorrectable line -/
  tierErr : List (Option Nat)
  /-- tenants for whom the stitch has counted as one that read a poisoned line (R480) -/
  poisoned : List Nat
  deriving DecidableEq, Repr

/-- The row timer and the pattern sequencer (02_the_row.md). -/
structure Row where
  /-- the row runs (R57, R71) -/
  running : Bool
  /-- present row number (R55) -/
  number : Nat
  /-- time of the present row's boundary since row 0, ns -/
  timeNs : Nat
  /-- total correction of the row in progress, ns (R43) -/
  corr : Int
  /-- the window of the present boundary has its accepted edge (R42) -/
  edgeHere : Bool
  /-- the window of the next boundary has its accepted edge -/
  edgeNext : Bool
  /-- consecutive boundaries without an accepted edge (R44) -/
  missed : Nat
  /-- a relock waits for its first edge (R45) -/
  relocking : Bool
  /-- SLEWING was entered through R45: the window is half a period -/
  wide : Bool
  /-- the plan for the next row is committed (R33) -/
  planned : Bool
  /-- the plan for the next row missed its deadline -/
  missedPlan : Bool
  /-- cycles that the needle bed's loads of the present row are planned to take (R353) -/
  loadTime : Nat
  /-- cause of the next run-on row: 1 plan miss, 2 firmware rewrite -/
  runonCause : Nat
  /-- the plan of the present row -/
  slots : List Slot
  /-- access windows opened in the present row (R54) -/
  windows : Nat
  deriving DecidableEq, Repr

/-- A fetched command: its queue, its entry as 16 dwords and its input buffer (R97, R101). -/
structure Cmd where
  q : QRef
  sqe : List Nat
  input : List Byte
  /-- row in which it was fetched -/
  row : Nat
  deriving DecidableEq, Repr

/-- One queue pair, or the admin queue (R93 to R100, R111). -/
structure Qp where
  /-- SQ tail as control group 0 sees it -/
  tail : Nat
  /-- doorbell value waiting for the next access window (R100) -/
  tailNew : Option Nat
  /-- QP_SQ_HEAD -/
  head : Nat
  /-- QP_CQ_TAIL slot and phase -/
  cqTail : Nat
  phase : Bool
  /-- CQ head last returned -/
  cqHead : Nat
  /-- CQ doorbell value waiting for the next access window, with the slots that it and those before it return (R100) -/
  cqNew : Option (Nat × Nat)
  /-- posted entries not returned: U of R97 -/
  unreturned : Nat
  /-- fetched and not finally completed: F of R97 -/
  outstanding : Nat
  /-- fetched and not decided, in ring order -/
  waiting : List Cmd
  /-- entries pending toward an MSI-X message and the row of the oldest -/
  irqPending : Nat
  irqRow : Nat
  deriving DecidableEq, Repr

/-- A final completion waiting to be posted (R109, R115). -/
structure Final where
  status : Nat
  reason : Nat
  flags : Nat
  count : Nat
  extra : Nat
  /-- row in which it is posted -/
  row : Nat
  deriving DecidableEq, Repr

/-- What one step of a strand does; one step runs in each row (R115, R123). -/
inductive Kind where
  /-- a row of tokenisation or of copying a token prompt (R363, R368) -/
  | tokenise
  /-- a row of an encoder, cross-encoder or ranker pass (R342) -/
  | embed
  | rerank
  | rank
  /-- the rows of a search (R226, R227) -/
  | prep
  | walk
  | extend
  | scan
  | rescan
  | select
  /-- the rows a spanning search adds (R452, R453) and the fetch row of R560 -/
  | broadcast
  | gather
  | fetch
  /-- a row that a long final selection of a re-rank takes beyond the last re-rank row (R256, R258) -/
  | resort
  /-- prompt packing (R373 to R377) -/
  | pack
  /-- the rows of a round (R343, R347): a layer of a prefill chunk or of a decode pass, head, sampling, idle rows -/
  | prefill
  | decode
  | head
  | sample
  | idle
  /-- coalescer and pooling rows of a lookup, rows of an update (R324, R330) -/
  | lookup
  | update
  /-- a row of an index command (R567) -/
  | insert
  | delete
  | build
  /-- a transfer row of OBJECT_LOAD (R566) -/
  | transfer
  deriving DecidableEq, Repr

/-- What one stitch of a step does (R31, R123). -/
inductive Role where
  /-- a share of work that the step spreads over several stitches -/
  | share
  /-- a share of a decode pass, which a lane's members run together (R346) -/
  | pass
  /-- tokenisation in the encoder's first row (R560) -/
  | tokens
  /-- a wave or scan row of one shard: its turn among the waves of the row, and the shard (R226, R227) -/
  | shard (wave shard : Nat)
  /-- the short test after a wave or scan row (R238) -/
  | test
  /-- a selection on a select-and-merge unit (R252, R256) -/
  | select
  deriving DecidableEq, Repr

/-- A stitch of a step: its unit type in the order of ADM_VIEW_SEL.TYPE (5: work on no unit, R566), its worst-case cycles, what it does, its
number among the step's stitches of its type, and its turn: it starts once the step's stitches of every earlier turn have ended. -/
structure Stitch where
  utype : Nat
  cycles : Nat
  role : Role
  number : Nat
  turn : Nat
  deriving DecidableEq, Repr

/-- A step of a strand: what it does, its class (0 L, 1 D, 2 P), its place in its pass or round, whether it is the last of its phase, and
the stitches it runs in its row. -/
structure Step where
  kind : Kind
  cls : Nat
  key : Nat
  last : Bool
  stitches : List Stitch
  deriving DecidableEq, Repr

/-- A footprint (R123). -/
structure Foot where
  n : Nat
  /-- cycles by unit type for class L, D and P -/
  l : List Nat
  d : List Nat
  p : List Nat
  t0 : Nat
  kv : Nat
  t2 : Nat
  slots : Nat
  markers : Nat
  deriving DecidableEq, Repr

/-- A generation in progress (15_choosing_tokens.md). -/
structure Gen where
  prompt : List Nat
  toks : List Nat
  /-- prefill chunks of the prompt (R347) -/
  chunks : Nat
  /-- rounds run -/
  rounds : Nat
  gram : GramState
  /-- output bytes not yet released (R381) -/
  unrel : List Byte
  /-- every output byte so far, released or held -/
  all : List Byte
  /-- log-probability records written, and the region has filled (R410) -/
  records : Nat
  cut : Bool
  deriving DecidableEq, Repr

/-- The private work of a strand between its stitches: scratch and staged results (R32, R148). -/
structure Work where
  tokens : List Nat
  query : List Nat
  walks : List Walk
  /-- extensions run (R245) -/
  ext : Nat
  /-- a short test has found K entries or more (R245) -/
  full : Bool
  /-- the candidate list, its left-out ties, the NaNs seen and duplicates of differing keys (R247, R249 to R251) -/
  cands : List Cand
  ties : Nat
  nans : Nat
  conflict : Bool
  /-- the select-and-merge unit of the select row, and of the last selection; 0 for none (R259) -/
  selectUnit : Nat
  finalUnit : Nat
  /-- partial lists gathered from other modules: module index, entries, their left-out count (R452) -/
  lists : List (Nat × List Cand × Nat)
  /-- passages fetched from other modules (R453) -/
  passages : List (Nat × List Nat)
  /-- results of its matrix stitches in T0 scratch, oldest first (R32, R275) -/
  acts : List (List Nat)
  /-- the running sum of a split reduction as last committed, the parts added to it, and parts computed that wait for it, by index
  (R299, R300, R455) -/
  sums : List Nat
  chained : Nat
  parts : List (Nat × List Nat)
  /-- bytes to write in the next row: offset in the output buffer, bytes (R115, R385) -/
  out : List (Nat × List Byte)
  /-- a stream completion is due in the next row (R385) -/
  stream : Bool
  /-- output bytes released (R384) -/
  released : Nat
  gen : Gen
  deriving DecidableEq, Repr

/-- A KV page given to a strand: its layer among those that keep K and V, its number in that layer, and its place in T1 (R349). -/
structure KvPage where
  layer : Nat
  page : Nat
  stack : Nat
  slot : Nat
  deriving DecidableEq, Repr

/-- A strand (R113 to R116). -/
structure Strand where
  cmd : Cmd
  /-- 1 ADMITTED, 2 RUNNING, 3 ENDING -/
  state : Nat
  admitRow : Nat
  /-- time of the admission row's boundary, ns (R161) -/
  admitNs : Nat
  /-- publish counter pinned (R153) -/
  counter : Nat
  foot : Foot
  /-- owned pool by unit type (R128) -/
  owned : List Bool
  markers : List Nat
  /-- pinned epochs: handle and stamp (R154) -/
  pins : List (Nat × Nat)
  /-- handles whose pins drop at the next boundary (R155) -/
  unpin : List Nat
  /-- the steps still to run, the present one first -/
  steps : List Step
  /-- row before which the next step does not run: its lane's round start (R344) -/
  start : Nat
  /-- offset of its lane in its decoder epoch's rounds; 0 is the main lane (R345) -/
  lane : Nat
  drops : Nat
  consec : Nat
  /-- cause of the last drop -/
  cause : Nat
  /-- class L and class P cycles are still held (R131) -/
  holdL : Bool
  holdP : Bool
  /-- KV pages held, and what the exact token count leaves from the next boundary (R125) -/
  kv : Nat
  kvNext : Nat
  /-- KV pages given so far and where each lies (R349) -/
  kvMap : List KvPage
  work : Work
  /-- the final completion it waits to post -/
  final : Option Final
  /-- spans the cascade (R449) -/
  spans : Bool
  /-- a part served for the master: the master's strand (R451) -/
  part : Option Nat
  /-- reads of an ended stitch that have not returned, and reads whose data its T0 scratch keeps (R32) -/
  reading : List Src
  scratch : List Src
  /-- stitches of the present step that have committed, each with its unit (R32, R36) -/
  done : List (Nat × Nat)
  /-- what became of its step of the present row: 0 open, 1 dropped, 2 committed (R34, R39) -/
  fate : Nat
  /-- stitches of the steps before the present one: the base of its stitch indices (R170) -/
  stitchBase : Nat
  /-- the matrix core that holds its T0 granules; 0 before its first matrix stitch (R275) -/
  core : Nat
  /-- its pin age has passed in the present row, while a stitch of it still runs (R137, R161) -/
  expiring : Bool
  deriving DecidableEq, Repr

/-- One live epoch of an object (R145). -/
structure Epoch where
  stamp : Nat
  tag : Nat
  content : Content
  /-- fit decided at its publish (R316, R564): rows of a table in T1, or 1 for a scanned array in T1 -/
  t1 : Nat
  /-- row of the COMMIT of its publish (R150, R233) -/
  commitRow : Nat
  /-- damaged granule numbers (R195) -/
  damaged : List Nat
  deriving DecidableEq, Repr

/-- An object: its live epochs and its shadow (R145 to R152). -/
structure Obj where
  /-- live epochs, oldest first -/
  epochs : List Epoch
  /-- the newest epoch is current (R152) -/
  current : Bool
  /-- publish counters at which the object was deleted (R152, R153) -/
  removed : List Nat
  /-- the shadow as every entered write left it -/
  shadow : Option Content
  /-- the shadow as it stood at the present row's boundary: what a COMMIT takes in (R150) -/
  settled : Option Content
  /-- the shadow as it stood at the boundary of the row before (R443) -/
  prior : Option Content
  /-- writes not yet taken in that entered before the row before, in it, and in the present row -/
  stagedOld : Bool
  stagedMid : Bool
  stagedNew : Bool
  /-- writes taken in by a publish not yet in force -/
  inPublish : Bool
  /-- damaged granule numbers of the current epoch and the shadow (R195) -/
  damaged : List Nat
  /-- row in which an OBJECT_LOAD or a job result last entered the shadow (R233) -/
  foreign : Option Nat
  /-- damaged granules written since, with the row of the write (R195) -/
  repaired : List (Nat × Nat)
  /-- stamp of the epoch that the shadow was copied from; none for one that started empty (R151, R564) -/
  copied : Option Nat
  deriving DecidableEq, Repr

/-- An index job (R229 to R234). -/
structure Job where
  handle : Nat
  /-- true for a build -/
  build : Bool
  /-- neighbours, dim, metric, class of a build -/
  params : List Nat
  /-- 1 queued, 2 running, 3 result in the shadow -/
  state : Nat
  /-- stamp of the base epoch -/
  base : Nat
  progress : Nat
  /-- row in which the result entered the shadow -/
  row : Nat
  deriving DecidableEq, Repr

/-- The passes and lanes of a decoder epoch (R344 to R346, R389). -/
structure Lanes where
  handle : Nat
  stamp : Nat
  /-- row at which the main lane's rounds begin -/
  origin : Nat
  /-- decode passes held -/
  passes : Nat
  /-- tenant and pools whose admission reserved them; logit area in KV pages -/
  tenant : Nat
  owned : List Bool
  kv : Nat
  /-- offsets of the lagging lanes open -/
  lagging : List Nat
  deriving DecidableEq, Repr

/-- Holder of a marker (R412). -/
inductive Holder where
  | free
  | strand (id tenant : Nat)
  | pattern (page stamp : Nat)
  deriving DecidableEq, Repr

/-- A marker (R412). -/
structure Marker where
  value : Nat
  waiters : Nat
  last : Nat
  holder : Holder
  deriving DecidableEq, Repr

/-- A recovery in progress (R193). -/
structure Recovery where
  line : Nat
  tier : Nat
  /-- the page of the unit that served the read -/
  server : Nat
  /-- the object whose granule holds the line; 0 for working data, whose holder `granule` then names -/
  handle : Nat
  granule : Nat
  /-- the epoch of the object that the reading strand pins (R195) -/
  stamp : Nat
  /-- the stitch that waits: plan slot, member, and the row of the plan -/
  slot : Nat
  member : Option Nat
  row : Nat
  deriving DecidableEq, Repr

/-- A slice of the needle bed (R188, R189). -/
structure Slice where
  model : Nat
  segments : Nat
  fromT2 : Bool
  kib : Nat
  /-- 0 waiting, 1 loading, 2 loaded -/
  phase : Nat
  /-- plan slots that still read it -/
  users : List Nat
  /-- what the slice is: model handle, stamp, place, kind, unit type, stitch number, lane -/
  key : List Nat
  /-- it belongs to the plan of the next row (R189) -/
  ahead : Bool
  deriving DecidableEq, Repr

/-- The memory tiers (07_memory_tiers.md). -/
structure Tiers where
  /-- the lost-line map: tier, line, handle, granule (R194); working data has handle 0 and the strand that holds it -/
  lost : List (Nat × Nat × Nat × Nat)
  recoveries : List Recovery
  /-- the weight order of the needle bed, oldest slice first -/
  bed : List Slice
  /-- images of the pages that a Zorber engine stored raw after a second mismatch (R185) -/
  raw : List (List Nat)
  deriving DecidableEq, Repr

/-- A probe planned or running (R466 to R471). -/
structure Probe where
  page : Nat
  loc : Nat
  /-- row of the error -/
  row : Nat
  running : Bool
  /-- the outcome that acts at the next boundary -/
  outcome : Option Bool
  core : Nat
  deriving DecidableEq, Repr

/-- A fault-log record (R482). -/
structure LogRec where
  row : Nat
  type : Nat
  inst : Nat
  event : Nat
  strand : Nat
  tenant : Nat
  loc : Nat
  code : Nat
  seq : Nat
  deriving DecidableEq, Repr

/-- Faults (18_faults_and_probes.md). -/
structure Faults where
  probes : List Probe
  /-- passed locations: page, location, hours since row 0 in ns (R471) -/
  history : List (Nat × Nat × Nat)
  log : List LogRec
  /-- sequence numbers read through FL_SEL -/
  seen : List Nat
  /-- control groups whose firmware restarts (R478, R522) -/
  restarting : List Nat
  /-- control cores out of service, 4g + c, and retired locations: the fault record's copy (R476, R478) -/
  cores : List Nat
  retired : List (Nat × Nat)
  deriving DecidableEq, Repr

/-- A lost strand waiting to be reported (R502, R504). -/
structure Lost where
  q : QRef
  id : Nat
  cid : Nat
  admitRow : Nat
  drops : Nat
  epoch : Nat
  deriving DecidableEq, Repr

/-- A cellar slot (R496). -/
structure Save where
  number : Nat
  /-- the closing record verifies -/
  valid : Bool
  consumed : Bool
  /-- duration, 10 µs; energy used, mJ -/
  tenUs : Nat
  mJ : Nat
  strands : List Lost
  /-- epoch directory: handle, stamp, tag, content root -/
  directory : List (Nat × Epoch)
  regs : NMap Word
  log : List LogRec
  rowNumber : Nat
  /-- lost home lines and damaged granules by handle (R195: until a publish) -/
  lost : List (Nat × Nat × Nat × Nat)
  damaged : List (Nat × List Nat)
  deriving DecidableEq, Repr

/-- Power (19_resets_power_cellar.md, R540 to R543). -/
structure Power where
  /-- 0 off, 1 standby rails, 2 main rails -/
  stage : Nat
  /-- PWRGD released -/
  pwrgd : Bool
  /-- PERST_N is low: the module is held in reset -/
  perst : Bool
  /-- COLD or POR waits to start; the start restores a save when `por` is true -/
  starting : Bool
  por : Bool
  /-- cause of the WARM that begins at the next boundary; 0 none -/
  warmCause : Nat
  /-- a WARM runs until its publish takes effect (R487) -/
  warm : Bool
  /-- the restored save is not yet consumed (R503) -/
  restored : Bool
  /-- a feed is at 42 V or above; it is connected (R541) -/
  feedOk : List Bool
  connected : List Bool
  /-- samples below 42 V without a break of each feed and of both (R494) -/
  lowUs : List Nat
  bothLowUs : Nat
  /-- a sag is declared; its save is being written; the feeds have returned; the module is in L3 (R495, R498) -/
  sag : Bool
  /-- the halt is a thermal trip's (R552) -/
  trip : Bool
  saving : Bool
  returned : Bool
  l3 : Bool
  /-- both feeds are below 20 V (R543) -/
  dark : Bool
  /-- L2 is requested; in force (R492) -/
  standby : Bool
  l2 : Bool
  /-- row in which L2 was requested -/
  standbyRow : Nat
  /-- the bank stands at 54 V; a health check runs; row time of the last check or restore (R499, R500) -/
  bankReady : Bool
  measuring : Bool
  bankAt : Nat
  /-- the upper tiers are rebuilt (R489) -/
  rebuilt : Bool
  /-- lost strands waiting to be reported (R504) -/
  lost : List Lost
  deriving DecidableEq, Repr

/-- A firmware image set in the seed store (R511). -/
structure FwSet where
  header : List Byte
  body : List Byte
  deriving DecidableEq, Repr

/-- Firmware update (20_firmware_update.md). -/
structure Fw where
  /-- 0 IDLE, 1 RECEIVING, 2 REWRITING, 3 ROLLING_BACK -/
  state : Nat
  /-- 0 none, 1 FW_TRANSFER, 2 PLDM -/
  path : Nat
  /-- what STAGING has received: the header, the body, and the body bytes received as ranges (R511, R516, R518) -/
  header : List Byte
  body : Bytes
  got : List (Nat × Nat)
  /-- the COMMIT or REVERT whose completion waits -/
  cmd : Option Cmd
  /-- the rewrite is a REVERT's (R525) -/
  revert : Bool
  /-- digests are being computed; the checks have passed (R519) -/
  hashing : Bool
  ready : Bool
  /-- parts whose loaders still report, and those rewritten so far (R521, R523) -/
  waiting : List Nat
  rewritten : List Nat
  /-- parts whose rolled-back image failed its check, one entry for each attempt, and the part that failed the rewrite (R523, R524) -/
  attempts : List Nat
  failed : Nat
  /-- the new or the restored set starts at the next boundary (R522, R523) -/
  activating : Bool
  restoring : Bool
  deriving DecidableEq, Repr

/-- A member of a cascade as the master sees it (R437, R438, R456). -/
structure Member where
  index : Nat
  /-- 0 none, 1 READY, 2 HOLD, 3 REFUSED -/
  reply : Nat
  code : Nat
  slot : Nat
  swatch : Nat
  /-- prospective RT_PERIOD and TOPOLOGY (R437) -/
  period : Nat
  topology : Nat
  locked : Bool
  lost : Bool
  /-- rows since its last message -/
  silent : Nat
  deriving DecidableEq, Repr

/-- The cascade and its links (17_cascade.md). -/
structure Cascade where
  /-- 0 none, 1 forming, 2 serving, 3 isolated -/
  state : Nat
  index : Nat
  /-- index that a PREPARE gave; it holds once the publish is in force (R436, R437) -/
  newIndex : Nat
  modules : Nat
  members : List Member
  /-- row of the exchange the publish is in; none outside one -/
  exchange : Option Nat
  goSent : Bool
  goGot : Bool
  ready : Bool
  /-- rows since the last message of the master -/
  silent : Nat
  /-- ports that went down since they last trained (R435) -/
  lostPorts : List Nat
  /-- failed retries of the transfer in hand, by port -/
  retries : List Nat
  d2dRetries : List Nat
  /-- lanes that failed training, 8 × port + lane (R432) -/
  badLanes : List Nat
  /-- row of the last PREPARE, on a member (R445) -/
  prepared : Nat
  /-- the master's row and publish counter that the GO named (R438) -/
  goRow : Nat
  goCounter : Nat
  deriving DecidableEq, Repr

/-- Management and security (21_module_hardware.md). -/
structure Mgmt where
  /-- the straps as sampled (R539) -/
  slotId : Nat
  masterLow : Bool
  /-- the levels at the strap pins -/
  pinSlot : Nat
  pinMaster : Bool
  /-- sensors in a warning (R552) -/
  warm : List Nat
  /-- ALERT_N is pulled low by another device -/
  lineLow : Bool
  session : Bool
  handshake : Bool
  negotiated : Bool
  deriving DecidableEq, Repr

/-- What the block sends to its outside. -/
inductive Out where
  /-- a completion entry written to its ring: queue, slot, eight dwords (R108) -/
  | cqe (q : QRef) (slot : Nat) (words : List Nat)
  /-- output bytes written to the host (R104) -/
  | data (tenant addr : Nat) (bytes : List Byte)
  /-- an MSI-X message: function and vector (R111) -/
  | msix (fn vector : Nat)
  /-- the value a register read returned -/
  | value (fn off : Nat) (v : Word)
  /-- a ROWOUT pulse (R47) -/
  | rowout (row : Nat)
  /-- a message on the cascade links: kind, target module or 255 for all, data -/
  | cascade (kind module : Nat) (data : List Nat)
  /-- an MCTP message: 0 control, 1 PLDM, 5 SPDM; code and data -/
  | mctp (type code : Nat) (data : List Nat)
  deriving DecidableEq, Repr

/-- Everything a reset can reach. -/
structure Dev where
  /-- register values that differ from reset; configuration-class registers hold their shadow (R65) -/
  regs : NMap Word
  /-- configuration-class values in force that differ from reset (R65) -/
  act : NMap Word
  /-- pending holding-register copies of pairs, by the key of _LO (R9) -/
  hold : NMap Word
  /-- counts below 1,024 of counters kept in units of 1,024, by register key -/
  part : NMap Nat
  pages : NMap Page
  /-- pages whose PG_ERR_FIRST is held since PG_ERR_STAT last read 0 (R463) -/
  firsts : List Nat
  /-- pages whose live readouts of class N a BLOCK reset has cleared until the next boundary, and whether a WARM has cleared those of
  every page (R486) -/
  cleared : List Nat
  blank : Bool
  checks : List Check
  pub : Option Pub
  row : Row
  qps : NMap Qp
  /-- decisions taken in the present row (R117) -/
  decided : Nat
  /-- queues served in the round in progress (R118) -/
  served : List Nat
  /-- aborts that act at the next boundary: queue, command, strand or queue-and-CID target (R107) -/
  aborts : List (Cmd × Option Nat × Option (QRef × Nat))
  /-- unpicks that act at the next boundary (R423) -/
  unpicks : List (Cmd × Nat × Nat)
  /-- PF unpicks that act at the next boundary: marker and value (R424) -/
  forces : List (Nat × Nat)
  strands : NMap Strand
  objs : NMap Obj
  jobs : List Job
  lanes : List Lanes
  markers : NMap Marker
  tiers : Tiers
  /-- the arrays of matrix cores, by page; a core that is not listed holds nothing (R260, R262) -/
  cores : NMap (List Arr)
  fault : Faults
  power : Power
  fw : Fw
  /-- phases of FW_TRANSFER that complete in the next row: command, reason, status block (R515) -/
  owed : List (Cmd × Nat × List Byte)
  cas : Cascade
  mgmt : Mgmt
  /-- strands and objects as they stood at the boundary of the present row (R565) -/
  snapStrands : NMap Strand
  snapObjs : NMap Obj
  snapJobs : List Job
  snapLanes : List Lanes
  /-- position of the free values used so far (the model's own: log 4) -/
  free : Nat
  /-- what the block has sent, oldest first (the model's own) -/
  sent : List Out
  deriving DecidableEq, Repr

/-- What no reset and no power loss changes (R476, R511, R526). -/
structure Perm where
  /-- PF slots of fenced units (R476) -/
  fenced : List Nat
  /-- retired locations: page and location -/
  retired : List (Nat × Nat)
  /-- fenced control cores, 4g + c (R478) -/
  cores : List Nat
  /-- FW_SEC_FLOOR (R526) -/
  floor : Nat
  /-- the three seed-store slots and the roles CURRENT, PREVIOUS, STAGING (R511) -/
  seeds : List (Option FwSet)
  roles : List Nat
  /-- the cellar's saves (R496) -/
  saves : List Save
  deriving DecidableEq, Repr

/-- The state of the block. -/
structure State where
  dev : Dev
  perm : Perm
  /-- commands waiting, first in first out -/
  pending : List Instr
  deriving DecidableEq, Repr

def Row.reset : Row := ⟨false, 0, 0, 0, false, false, 0, false, false, false, false, 0, 0, [], 0⟩
def Qp.fresh : Qp := ⟨0, none, 0, 0, true, 0, none, 0, 0, [], 0, 0⟩
def Gen.blank : Gen := ⟨[], [], 0, 0, ⟨0, []⟩, [], [], 0, false⟩
def Work.blank : Work := ⟨[], [], [], 0, false, [], 0, 0, false, 0, 0, [], [], [], [], 0, [], [], false, 0, Gen.blank⟩
def Obj.blank : Obj := ⟨[], false, [], none, none, none, false, false, false, false, [], none, [], none⟩
def Marker.free : Marker := ⟨0, 0, 0, .free⟩
def Tiers.reset : Tiers := ⟨[], [], [], []⟩
def Faults.reset : Faults := ⟨[], [], [], [], [], [], []⟩
def Fw.reset : Fw := ⟨0, 0, [], [], [], none, false, false, false, [], [], [], 0, false, false⟩
def Cascade.reset : Cascade := ⟨0, 0, 0, 0, [], none, false, false, false, 0, [], [0, 0, 0, 0], [0, 0], [], 0, 0, 0⟩
def Mgmt.reset : Mgmt := ⟨0, false, 0, false, [], false, false, false, false⟩
/-- Main rails on, PWRGD released and PERST_N deasserted: POR waits to run its start sequence (R542, log 16). -/
def Power.reset : Power :=
  { stage := 2, pwrgd := true, perst := false, starting := true, por := true, warmCause := 0, warm := false, restored := false,
    feedOk := [true, true], connected := [true, true], lowUs := [0, 0], bothLowUs := 0, sag := false, trip := false, saving := false, returned := false,
    l3 := false, dark := false, standby := false, l2 := false, standbyRow := 0, bankReady := false, measuring := false, bankAt := 0, rebuilt := false, lost := [] }

/-- A module with no fault recorded, floor 0, the first image set in CURRENT and an empty cellar (log 13). -/
def Perm.reset : Perm := ⟨[], [], [], 0, [some ⟨[], []⟩, none, none], [0, 1, 2], []⟩

/-- Every register at its reset value, nothing running (R57, R489). -/
def Dev.reset : Dev :=
  { regs := [], act := [], hold := [], part := [], pages := [], firsts := [], cleared := [], blank := false, checks := [], pub := none, row := Row.reset, qps := [], decided := 0,
    served := [], aborts := [], unpicks := [], forces := [], strands := [], objs := [], jobs := [], lanes := [], markers := [],
    tiers := Tiers.reset, cores := [], fault := Faults.reset, power := Power.reset, fw := Fw.reset, owed := [], cas := Cascade.reset, mgmt := Mgmt.reset,
    snapStrands := [], snapObjs := [], snapJobs := [], snapLanes := [], free := 0, sent := [] }

/-- The machine right after power-on reset of a module that starts as new (R484, R489). -/
def State.reset : State := ⟨Dev.reset, Perm.reset, []⟩

end Sys2Proof.Machine
end

