-- ==== Sys2Proof/Machine/Ops.lean ====
section
/-! DEFINITION. The named operations over registers and pages: reading and writing stored values, values in force, counters, page
status, and what the block sends (R6 to R10, R61, R65). -/

namespace Sys2Proof.Machine

/-- The status a page has at reset (R62): units 0 to a-1 active, the rest of a type spares. -/
def pageReset (p : Nat) : Page :=
  let base (active : Nat) (spare : Bool) : Page := ⟨active, false, false, false, false, spare, false, false, false, none, false⟩
  match pageInfo p with
  | none => base 0 false
  | some (type, inst) =>
    match sparing type with
    | some (_, a) => if inst < a then base inst false else base 0xFFF true
    | none => base inst false

/-- The status of a page. -/
def Dev.page (d : Dev) (p : Nat) : Page := (nget d.pages p).getD (pageReset p)

/-- The device with the status of a page set. -/
def Dev.setPage (d : Dev) (p : Nat) (x : Page) : Dev := { d with pages := nset d.pages p x }

/-- The device with the status of a page changed. -/
def Dev.modPage (d : Dev) (p : Nat) (f : Page → Page) : Dev := d.setPage p (f (d.page p))

/-- The page's enable is in force (PG_STAT.RUNNING). -/
def Dev.on (d : Dev) (p : Nat) : Bool := (d.page p).running

/-- The stored value of a register: shadow for a configuration-class register (R65). -/
def Dev.rg (d : Dev) (k : Nat) : Nat := match nget d.regs k with | some v => v.toNat | none => resetOf k

/-- A register set to a value; the map lists no value equal to the reset value. -/
def Dev.put (d : Dev) (k v : Nat) : Dev :=
  { d with regs := if wd v = wd (resetOf k) then nerase d.regs k else nset d.regs k (wd v) }

/-- A configuration-class register's value in force (R65). -/
def Dev.inForce (d : Dev) (k : Nat) : Nat := match nget d.act k with | some v => v.toNat | none => resetOf k

/-- A value brought into force (R77). -/
def Dev.putAct (d : Dev) (k v : Nat) : Dev :=
  { d with act := if wd v = wd (resetOf k) then nerase d.act k else nset d.act k (wd v) }

/-- A register of a PF page by slot and offset. -/
def pf (slot off : Nat) : Nat := slot * 4096 + off

/-- A field [hi:lo] of a register replaced. -/
def Dev.putBits (d : Dev) (k hi lo v : Nat) : Dev := d.put k (setBits (d.rg k) hi lo v)

/-- A counter raised; counters wrap at 2^32 (log 15). -/
def Dev.bump (d : Dev) (k n : Nat) : Dev := if n = 0 then d else d.put k ((d.rg k + n) % 2 ^ 32)

/-- A counter in units of 1,024 raised by n events; the remainder is kept aside (log 15). -/
def Dev.bumpK (d : Dev) (k n : Nat) : Dev :=
  let t := (nget d.part k).getD 0 + n
  let d := d.bump k (t / 1024)
  { d with part := if t % 1024 = 0 then nerase d.part k else nset d.part k (t % 1024) }

/-- A 64-bit quantity in a pair of registers (R9). -/
def Dev.put64 (d : Dev) (lo v : Nat) : Dev := (d.put lo (v % 2 ^ 32)).put (lo + 4) (v / 2 ^ 32 % 2 ^ 32)

/-- The 64-bit quantity of a pair of registers. -/
def Dev.rg64 (d : Dev) (lo : Nat) : Nat := d.rg lo + 2 ^ 32 * d.rg (lo + 4)

/-- The device after sending something. -/
def Dev.emit (d : Dev) (o : Out) : Dev := { d with sent := d.sent ++ [o] }

/-- The row period in force, µs (R25). -/
def Dev.period (d : Dev) : Nat := d.rg (pf 1 0x104)

/-- The stitch window of a period (R28): floor(P × 1,492.5) − 4,024. -/
def budget (P : Nat) : Nat := P * 14925 / 10 - 4024

/-- B at the period in force, as RT_BUDGET holds it. -/
def Dev.budget (d : Dev) : Nat := d.rg (pf 1 0x108)

/-- The publish counter, 48 bits (R81). -/
def Dev.counter (d : Dev) : Nat := d.rg64 (pf 0 0x110)

/-- The publish counter set, on the device page and on every tenant view (R81, R92). -/
def Dev.setCounter (d : Dev) (v : Nat) : Dev := d.put64 (pf 0 0x110) (v % 2 ^ 48)

/-- The PF page of tenant t (R143). -/
def tenantPage (t : Nat) : Nat := 0x01F + t

/-- The VF page of a queue; slot 0x00C of the PF stands for the admin queue (R93, R112). -/
def queuePage (q : QRef) : Nat := if q.tenant = 0 then 0x00C else pageKey q.tenant (1 + q.qp)

/-- Key of a queue. -/
def queueKey (q : QRef) : Nat := q.tenant * 64 + q.qp

def Dev.qp (d : Dev) (q : QRef) : Qp := (nget d.qps (queueKey q)).getD Qp.fresh
def Dev.setQp (d : Dev) (q : QRef) (x : Qp) : Dev := { d with qps := nset d.qps (queueKey q) x }
def Dev.modQp (d : Dev) (q : QRef) (f : Qp → Qp) : Dev := d.setQp q (f (d.qp q))

/-- A register of a queue's page, VF offset or its place on the endpoint page (R93, R112). -/
def queueReg (q : QRef) (vfOff pfOff : Nat) : Nat :=
  if q.tenant = 0 then pf 0x00C pfOff else regKey q.tenant ((1 + q.qp) * 4096 + vfOff)

/-- QP_STAT or ADM_STAT. -/
def queueStat (q : QRef) : Nat := queueReg q 0x128 0x128

/-- The queue accepts doorbells and fetches: its page runs, or ADM_CTRL.EN is 1 (R99, R112). -/
def Dev.queueOn (d : Dev) (q : QRef) : Bool := if q.tenant = 0 then bit (d.rg (pf 0x00C 0x11C)) 0 else d.on (queuePage q)

/-- Ring sizes of a queue (R93, R112). -/
def Dev.sqEntries (d : Dev) (q : QRef) : Nat := bits (d.rg (queueReg q 0x110 0x118)) 15 0
def Dev.cqEntries (d : Dev) (q : QRef) : Nat := bits (d.rg (queueReg q 0x110 0x118)) 31 16

/-- An object of the directory. -/
def Dev.obj (d : Dev) (h : Nat) : Obj := (nget d.objs h).getD Obj.blank
def Dev.setObj (d : Dev) (h : Nat) (o : Obj) : Dev := { d with objs := nset d.objs h o }

/-- The current epoch of an object (R145). -/
def Obj.cur (o : Obj) : Option Epoch := if o.current then o.epochs.getLast? else none

/-- The epoch of an object with a stamp. -/
def Obj.epoch (o : Obj) (stamp : Nat) : Option Epoch := o.epochs.find? (·.stamp == stamp)

/-- A publish counter is at or before another, compared modulo 2^32 (R146). -/
def stampAtMost (a b : Nat) : Bool := (b + 2 ^ 32 - a % 2 ^ 32) % 2 ^ 32 < 2 ^ 31

/-- An object as a view with a publish counter sees it (R153): epochs of later publishes are left out, and the newest that remains is current
unless the object was deleted since. -/
def Obj.asOf (o : Obj) (counter : Nat) : Obj :=
  let es := o.epochs.filter fun e => stampAtMost e.stamp counter
  { o with epochs := es, current := match es.getLast? with
      | some e => !o.removed.any fun r => stampAtMost e.stamp r && stampAtMost r counter
      | none => false }

/-- The content that a new write acts on: the shadow, else a copy of the current epoch, else empty (R151, R152). -/
def Obj.base (o : Obj) : Content :=
  match o.shadow with
  | some c => c
  | none => match o.cur with | some e => e.content | none => Content.empty

def Dev.marker (d : Dev) (i : Nat) : Marker := (nget d.markers i).getD Marker.free
def Dev.setMarker (d : Dev) (i : Nat) (m : Marker) : Dev :=
  { d with markers := if m = Marker.free then nerase d.markers i else nset d.markers i m }

/-- A slot of the row plan changed. -/
def Dev.modSlot (d : Dev) (i : Nat) (f : Slot → Slot) : Dev :=
  { d with row := { d.row with slots := d.row.slots.mapIdx fun j s => if j = i then f s else s } }

/-- The strand of an ID changed. -/
def Dev.modStrand (d : Dev) (id : Nat) (f : Strand → Strand) : Dev := { d with strands := nmod d.strands id f }

/-- The host's accesses and the main rails' work go on: power stage 2, PERST_N high, no sag (R66, R495, R537). -/
def Dev.up (d : Dev) : Bool := d.power.stage == 2 && !d.power.perst && !d.power.sag

/-- A write by the host, which reaches the module only while it is up (R66, R495, R537). -/
def Dev.host (d : Dev) (f : Dev → Dev) : Dev := if d.up then f d else d

/-- The start sequence of COLD or POR is not over (R485, R488, R489). -/
def Dev.inStart (d : Dev) : Bool :=
  d.power.starting || !d.power.rebuilt || !d.power.bankReady || d.pub.any fun p => p.src == .firmware

/-- A WARM is due at the next boundary, unless a start or a WARM that runs absorbs it (R485, R487). -/
def Dev.warmSoon (d : Dev) (cause : Nat) : Dev :=
  if d.power.warm || d.power.warmCause != 0 || d.inStart || d.power.sag || !d.row.running then d
  else { d with power := { d.power with warmCause := cause } }

end Sys2Proof.Machine
end

