-- ==== Sys2Proof/Machine/Operands.lean ====
section
/-! DEFINITION. Submission entries: the 64-byte layout of R101 and the per-command fields of R105 and R515, written and read. -/

namespace Sys2Proof.Machine

/-- The 16 dwords of a 64-byte entry (R101). -/
def entryDwords (bs : List Byte) : List Nat := (List.range 16).map fun i => leAt bs (4 * i) 4

/-- The 64 bytes of 16 dwords. -/
def entryBytes (ds : List Nat) : List Byte := (ds.map (toLe 4)).flatten

/-- Dword at byte offset 4 × i of a command's entry. -/
def Cmd.dw (c : Cmd) (i : Nat) : Nat := c.sqe.getD i 0

def Cmd.opcode (c : Cmd) : Nat := bits (c.dw 0) 7 0
def Cmd.noIrq (c : Cmd) : Bool := bit (c.dw 0) 8
def Cmd.fence (c : Cmd) : Bool := bit (c.dw 0) 9
def Cmd.cid (c : Cmd) : Nat := bits (c.dw 0) 31 16
def Cmd.object (c : Cmd) : Nat := c.dw 1
def Cmd.inAddr (c : Cmd) : Nat := c.dw 2 + 2 ^ 32 * c.dw 3
def Cmd.inLen (c : Cmd) : Nat := c.dw 4
def Cmd.outLen (c : Cmd) : Nat := c.dw 5
def Cmd.outAddr (c : Cmd) : Nat := c.dw 6 + 2 ^ 32 * c.dw 7

/-- The entry of a command: the common dwords and the seven per-command dwords 0x20 to 0x38 (R101). -/
def sqeOf (e : Entry) (opcode : Nat) (f : List Nat) : List Nat :=
  [opcode % 256 + b2n e.noIrq * 256 + b2n e.fence * 512 + e.cid % 65536 * 65536, e.object % 2 ^ 32,
   e.inAddr % 2 ^ 32, e.inAddr / 2 ^ 32 % 2 ^ 32, e.inLen % 2 ^ 32, e.outLen % 2 ^ 32,
   e.outAddr % 2 ^ 32, e.outAddr / 2 ^ 32 % 2 ^ 32] ++ (List.range 7).map (fun i => f.getD i 0 % 2 ^ 32) ++ [0]

/-- Dword 0x28 of SEARCH. -/
def searchWord (ext depth overf : Nat) : Nat := ext % 256 * 65536 + depth % 256 * 256 + overf % 256

/-- The per-command dwords of SEARCH. -/
def searchDw (f : SearchF) : List Nat :=
  [f.k, 0, searchWord f.extensions f.runnerDepth f.overfetch, f.filter, f.queryFmt % 16 * 65536 + f.queryDim % 65536, 0, 0]

/-- The per-command dwords of RETRIEVE_RANK. -/
def retrieveDw (f : RetrieveF) : List Nat :=
  [f.k, f.candidates, searchWord f.extensions f.runnerDepth f.overfetch, f.filter, f.embedModel, f.rerankModel, f.passages]

/-- The per-command dwords of GENERATE and, with the offset, of RETRIEVE_GENERATE. -/
def genDw (f : GenF) (retrieveOff : Nat) : List Nat :=
  [f.maxNew, f.seed, f.grammar, f.stopCount % 256 * 65536 + f.stopOff % 65536, f.samplingOff % 65536, retrieveOff % 65536, f.flags % 32]

/-- Fields of a SEARCH entry (R105). -/
structure SearchArgs where
  k : Nat
  candidates : Nat
  ext : Nat
  depth : Nat
  overf : Nat
  filter : Nat
  embedModel : Nat
  rerank : Nat
  passages : Nat
  qfmt : Nat
  qdim : Nat
  template : Nat
  deriving DecidableEq, Repr

/-- The search fields of SEARCH and RETRIEVE_RANK from seven dwords starting at 0x20. -/
def searchArgs (retrieve : Bool) (ds : List Nat) : SearchArgs :=
  let w := ds.getD 2 0
  if retrieve then
    ⟨ds.getD 0 0, ds.getD 1 0, bits w 23 16, bits w 15 8, bits w 7 0, ds.getD 3 0, ds.getD 4 0, ds.getD 5 0, ds.getD 6 0, 0, 0, ds.getD 7 0⟩
  else ⟨ds.getD 0 0, 0, bits w 23 16, bits w 15 8, bits w 7 0, ds.getD 3 0, 0, 0, 0, bits (ds.getD 4 0) 19 16, bits (ds.getD 4 0) 15 0, 0⟩

/-- The retrieval block of RETRIEVE_GENERATE: 32 bytes of the input at RETRIEVE_OFF (R105). -/
def Cmd.retrieveBlock (c : Cmd) : List Nat := (List.range 8).map fun i => leAt c.input (bits (c.dw 13) 15 0 + 4 * i) 4

/-- The search fields of a command that searches. -/
def Cmd.search (c : Cmd) : SearchArgs :=
  if c.opcode = 0x11 then searchArgs false (c.sqe.drop 8)
  else if c.opcode = 0x12 then searchArgs true ((c.sqe.drop 8).take 7)
  else searchArgs true c.retrieveBlock

/-- The command searches an index. -/
def Cmd.searches (c : Cmd) : Bool := [0x11, 0x12, 0x19].contains c.opcode
/-- The command generates text. -/
def Cmd.isGen (c : Cmd) : Bool := c.opcode == 0x18 || c.opcode == 0x19
/-- The command writes its OBJECT (R103). -/
def Cmd.writes (c : Cmd) : Bool := [0x23, 0x20, 0x21, 0x22, 0x15, 0x05].contains c.opcode
/-- The command creates a strand: it has a class in R105 (R113). -/
def Cmd.makesStrand (c : Cmd) : Bool :=
  [0x05, 0x10, 0x11, 0x12, 0x13, 0x14, 0x15, 0x18, 0x19, 0x20, 0x21, 0x22, 0x23].contains c.opcode

/-- A bit of GEN_FLAGS (R105). -/
def Cmd.genFlag (c : Cmd) (b : Nat) : Bool := bit (c.dw 14) b
def Cmd.maxNew (c : Cmd) : Nat := c.dw 8
def Cmd.seed (c : Cmd) : Nat := c.dw 9
def Cmd.grammar (c : Cmd) : Nat := c.dw 10
def Cmd.stopCount (c : Cmd) : Nat := bits (c.dw 11) 23 16
def Cmd.stopOff (c : Cmd) : Nat := bits (c.dw 11) 15 0
def Cmd.samplingOff (c : Cmd) : Nat := bits (c.dw 12) 15 0

/-- A handle's kind, owner and number (R102). -/
def handleKind (h : Nat) : Nat := bits h 31 24
def handleOwner (h : Nat) : Nat := bits h 23 16
/-- A handle that holds a reserved value (R102). -/
def handleBad (h : Nat) : Bool := h != 0 && (handleKind h == 0 || 7 < handleKind h || 16 < handleOwner h)

end Sys2Proof.Machine
end

