-- ==== Sys2Proof/Machine/Objects.lean ====
section
/-! DEFINITION. Objects in the tiers: granules charged to owners, pools, pins, and what enters a shadow
(R147 to R151, R158, R176 to R183, R564). -/

namespace Sys2Proof.Machine

/-- Kind, owner and number of a handle (R102); kinds 1 index, 2 passage store, 3 table, 4 model, 5 grammar, 6 filter, 7 template. -/
def handleNumber (h : Nat) : Nat := bits h 15 0

/-- Header and body bytes of an object's content (R147). -/
def objLen (c : Content) : Nat := 64 + c.bytes.le 8 8

/-- The body length of a content (R147). -/
def bodyLen (c : Content) : Nat := c.bytes.le 8 8

/-- One part of a copy cut into granules: the granules it spans from `lo` up to `hi`, and the images of those that are listed.
A dense part's unlisted granules hold zeros; a sparse part consists of the listed ones alone. -/
structure Region where
  dense : Bool
  lo : Nat
  hi : Nat
  images : NMap (List Nat)
  deriving DecidableEq, Repr

/-- A map of lists with more values at a key. -/
def nadd (m : NMap (List Nat)) (k : Nat) (v : List Nat) : NMap (List Nat) := nset m k ((nget m k).getD [] ++ v)

/-- The granules of size g that cover bytes lo up to hi of an object. -/
def byteRegion (b : Bytes) (lo hi g : Nat) : Region :=
  ⟨true, lo / g, if hi ≤ lo then lo / g else ceilDiv hi g,
   b.foldl (fun m p => if lo ≤ p.1 && p.1 < hi then nadd m (p.1 / g) [p.1 % g, p.2.toNat] else m) []⟩

/-- An entry as numbers, to compare granule images. -/
def entryImage (e : IxEntry) : List Nat := [e.pid, e.line, e.toks, b2n e.husked] ++ e.attr.map (·.toNat) ++ e.vec ++ e.pq

/-- Records of a size laid end to end, in granules of size g. -/
def arrayRegion (size g : Nat) (l : List (List Nat)) : Region :=
  ⟨true, 0, ceilDiv (l.length * size) g, ((l.zipIdx).foldl (fun m p => nadd m (p.2 * size / g) p.1) [])⟩

/-- Pages of graph nodes, one 4 KiB page each (R208, R213). -/
def nodeRegion (nodes : NMap GraphNode) : Region :=
  ⟨false, 0, 0, nodes.map fun p => (p.1, entryImage { p.2.entry with husked := false } ++ [p.2.shard] ++ p.2.nbrs)⟩

/-- Navigation records of the levels of a graph, in granules of size g (R220). -/
def navRegion (d : IxDesc) (nodes : NMap GraphNode) (g : Nat) : Region :=
  let size := 256 + 64 * ceilDiv d.dim 64
  let top := topLevel nodes 8 1
  let recs := ((List.range top).map fun j => (levelNodes nodes (j + 1)).map fun n =>
    [n, j + 1] ++ match nget nodes n with | some g => (nget g.nav (j + 1)).getD [] ++ g.entry.vec | none => []).flatten
  arrayRegion size g recs

/-- PQ codes of the graph nodes, 32 bytes each by passage number (R208, R214). -/
def pqRegion (nodes : NMap GraphNode) : Region :=
  ⟨false, 0, 0, nodes.foldl (fun m p => nadd m (p.1 * 32 / 4096) (p.1 :: p.2.entry.pq)) []⟩

/-- The husk map: one bit per passage number below the capacity (R216). -/
def huskRegion (d : IxDesc) (nodes : NMap GraphNode) : Region :=
  ⟨true, 0, ceilDiv d.capacity 32768, nodes.foldl (fun m p => if p.2.entry.husked then nadd m (p.1 / 32768) [p.1] else m) []⟩

/-- The parts of a content that a tier holds (R179, R564): `t1` is the fit of its epoch. -/
def parts (kind tier t1 : Nat) (c : Content) : List Region :=
  let d := ixDesc c.bytes
  let size := ixEntrySize d
  let sprout := arrayRegion size 4096 (c.index.sprout.map entryImage)
  let flat (g : Nat) := arrayRegion size g (c.index.flat.map entryImage)
  let len := objLen c
  let empty : Region := ⟨false, 0, 0, []⟩
  if tier = 3 then
    byteRegion c.bytes 0 len 4096 ::
      (if kind = 1 then (if d.cls = 0 then [nodeRegion c.index.nodes, huskRegion d c.index.nodes, navRegion d c.index.nodes 4096] else [flat 4096]) ++
        [sprout] else [])
  else match kind with
  | 1 =>
    if tier = 1 then [if d.cls = 0 then navRegion d c.index.nodes 65536 else if t1 = 0 then empty else flat 65536]
    else [if d.cls = 0 then pqRegion c.index.nodes else if t1 = 0 then flat 4096 else empty,
          if d.cls = 0 then huskRegion d c.index.nodes else empty, sprout]
  | 3 =>
    let t := tblDesc c.bytes
    let s := tblStride t
    let split := 0x80 + t1 * s
    let rowsEnd := 0x80 + t.rows * s
    if tier = 1 then [byteRegion c.bytes 0 split 65536, byteRegion c.bytes rowsEnd (max rowsEnd len) 65536]
    else [byteRegion c.bytes split rowsEnd 4096]
  | 4 =>
    let m := modelDesc c.bytes
    if tier = m.tier + 1 then [byteRegion c.bytes m.wOff (m.wOff + m.wLen) (if tier = 1 then 65536 else 4096)] else [empty]
  | 2 => [empty]
  | _ => if tier = 1 then [byteRegion c.bytes 0 len 65536] else [empty]

/-- The image of page k of a part: an unlisted page of a dense part holds zeros, of a sparse one nothing. -/
def Region.page (r : Region) (k : Nat) : Option (List Nat) :=
  match nget r.images k with
  | some v => some v
  | none => if r.dense && r.lo ≤ k && k < r.hi then some [] else none

/-- The distinct copies of one part over several versions, as the images of their pages, and its pages of zeros that no version lists
(R151, R181). Versions share the granules that are equal: `per` pages make a granule, and one that differs is copied whole. -/
def distinct (per : Nat) (rs : List Region) : List (List Nat) × Nat :=
  let keys := (rs.map fun r => r.images.map (·.1)).flatten.eraseDups
  let granules := (keys.map (· / per)).eraseDups
  let copies (g : Nat) : List (List (Option (List Nat))) := (rs.map fun r => (List.range per).map fun i => r.page (g * per + i)).eraseDups
  let imgs := granules.flatMap fun g => (copies g).flatMap fun l => l.filterMap id
  let span := maxNat ((rs.filter (·.dense)).map fun r => r.hi - r.lo)
  let lo := (rs.filter (·.dense)).foldl (fun m r => min m r.lo) (2 ^ 64)
  let listed := sumNat (granules.map fun g => ((List.range per).filter fun i => lo ≤ g * per + i && g * per + i < lo + span).length)
  (imgs, span - listed)

/-- Pages of a granule of copy-on-write as a tier's parts are cut: T2's parts are cut into 4 KiB pages of 64 KiB granules (R151). -/
def granulePages (tier : Nat) : Nat := if tier = 2 then 16 else 1

/-- Stored bytes of a page that the compression engine makes of an image: 76 per stored line, 1 to 64 lines, all 64 for a page stored raw
(R177, R184, R185). -/
def storedBytes (raw : List (List Nat)) (image : List Nat) : Nat :=
  if raw.contains image then 76 * 64 else 76 * (1 + (Config.storedLines image - 1) % 64)

/-- What several versions of one part take: granules in T1, stored bytes in T2 and T3. -/
def partUse (raw : List (List Nat)) (tier : Nat) (rs : List Region) : Nat :=
  let (imgs, zeros) := distinct (granulePages tier) rs
  if tier = 1 then imgs.length + zeros else sumNat (imgs.map (storedBytes raw)) + zeros * storedBytes raw []

/-- The versions of an object that a tier holds, with their fits: every live epoch, and the shadow, in an upper tier only when it was copied from
a live epoch (R151, R564). -/
def Obj.versions (o : Obj) (tier : Nat) : List (Content × Nat) :=
  o.epochs.map (fun e => (e.content, e.t1)) ++
    match o.shadow, o.copied.bind o.epoch with
    | some c, some e => [(c, e.t1)]
    | some c, none => if tier = 3 then [(c, 0)] else []
    | none, _ => []

/-- The parts of an object in a tier, over its versions. -/
def Obj.regions (h tier : Nat) (o : Obj) : List (List Region) :=
  let lists := (o.versions tier).map fun v => parts (handleKind h) tier v.2 v.1
  (List.range (maxNat (lists.map (·.length)))).map fun i => lists.filterMap (·[i]?)

/-- What an object takes in a tier (R564). -/
def objUse (raw : List (List Nat)) (h tier : Nat) (o : Obj) : Nat := sumNat ((o.regions h tier).map (partUse raw tier))

/-- Granules of an owner's objects in a tier: 64 KiB in T1 and T2, 4 KiB of stored space in T3 (R175, R181). -/
def ownerUse (raw : List (List Nat)) (objs : NMap Obj) (owner tier : Nat) : Nat :=
  let n := sumNat ((objs.filter fun p => handleOwner p.1 == owner).map fun p => objUse raw p.1 tier p.2)
  if tier = 1 then n else ceilDiv n (if tier = 2 then 65536 else 4096)

/-- The page of a tier (R202). -/
def tierPage (t : Nat) : Nat := 0x010 + t

/-- Granules per MiB of a tier (R202). -/
def perMib (tier : Nat) : Nat := if tier = 3 then 256 else if tier = 0 then 256 else 16

/-- Granules that Q_o admits in a tier. -/
def Dev.quota (d : Dev) (tier owner : Nat) : Nat := d.inForce (pf (tierPage tier) (0x180 + 4 * owner)) * perMib tier

/-- The working pool P of T1 or T2 in MiB, from a reading of the quotas (R180). -/
def poolMib (d : Dev) (get : Nat → Nat) (tier : Nat) : Nat :=
  d.rg (pf (tierPage tier) 0x104) - d.rg (pf (tierPage tier) 0x108) - sumNat ((List.range 17).map fun o => get (pf (tierPage tier) (0x180 + 4 * o)))

/-- Active lanes of the two die-to-die links, 64 each until one is fenced with no spare lane left (R206). -/
def Dev.d2dLanes (d : Dev) : Nat :=
  sumNat ([0x0A4, 0x0A5].map fun p => 64 - ((d.fault.retired.filter fun r => r.1 == p).length - 4))

/-- The KV pool and the T2 working pool in granules (R180); a degraded die-to-die link offers its part of the T2 pool no more (R17, R206:
log 79). -/
def Dev.pool (d : Dev) (tier : Nat) : Nat :=
  if tier = 3 then 0 else if tier = 2 then poolMib d d.inForce tier * 16 * d.d2dLanes / 128 else poolMib d d.inForce tier * 16

/-- PF slots of the units of a type in the order of ADM_VIEW_SEL.TYPE (R59). -/
def unitSlots (u : Nat) : List Nat :=
  match u with
  | 0 => (List.range 102).map (0x100 + ·)
  | 1 => (List.range 18).map (0x170 + ·)
  | 2 => (List.range 34).map (0x190 + ·)
  | 3 => (List.range 9).map (0x1C0 + ·)
  | 4 => (List.range 5).map (0x1D0 + ·)
  | _ => []

/-- Unit type of a compute page, if it is one. -/
def unitType (p : Nat) : Option Nat := (List.range 5).find? fun u => (unitSlots u).contains p

/-- T0 of a unit of a type, in 4 KiB granules (R16). -/
def unitT0 (u : Nat) : Nat := [768, 768, 1024, 2048, 0].getD u 0

/-- Units of a type that hold an active index and run: A without the pool (R126). -/
def Dev.activeUnits (d : Dev) (u : Nat) : List Nat := (unitSlots u).filter fun p => (d.page p).active != 0xFFF && (d.page p).running

/-- Live epochs of models: contents (R339). -/
def modelEpochs (objs : NMap Obj) : List Content :=
  ((objs.filter fun p => handleKind p.1 == 4).map fun p => p.2.epochs.map (·.content)).flatten

/-- The distinct vocabularies of the resident model epochs (R360). -/
def vocabs (objs : NMap Obj) : List Vocab :=
  let vs := ((modelEpochs objs).filter fun c => (modelDesc c.bytes).vocLen != 0).map fun c => vocabOf c.bytes
  vs.foldl (fun acc v => if acc.any (·.ident == v.ident) then acc else acc ++ [v]) []

/-- Bytes of vocabulary copies in each active text engine (R360). -/
def vocabBytes (objs : NMap Obj) : Nat := sumNat ((vocabs objs).map vocabCharge)

/-- Row planes of a content's replicated table, in 4 KiB granules; 0 when the table is not replicated (R316). -/
def replica (h : Nat) (c : Content) : Nat :=
  let t := tblDesc c.bytes
  if handleKind h = 3 && t.rows * tblStride t ≤ 262144 then ceilDiv (t.rows * tblStride t) 4096 else 0

/-- 4 KiB granules of table replicas in each active matrix core (R276, R316). -/
def replicas (objs : NMap Obj) : Nat :=
  sumNat (objs.map fun p => sumNat (p.2.epochs.map fun e => replica p.1 e.content))

/-- A section of an object's bytes, offsets relative to it. -/
def section_ (b : Bytes) (off len : Nat) : Bytes :=
  (b.filter fun x => off ≤ x.1 && x.1 < off + len).map fun x => (x.1 - off, x.2)

/-- The pattern section of a model. -/
def patSection (c : Content) : Bytes := let m := modelDesc c.bytes; section_ c.bytes m.patOff m.patLen

/-- The distinct patterns of resident models: one content for each. -/
def residentPatterns (objs : NMap Obj) : List Content :=
  (((objs.filter fun p => handleKind p.1 == 4).map fun p =>
    p.2.epochs.foldl (fun acc e => if acc.any fun c => patSection c == patSection e.content then acc else acc ++ [e.content]) []).flatten)

/-- 4 KiB granules of T0 that the resident patterns fix on each matrix core: a pattern is held once, however many live epochs carry it
(R274, R413). -/
def patternFixed (objs : NMap Obj) : Nat := sumNat ((residentPatterns objs).map fun c => ceilDiv (pattern c.bytes).t0Fixed 4)

/-- 4 KiB granules of working copies in each text engine: one of every live epoch of a grammar, an allowed-token list and a template (R179,
R360; log 78). -/
def workingCopies (objs : NMap Obj) : Nat :=
  sumNat (objs.map fun p => if handleKind p.1 = 5 || handleKind p.1 = 7 then sumNat (p.2.epochs.map fun e => ceilDiv (objLen e.content) 4096) else 0)

/-- 4 KiB granules of object copies in each text engine (R182, R360). -/
def engineCopies (objs : NMap Obj) : Nat := ceilDiv (vocabBytes objs) 4096 + workingCopies objs

/-- Object copies in T0 over the active units, in granules (R182). -/
def Dev.t0Copies (d : Dev) (objs : NMap Obj) : Nat :=
  ((d.activeUnits 0).length + (d.activeUnits 1).length) * replicas objs + (d.activeUnits 3).length * engineCopies objs

/-- T0 fixed by resident patterns and object copies over the active units, in granules, the needle bed beside (R182). -/
def Dev.t0Held (d : Dev) (objs : NMap Obj) : Nat :=
  ((d.activeUnits 0).length + (d.activeUnits 1).length) * patternFixed objs + d.t0Copies objs

/-- The T0 pool in granules (R182): the needle bed enters the sum as a unit of R16 and leaves it as held (log 20). -/
def Dev.t0Pool (d : Dev) (objs : NMap Obj) : Nat :=
  let total := sumNat ((List.range 5).map fun u => (d.activeUnits u).length * unitT0 u)
  total - d.t0Held objs

/-- Strands that pin an epoch (R155). -/
def Dev.pinned (d : Dev) (h stamp : Nat) : List (Nat × Strand) := d.strands.filter fun p => p.2.pins.contains (h, stamp)

/-- A job holds its base epoch live (R231). -/
def Dev.jobHolds (d : Dev) (h stamp : Nat) : Bool := d.jobs.any fun j => j.handle == h && j.state == 2 && j.base == stamp

/-- Live epochs of an object as order 1 of R159 counts them: the current one and every superseded one pinned by a strand that is
not in ENDING or held by a job (R231). -/
def Dev.liveCount (d : Dev) (h : Nat) (o : Obj) : Nat :=
  (o.epochs.filter fun e => o.cur == some e || (d.pinned h e.stamp).any (fun p => p.2.state != 3) || d.jobHolds h e.stamp).length

/-- The shadow of an object after a write enters it (R148, R151). -/
def Obj.enter (o : Obj) (c : Content) : Obj :=
  { o with shadow := some c, stagedNew := true, copied := if o.shadow.isSome then o.copied else o.cur.map (·.stamp) }

/-- Page g of each part of a content's home copy: what a granule number of an object names (R178, R195). -/
def homeImage (h : Nat) (c : Content) (g : Nat) : List (Option (List Nat)) := (parts (handleKind h) 3 0 c).map fun r => r.page g

/-- The damaged granules of an object that a content rewrites, marked with the row of the write (R195): those whose home pages change, and
those of a list that the write covers. -/
def Obj.rewrites (h row : Nat) (o n : Obj) (covered : List Nat) : Obj :=
  let old := (o.shadow.or (o.cur.map (·.content))).getD Content.empty
  let new := n.shadow.getD Content.empty
  { n with repaired := n.repaired ++
      ((n.damaged.filter fun g => covered.contains g || homeImage h old g != homeImage h new g).map fun g => (g, row)) }

/-- The tiers in which an object that is replaced takes its owner above Q_o (R183). -/
def Dev.overQuota (d : Dev) (h : Nat) (o : Obj) : List Nat :=
  let owner := handleOwner h
  let objs := nset d.objs h o
  let raw := d.tiers.raw
  [1, 2, 3].filter fun t => d.quota t owner < ownerUse raw objs owner t && ownerUse raw d.objs owner t < ownerUse raw objs owner t

/-- The content after software's bytes are written at an offset (R147, R210, R211): an index takes no byte at or past its
codebook's end, and a change of a structural field empties it. The second component counts the bytes taken in. -/
def loadBytes (kind : Nat) (c : Content) (off : Nat) (bs : List Byte) : Content × Nat :=
  if kind ≠ 1 then ({ c with bytes := c.bytes.writeN off bs }, bs.length)
  else
    let head := c.bytes.writeN off (bs.take (0x80 - off))
    let lim := ixEnd head
    let taken := bs.take (lim - off)
    let b := c.bytes.writeN off taken
    (if ixStruct b = ixStruct c.bytes then { c with bytes := b } else ⟨b, ⟨[], [], []⟩⟩, taken.length)

end Sys2Proof.Machine
end

