-- ==== Sys2Proof/Machine/Foot.lean ====
section
/-! DEFINITION. Footprints and step programs: what each command reserves at admission and the rows it runs
(R123, R124, R226 to R228, R258, R324, R330, R342 to R348, R356, R363, R368, R376, R377, R560, R566, R567). -/

namespace Sys2Proof.Machine

/-- The current epoch of an object at admission (R153). -/
def Dev.curEpoch (d : Dev) (h : Nat) : Option Epoch := (nget d.objs h).bind Obj.cur

/-- The content that strands admitted now would pin. -/
def Dev.curContent (d : Dev) (h : Nat) : Content := match d.curEpoch h with | some e => e.content | none => Content.empty

/-- The input buffer of a command: IN_LEN bytes (R104). -/
def Cmd.inp (c : Cmd) : List Byte := c.input.take c.inLen

/-- The handle of the index a command searches; a RETRIEVE_GENERATE names none (log 18). -/
def Cmd.index (c : Cmd) : Nat := if c.opcode = 0x19 then Config.retrieveIndex c.q.tenant c.sqe else c.object

/-- The query encoder, cross-encoder, passage store and filter of a command that retrieves. -/
def Cmd.encoder (c : Cmd) : Nat := if c.opcode = 0x10 then c.object else c.search.embedModel
def Cmd.reranker (c : Cmd) : Nat := c.search.rerank

/-- K of the first pass and the larger of K and CANDIDATES (R105). -/
def Cmd.kPrime (c : Cmd) : Nat :=
  if c.opcode = 0x11 then c.search.k else max c.search.k c.search.candidates

/-- E of R361: where the prompt region ends; the whole buffer for EMBED and RETRIEVE_RANK. -/
def Cmd.regionEnd (c : Cmd) : Nat :=
  if c.isGen then
    let lim (use : Bool) (v m : Nat) : Nat := if use then min v m else m
    lim (c.stopCount != 0) c.stopOff (lim (c.samplingOff != 0) c.samplingOff
      (lim (c.opcode == 0x19 && bits (c.dw 13) 15 0 != 0) (bits (c.dw 13) 15 0) c.inLen))
  else c.inLen

/-- INPUT_TOKENS of EMBED and GENERATE. -/
def Cmd.tokenInput (c : Cmd) : Bool := if c.opcode = 0x10 then bit (c.dw 8) 0 else c.isGen && c.genFlag 0

/-- The text, or the tokens, of the prompt region (R361). -/
def Cmd.text (c : Cmd) : List Byte := promptText c.inp c.regionEnd
def Cmd.tokens (c : Cmd) : List Nat := promptTokens c.inp c.regionEnd

/-- Cycles of a tokenise stitch of n bytes and of a copy of t tokens (R356). -/
def tokCycles (n : Nat) : Nat := 96 * n + 4096
def copyCycles (t : Nat) : Nat := ceilDiv t 16 + 1024

/-- The text stitches of a command: rows and cycles of one (R363, R368). -/
def Cmd.textRows (c : Cmd) (B : Nat) : Nat × Nat :=
  if c.tokenInput then (1, copyCycles c.tokens.length)
  else (tokRows B c.text.length, tokCycles (min c.text.length (tokQ B)))

/-- The period record of a model in force. -/
def Dev.recOf (d : Dev) (m : Content) : PeriodRec := ((pattern m.bytes).rec? d.period).getD .zero

/-! Stitches of a step (R31, R123, R130) -/

/-- Cycles cut into stitches no longer than w each: a pattern's stitches of a type take at most W (R31, R126, R130, log 22). -/
def cutCycles (w c : Nat) : List Nat :=
  if c = 0 then [] else if w = 0 then [c] else (List.range (ceilDiv c w)).map fun i => min w (c - i * w)

/-- Stitches of one type from their cycles. -/
def stitchesOf (u : Nat) (role : Role) (turn : Nat) (cycles : List Nat) : List Stitch :=
  cycles.zipIdx.map fun p => ⟨u, p.1, role, p.2, turn⟩

/-- A pattern's cycles of some types as stitches of at most W each. -/
def sharesOf (role : Role) (turn : Nat) (r : PeriodRec) (c types : List Nat) : List Stitch :=
  types.flatMap fun u => stitchesOf u role turn (cutCycles (r.w.getD u 0) (c.getD u 0))

/-- One stitch of a type, and the stitch of a row that takes no unit (R566). -/
def oneStitch (u cycles : Nat) : List Stitch := [⟨u, cycles, .share, 0, 0⟩]
def noUnit : List Stitch := oneStitch 5 0

/-- A row with no stitch has the one that takes no unit. -/
def orNone (l : List Stitch) : List Stitch := if l.isEmpty then noUnit else l

/-- Stitches put behind others of the same row: they start when those have ended. -/
def afterTurn (l : List Stitch) : List Stitch := l.map fun x => { x with turn := x.turn + 1 }

/-- Cycles of a step on a type; the shares of a decode pass are the lane's (R346). -/
def Step.cyclesOn (st : Step) (u : Nat) : Nat :=
  sumNat (st.stitches.map fun x => if x.utype = u && x.role != .pass then x.cycles else 0)

/-- The most cycles that the steps of a class take in one row, by type (R123). -/
def peak (steps : List Step) (cls : Nat) : List Nat :=
  (List.range 5).map fun u => maxNat (steps.map fun st => if st.cls = cls then st.cyclesOn u else 0)

/-- The rows of one phase, each pass of `per` rows, the last marked. -/
def phase (kind : Kind) (cls : Nat) (stitches : List Stitch) (rows per : Nat) : List Step :=
  (List.range rows).map fun i => ⟨kind, cls, i % max 1 per, i + 1 == rows, stitches⟩

/-- The first step, or the last, changed. -/
def changeFirst (f : Step → Step) : List Step → List Step
  | [] => []
  | s :: l => f s :: l
def changeLast (f : Step → Step) : List Step → List Step
  | [] => []
  | [s] => [f s]
  | s :: l => s :: changeLast f l

/-- The rows of an encoder, cross-encoder or ranker over some items (R342). -/
def Dev.passRows (d : Dev) (kind : Kind) (m : Content) (items : Nat) : List Step :=
  let r := d.recOf m
  phase kind 0 (orNone (sharesOf .share 0 r r.cL [0, 1, 2, 3, 4])) (invRows (pattern m.bytes) d.period items) r.invRows

/-- The rows of an encoder with its tokenisation: the last tokenise stitch runs in the encoder's first row, ahead of its stitches
(R363, R560). -/
def Dev.encoderRows (d : Dev) (c : Cmd) (m : Content) : List Step :=
  let (rows, cyc) := c.textRows d.budget
  phase .tokenise 0 (oneStitch 3 cyc) (rows - 1) 1 ++
    changeFirst (fun st => { st with stitches := ⟨3, cyc, .tokens, 0, 0⟩ :: afterTurn st.stitches }) (d.passRows .embed m 1)

/-- Cycles of one shard's stitch in a walk or scan row (R228, log 21). -/
def searchCycles (B : Nat) (x : IxDesc) (a : SearchArgs) : Nat :=
  Config.searchPeak [x.cls, x.metric, x.fmt, x.dim, x.nbrs, x.shards, x.waves, x.fanout, a.k, a.candidates, a.ext, a.depth, a.overf] % (B + 1)

/-- Inputs a search's selection can hold (R246). -/
def selectInputs (x : IxDesc) : Nat := x.shards * 1024

/-- The rows of a selection of k from n inputs: one stitch each (R252, R256). -/
def selectSteps (kind : Kind) (B k n : Nat) : List Step :=
  let l := selectSplit B k n n
  l.zipIdx.map fun p => ⟨kind, 0, 0, p.2 + 1 == l.length, [⟨4, min B p.1, .select, 0, 0⟩]⟩

/-- The stitches of one wave or scan row: one for each shard (R226, R227). -/
def shardStitches (x : IxDesc) (cyc wave turn : Nat) : List Stitch :=
  (List.range x.shards).map fun i => ⟨2, cyc, .shard wave i, wave * x.shards + i, turn⟩

/-- A short test, which runs when the wave or scan stitches before it have committed (R238; its cycles: log 21). -/
def shortTestStitch (B : Nat) (x : IxDesc) (turn : Nat) : Stitch := ⟨4, min B (selectCycles 1 (selectInputs x) (selectInputs x)), .test, 0, turn⟩

/-- The walk rows: the short test follows the last wave, in whichever row the walk ends (R224, R226, R238). -/
def walkSteps (P B : Nat) (x : IxDesc) (cyc ext : Nat) : List Step :=
  phase .walk 0 (shardStitches x cyc 0 0 ++ if ext = 0 then [] else [shortTestStitch B x 1]) (ceilDiv x.waves (wavesPerRow P)) 1

/-- The extension rows: w waves each, and a short test after every wave but the last extension's (R225, R226, R238). -/
def extendSteps (P B : Nat) (x : IxDesc) (cyc ext : Nat) : List Step :=
  let w := wavesPerRow P
  (List.range (ceilDiv ext w)).map fun r =>
    let waves := (List.range (min w (ext - r * w))).flatMap fun j =>
      shardStitches x (cyc / w) j (2 * j) ++ if r * w + j + 1 = ext then [] else [shortTestStitch B x (2 * j + 1)]
    ⟨.extend, 0, r, false, waves⟩

/-- The scan rows of one pass: a short test in its last row but for the last extension (R227, R238). -/
def scanSteps (kind : Kind) (B : Nat) (x : IxDesc) (ix : IndexBody) (cyc : Nat) (tested : Bool) : List Step :=
  changeLast (fun st => if tested then { st with stitches := st.stitches ++ [shortTestStitch B x 1] } else st)
    (phase kind 0 (shardStitches x cyc 0 0) (scanRows x ix) (scanRows x ix))

/-- The rows of a search without its completion row (R226, R227, R452). A spanning search broadcasts before and gathers after: the master
selects from the lists of `gather` modules, and a part (0) sends its list in one row. -/
def searchSteps (P B : Nat) (x : IxDesc) (ix : IndexBody) (a : SearchArgs) (k : Nat) (gather : Option Nat) : List Step :=
  let cyc := searchCycles B x a
  let body :=
    if x.cls = 0 then walkSteps P B x cyc a.ext ++ extendSteps P B x cyc a.ext
    else scanSteps .scan B x ix cyc (a.ext != 0) ++ ((List.range a.ext).map fun e => scanSteps .rescan B x ix cyc (e + 1 != a.ext)).flatten
  let tail : List Step := match gather with
    | none => []
    | some 0 => [⟨.gather, 0, 0, true, noUnit⟩]
    | some n => selectSteps .gather B k (n * min k (selectInputs x))
  (if gather.isSome then [⟨.broadcast, 0, 0, true, noUnit⟩] else []) ++ [⟨.prep, 0, 0, true, shardStitches x cyc 0 0⟩] ++ body ++
    selectSteps .select B k (selectInputs x) ++ tail

/-- The rows of a re-rank: its passes, then the final selection, which begins in the last re-rank row (R256, R258, R560). -/
def Dev.rerankSteps (d : Dev) (c : Cmd) (m : Content) : List Step :=
  match selectSplit d.budget c.search.k c.kPrime c.kPrime with
  | [] => d.passRows .rerank m c.kPrime
  | s :: more =>
    let sel (cyc turn : Nat) : Stitch := ⟨4, min d.budget cyc, .select, 0, turn⟩
    changeLast (fun st => { st with last := more.isEmpty, stitches := st.stitches ++ [sel s 1] }) (d.passRows .rerank m c.kPrime) ++
      more.zipIdx.map fun p => ⟨.resort, 0, 0, p.2 + 1 == more.length, [sel p.1 0]⟩

/-- The modules whose lists the master of a spanning command gathers. -/
def Dev.gatherOf (d : Dev) (spans : Bool) : Option Nat := if spans then some (max 1 d.cas.modules) else none

/-- Rows of a retrieval beyond the search: the fetch row of R560, the fetch rows of a spanning retrieval (R452), the re-rank. -/
def Dev.retrieveSteps (d : Dev) (c : Cmd) (spans : Bool) : List Step :=
  let a := c.search
  let enc := d.curContent c.encoder
  let ixc := d.curContent c.index
  let x := ixDesc ixc.bytes
  let f := (if d.period < 200 && a.candidates != 0 then 1 else 0) + (if spans then 2 else 0)
  d.encoderRows c enc ++ searchSteps d.period d.budget x ixc.index a c.kPrime (d.gatherOf spans) ++ phase .fetch 0 noUnit f f ++
    (if a.candidates = 0 then [] else d.rerankSteps c (d.curContent c.reranker))

/-- The stitches of a decode or head row: the strand's own, and the lane's pass (R346). -/
def decodeStitches (r : PeriodRec) : List Stitch :=
  orNone (sharesOf .pass 0 r [r.passS, r.passB] [0, 1] ++ sharesOf .share 0 r r.cD [0, 1, 2])

/-- The stitches of a sampling row: selections on select-and-merge units, then the masks and the draw on text engines (R393). -/
def sampleStitches (r : PeriodRec) : List Stitch :=
  orNone (sharesOf .select 0 r r.cD [4] ++ sharesOf .share 1 r r.cD [3])

/-- The rows of a round of a decoder (R343, R347): layers, head, sampling, idle rows. -/
def Dev.roundSteps (d : Dev) (m : Content) (prefill sample : Bool) : List Step :=
  let md := modelDesc m.bytes
  let p := pattern m.bytes
  let r := d.recOf m
  (List.range p.roundRows).map fun i =>
    if i < md.layers then
      (if prefill then ⟨.prefill, 2, i, false, orNone (sharesOf .share 0 r r.cP [0, 1, 2, 3, 4])⟩ else ⟨.decode, 1, i, false, decodeStitches r⟩)
    else if i = md.layers && sample then ⟨.head, 1, i, false, decodeStitches r⟩
    else if i = md.layers + 1 && sample then ⟨.sample, 1, i, i + 1 == p.roundRows, sampleStitches r⟩
    else ⟨.idle, 1, i, i + 1 == p.roundRows, []⟩

/-- A footprint with nothing in it. -/
def Foot.zero : Foot := ⟨0, [0, 0, 0, 0, 0], [0, 0, 0, 0, 0], [0, 0, 0, 0, 0], 0, 0, 0, 0, 0⟩

/-- Per-type maxima of two rows of cycles: the larger of each. -/
def maxRow (a b : List Nat) : List Nat := (List.range 5).map fun u => max (a.getD u 0) (b.getD u 0)

/-- A row of cycles with one type. -/
def oneType (u n : Nat) : List Nat := (List.range 5).map fun v => if v = u then n else 0

/-- T2 granules when a model's weights are in T2: one (log 23). -/
def modelT2 (m : Content) : Nat := if (modelDesc m.bytes).tier = 1 then 1 else 0

/-- The token bound T of a generation (R124). -/
def tokenBound (c : Cmd) (ctx : Nat) (bos : Bool) : Nat :=
  if c.opcode = 0x19 then ctx
  else if c.tokenInput then c.tokens.length + c.maxNew
  else min ctx (c.text.length + c.maxNew + b2n bos)

/-- Cycles of the pack stitch at its most (R356): K passages, the budget's tokens, every byte of template text and query. -/
def packCycles (c : Cmd) (tpl : Content) (budget : Nat) : Nat :=
  2048 + 512 * c.search.k + ceilDiv budget 16 +
    96 * (sumNat ((tplPieces tpl.bytes).map fun p => if p.1 = 0 || p.1 = 2 then p.2.1 else 0) + c.text.length)

/-- Rows of packing (R377). -/
def Dev.packRows (d : Dev) : Nat := if 200 ≤ d.period then 1 else 2

/-- The lanes a decoder epoch holds. -/
def Dev.lanesOf (d : Dev) (h stamp : Nat) : Option Lanes := d.lanes.find? fun l => l.handle == h && l.stamp == stamp

/-- The first round start of an origin no earlier than a row (R344). -/
def joinRow (origin round row : Nat) : Nat := roundStart origin round row

/-- What a command reserves and runs: the footprint, the steps known at admission, and the handles it pins (R123, R154). -/
structure Plan where
  foot : Foot
  steps : List Step
  pins : List Nat
  deriving DecidableEq, Repr

/-- Handles a model brings with it (R335). -/
def Dev.modelPins (d : Dev) (h : Nat) : List Nat := h :: (modelDesc (d.curContent h).bytes).tables

/-- The part of a search in a footprint (R228). -/
def searchFoot (P B : Nat) (x : IxDesc) (ix : IndexBody) (a : SearchArgs) (k : Nat) (gather : Option Nat) : Foot :=
  { Foot.zero with
    n := (searchSteps P B x ix a k gather).length + 1
    l := peak (searchSteps P B x ix a k gather) 0
    t0 := x.shards * searchT0 x a.depth, t2 := 1, slots := x.shards, markers := 1 }

/-- The plan of a command that has passed the earlier checks, from the objects current now. -/
def Dev.plan (d : Dev) (c : Cmd) (spans : Bool) : Plan :=
  let B := d.budget
  let P := d.period
  let ob := d.curContent c.object
  match c.opcode with
  | 0x10 =>
    let st := d.encoderRows c ob
    ⟨{ Foot.zero with n := st.length + 1, l := peak st 0, t0 := (pattern ob.bytes).t0Scratch,
                      t2 := modelT2 ob, markers := 1 }, st, d.modelPins c.object⟩
  | 0x11 =>
    let x := ixDesc ob.bytes
    ⟨searchFoot P B x ob.index c.search c.kPrime (d.gatherOf spans), searchSteps P B x ob.index c.search c.kPrime (d.gatherOf spans),
     [c.object, c.search.filter].filter (· != 0)⟩
  | 0x12 =>
    let st := d.retrieveSteps c spans
    let x := ixDesc ob.bytes
    let enc := d.curContent c.encoder
    let re := d.curContent c.reranker
    let sf := searchFoot P B x ob.index c.search c.kPrime (d.gatherOf spans)
    ⟨{ sf with n := st.length + 1
               l := peak st 0
               t0 := sf.t0 + (pattern enc.bytes).t0Scratch + (if c.reranker = 0 then 0 else (pattern re.bytes).t0Scratch) }, st,
     ([c.object, c.search.filter, c.search.passages].filter (· != 0)) ++ d.modelPins c.encoder ++
       (if c.reranker = 0 then [] else d.modelPins c.reranker)⟩
  | 0x13 =>
    let st := d.passRows .rank ob (c.dw 8)
    ⟨{ Foot.zero with n := st.length + 1, l := peak st 0, t0 := (pattern ob.bytes).t0Scratch, t2 := modelT2 ob, markers := 1 },
     st, d.modelPins c.object⟩
  | 0x14 =>
    let t := tblDesc ob.bytes
    let lookups := c.dw 9
    let pr := lookupPr B t lookups
    let s64 := ceilDiv (tblStride t) 64
    let s := ceilDiv lookups (8 * pr) * s64 + 2048
    let sm := 5 * ceilDiv lookups 64 + 2048
    let inT2 := match d.curEpoch c.object with | some e => e.t1 < t.rows | none => false
    let st := ⟨.lookup, 0, 0, false, oneStitch 4 sm⟩ :: phase .lookup 0 (stitchesOf 0 .share 0 (List.replicate 8 s)) pr pr
    ⟨{ Foot.zero with n := 2 + pr, l := peak st 0
                      t0 := ceilDiv (16 * lookups) 4096 + ceilDiv (4 * c.dw 8 * t.dim) 4096, t2 := b2n inT2, markers := 1 },
     st, [c.object]⟩
  | 0x15 =>
    let t := tblDesc ob.bytes
    let vu := updateVu B t
    let rows := ceilDiv (c.dw 8) (max 1 vu)
    let s := min B (ceilDiv (c.dw 8) 8 * (ceilDiv (4 * t.dim) 64 + 2 * ceilDiv (tblStride t) 64 + 16) + 2048)
    let st := ⟨.update, 2, 0, false, oneStitch 4 (5 * ceilDiv (c.dw 8) 64 + 2048)⟩ ::
      phase .update 2 (stitchesOf 0 .share 0 (List.replicate 8 s)) rows rows
    ⟨{ Foot.zero with n := 2 + rows, p := peak st 2
                      t0 := ceilDiv (c.dw 8 * (64 + 4 * t.dim)) 4096, t2 := 1, markers := 1 },
     st, [c.object]⟩
  | 0x18 =>
    let md := modelDesc ob.bytes
    let p := pattern ob.bytes
    let v := vocabOf ob.bytes
    let T := tokenBound c md.context (!v.noBos)
    let (rows, cyc) := c.textRows B
    let origin := match d.curEpoch c.object with
      | some e => (match d.lanesOf c.object e.stamp with | some l => l.origin | none => d.row.number + 2)
      | none => d.row.number + 2
    let s := joinRow origin p.roundRows (d.row.number + 1 + rows)
    let r := d.recOf ob
    ⟨{ Foot.zero with n := genRows p d.row.number s (max 1 (T - c.maxNew)) c.maxNew
                      d := maxRow r.cD [], p := maxRow r.cP (oneType 3 cyc)
                      t0 := p.t0Scratch, kv := kvPages md T, t2 := modelT2 ob, markers := 1 },
     phase .tokenise 2 (oneStitch 3 cyc) rows 1, d.modelPins c.object ++ [c.grammar].filter (· != 0)⟩
  | 0x19 =>
    let md := modelDesc ob.bytes
    let p := pattern ob.bytes
    let a := c.search
    let ixc := d.curContent c.index
    let x := ixDesc ixc.bytes
    let enc := d.curContent c.encoder
    let re := d.curContent c.reranker
    let tpl := d.curContent a.template
    let sf := searchFoot P B x ixc.index a c.kPrime (d.gatherOf spans)
    let budget := md.context - c.maxNew
    let packs := phase .pack 2 (oneStitch 3 (packCycles c tpl budget)) d.packRows 1
    let st := d.retrieveSteps c spans ++ packs
    let origin := match d.curEpoch c.object with
      | some e => (match d.lanesOf c.object e.stamp with | some l => l.origin | none => d.row.number + 2)
      | none => d.row.number + 2
    let s := joinRow origin p.roundRows (d.row.number + 1 + st.length)
    let r := d.recOf ob
    ⟨{ sf with n := genRows p d.row.number s (max 1 budget) c.maxNew
               l := peak st 0
               d := maxRow r.cD [], p := maxRow r.cP (oneType 3 (packCycles c tpl budget))
               t0 := sf.t0 + (pattern enc.bytes).t0Scratch + (if c.reranker = 0 then 0 else (pattern re.bytes).t0Scratch) +
                     p.t0Scratch + ceilDiv (4 * budget) 4096
               kv := kvPages md md.context, t2 := sf.t2 + modelT2 ob }, st,
     d.modelPins c.object ++ [c.grammar, c.index, a.filter, a.passages, a.template].filter (· != 0) ++ d.modelPins c.encoder ++
       (if c.reranker = 0 then [] else d.modelPins c.reranker)⟩
  | 0x20 | 0x21 =>
    let x := ixDesc ob.bytes
    let insert := c.opcode = 0x20
    let size := if insert then ixEntrySize x else 8
    let n := min (c.dw 8) (c.inLen / max 1 size)
    let per := if insert then 256 + x.dim else 64
    let vw := max 1 ((B - 2048) / per)
    let rows := max 1 (ceilDiv n vw)
    let cyc := min n vw * per + 2048
    ⟨{ Foot.zero with n := 1 + rows, p := oneType 2 cyc, t0 := 16 + ceilDiv (min n vw * size) 4096, t2 := 1, markers := 1 },
     phase (if insert then .insert else .delete) 2 (oneStitch 2 cyc) rows rows, [c.object]⟩
  | 0x22 =>
    ⟨{ Foot.zero with n := 2, p := oneType 2 2048, t0 := 1, t2 := 1, slots := 1, markers := 1 }, [⟨.build, 2, 0, true, oneStitch 2 2048⟩], [c.object]⟩
  | _ =>
    let vo := 16384 * P
    let rows := ceilDiv c.inLen vo
    ⟨{ Foot.zero with n := 1 + rows, t0 := 16, t2 := 2 * ceilDiv vo 65536, markers := 1 }, phase .transfer 2 noUnit rows rows, [c.object]⟩

end Sys2Proof.Machine
end

