-- ==== Sys2Proof/Machine/Flags.lean ====
section
/-! DEFINITION. Flags and signals: PG_STAT, the error block, tenant events, MSI-X vectors and ALERT_N (R61 to R63, R92, R111, R462, R463, R544). -/

namespace Sys2Proof.Machine

/-- The value of PG_STAT (R61). -/
def pgStat (x : Page) : Nat :=
  x.active % 4096 * 2 ^ 16 + b2n x.dirty * 64 + b2n x.checking * 32 + b2n x.spare * 16 + b2n x.probing * 8 + b2n x.fenced * 4 +
    b2n x.refused * 2 + b2n x.running

/-- The MSI-X vector-control word of a vector: VF slot 0x42, or PF BAR2 (R86, R111). -/
def msixCtrl (fn vec : Nat) : Nat := if fn = 0 then regKey 17 (16 * vec + 12) else regKey fn (0x42000 + 16 * vec + 12)

/-- The word of the pending-bit array that holds a vector's bit. -/
def msixPba (fn vec : Nat) : Nat := (if fn = 0 then regKey 17 0x8000 else regKey fn 0x43000) + 4 * (vec / 32)

/-- A vector raised: a message, or its pending bit while it is masked (R111). -/
def Dev.vector (d : Dev) (fn vec : Nat) : Dev :=
  if bit (d.rg (msixCtrl fn vec)) 0 then d.put (msixPba fn vec) (setBit (d.rg (msixPba fn vec)) (vec % 32) true)
  else d.emit (.msix fn vec)

/-- A tenant event (R92): set only while the tenant's page on the PF runs; an unmasked event raises vector 64. -/
def Dev.event (d : Dev) (t b : Nat) : Dev :=
  if d.on (tenantPage t) then
    let k := regKey t 0x10C
    let d := d.put k (setBit (d.rg k) b true)
    if bit (d.rg (regKey t 0x110)) b then d else d.vector t 64
  else d

/-- The conditions of ALERT_N (R544): a selected flag, a sag, a temperature of MG_TEMP0 to MG_TEMP2 in a warning. -/
def Dev.alertFlags (d : Dev) : Bool :=
  pfSlots.any fun s =>
    let e := d.rg (pf s 0x020)
    e != 0 && Nat.land (Nat.land e (d.rg (pf 7 0x104))) (4095 - d.rg (pf s 0x024) % 4096) != 0

/-- A temperature of MG_TEMP0 to MG_TEMP2 is at or above its warning threshold: 100 °C for a junction, 65 °C for the outlet (R544, R552). -/
def Dev.tempHigh (d : Dev) : Bool :=
  800 ≤ bits (d.rg (pf 0x00A 0x108)) 27 16 || 800 ≤ bits (d.rg (pf 0x00A 0x10C)) 27 16 || 800 ≤ bits (d.rg (pf 0x00A 0x10C)) 11 0 ||
    520 ≤ bits (d.rg (pf 0x00A 0x110)) 27 16

/-- MG_ALERT (R557): LINE, THERMAL, SAG, FLAGS. -/
def Dev.alertWord (d : Dev) : Nat :=
  let flags := d.alertFlags
  let thermal := d.tempHigh
  let mine := flags || thermal || d.power.sag
  b2n (mine || d.mgmt.lineLow) * 256 + b2n thermal * 4 + b2n d.power.sag * 2 + b2n flags

/-- MG_ALERT brought up to date; each change sends a PLDM platform event message (R544, R553). -/
def Dev.alert (d : Dev) : Dev :=
  let v := d.alertWord
  if d.rg (pf 0x00A 0x11C) = v then d
  else ((d.put (pf 0x00A 0x11C) v).bump (pf 0x00A 0x044) 1).emit (.mctp 1 0x0A [v])

/-- Flags of PG_ERR_STAT set on a page; an unmasked flag raises PF vector 1 (R462). -/
def Dev.errFlag (d : Dev) (p b : Nat) : Dev :=
  let k := pf p 0x020
  let d := d.put k (setBit (d.rg k) b true)
  (if bit (d.rg (pf p 0x024)) b then d else d.vector 0 1).alert

/-- An error of a class with its code and location: flag, PG_ERR_FIRST and location of the first unmasked error (R462, R463). -/
def Dev.error (d : Dev) (p b code loc : Nat) : Dev :=
  let masked := bit (d.rg (pf p 0x024)) b
  let first := !masked && !(d.firsts.contains p)
  let d := if first then
      ((({ d with firsts := p :: d.firsts }).put (pf p 0x028) (code % 65536 * 65536 + d.row.number % 65536)).put64 (pf p 0x038) loc)
    else d
  d.errFlag p b

/-- A refusal on account of a page: PG_REASON and PG_STAT.REFUSED (R63). -/
def Dev.refuse (d : Dev) (p code : Nat) : Dev := (d.put (p * 4096 + 0x010) code).modPage p fun x => { x with refused := true }

/-- A check or publish involving the page passed (R63). DESIGN CHOICE (log 72, point 3): a pass leaves PG_STAT.REFUSED and
DEV_PUB_STAT.REFUSED as they are until software clears them; the spec does not say that a pass clears them. -/
def Dev.pass (d : Dev) (p : Nat) : Dev := d.put (p * 4096 + 0x010) 0

end Sys2Proof.Machine
end

