-- ==== Sys2Proof/Machine/Queue.lean ====
section
/-! DEFINITION. Queue pairs and the admin queue: doorbells, fetch flow control, completion entries and their MSI-X messages
(R96 to R100, R108 to R112). -/

namespace Sys2Proof.Machine

/-- A completion entry before it is laid out (R108). -/
structure Cqe where
  cid : Nat
  /-- bits [24:19] of dword 1 as a number: 1 NO_STRAND, 2 TIE_AT_K, 4 DUP_CONFLICT, 8 TRUNCATED, 16 EMPTY_BAG, 32 NAN_SEEN -/
  flags : Nat
  /-- 0 final, 1 stream -/
  kind : Nat
  status : Nat
  reason : Nat
  strand : Nat
  count : Nat
  admitRow : Nat
  drops : Nat
  rows : Nat
  extra : Nat
  epoch : Nat
  deriving DecidableEq, Repr

/-- The eight dwords of a completion entry (R108). -/
def Cqe.words (c : Cqe) (sqHead : Nat) (phase : Bool) : List Nat :=
  [sqHead % 65536 * 65536 + c.cid % 65536,
   c.flags % 64 * 2 ^ 19 + c.kind % 4 * 2 ^ 17 + b2n phase * 65536 + c.status % 65536,
   c.reason % 65536 * 65536 + c.strand % 16384,
   c.count % 2 ^ 32, c.admitRow % 2 ^ 32, min c.drops 65535 * 65536 + min c.rows 65535, c.extra % 2 ^ 32, c.epoch % 2 ^ 32]

/-- QP_STAT bits: the queue has stopped under R108; a disable waits for outstanding commands (R93). -/
def Dev.queueError (d : Dev) (q : QRef) : Bool := bit (d.rg (queueStat q)) 0
def Dev.draining (d : Dev) (q : QRef) : Bool := bit (d.rg (queueStat q)) 1
def Dev.setQueueBit (d : Dev) (q : QRef) (n : Nat) (b : Bool) : Dev := d.put (queueStat q) (setBit (d.rg (queueStat q)) n b)

/-- A counter of a VF's queue-pair page; the admin queue has none (R112). -/
def Dev.bumpQp (d : Dev) (q : QRef) (off : Nat) : Dev := if q.tenant = 0 then d else d.bump (queueReg q off 0) 1

/-- Coalescing count, delay in rows, enable and vector of a queue; the admin queue as if COUNT were 1 and IRQ_EN set (R112). -/
def Dev.irq (d : Dev) (q : QRef) : Nat × Nat × Bool × Nat :=
  if q.tenant = 0 then (1, 0, true, 0)
  else let w := d.rg (queueReg q 0x114 0); (bits w 23 16, bits w 31 24, bit w 15, bits w 5 0)

/-- The queue's vector raised: its pending count clears, and QP_IRQ_SENT counts a message that goes out (R93, R111). DESIGN CHOICE (log 72,
point 9): a vector that is masked, and so only sets its pending bit, clears the pending count too. -/
def Dev.sendIrq (d : Dev) (q : QRef) : Dev :=
  let d := d.modQp q fun x => { x with irqPending := 0 }
  let vec := (d.irq q).2.2.2
  let sent := !bit (d.rg (msixCtrl q.tenant vec)) 0
  let d := d.vector q.tenant vec
  if sent then d.bumpQp q 0x050 else d

/-- An entry counted toward the queue's message (R111). DESIGN CHOICE (log 72, point 8): COUNT is compared when an entry is posted, so a write
that sets IRQ_EN or lowers COUNT sends nothing by itself. -/
def Dev.countIrq (d : Dev) (q : QRef) : Dev :=
  let row := d.row.number
  let d := d.modQp q fun x => { x with irqRow := if x.irqPending = 0 then row else x.irqRow, irqPending := x.irqPending + 1 }
  let (count, _, en, _) := d.irq q
  if en && count ≤ (d.qp q).irqPending then d.sendIrq q else d

/-- A completion entry written to the ring, and its message (R97, R108, R111). -/
def Dev.post (d : Dev) (q : QRef) (noIrq : Bool) (c : Cqe) : Dev :=
  let x := d.qp q
  let d := d.emit (.cqe q x.cqTail (c.words x.head x.phase))
  let wrap := d.cqEntries q ≤ x.cqTail + 1
  let d := d.modQp q fun x => { x with cqTail := if wrap then 0 else x.cqTail + 1, phase := x.phase != wrap,
                                       unreturned := x.unreturned + 1 }
  if noIrq then d else d.countIrq q

/-- A final completion of a fetched command: F falls, and QP_COMPLETED and QP_REFUSED count it (R93, R97). -/
def Dev.finish (d : Dev) (c : Cmd) (e : Cqe) : Dev :=
  let d := (d.modQp c.q fun x => { x with outstanding := x.outstanding - 1 }).bumpQp c.q 0x044
  let d := if e.status = 0x10 then d.bumpQp c.q 0x048 else d
  d.post c.q c.noIrq { e with cid := c.cid, kind := 0 }

/-- A final completion without a strand: status, reason, count and EXTRA (R106, R122). -/
def Dev.finishNoStrand (d : Dev) (c : Cmd) (status reason count extra : Nat) : Dev :=
  d.finish c ⟨c.cid, 1, 0, status, reason, 0, count, 0, 0, 0, extra, 0⟩

/-- A stream completion, posted only while U + 1 + F fits, else skipped and counted (R97). -/
def Dev.stream (d : Dev) (c : Cmd) (e : Cqe) : Dev :=
  let x := d.qp c.q
  if x.unreturned + 1 + x.outstanding ≤ d.cqEntries c.q then d.post c.q c.noIrq { e with cid := c.cid, kind := 1 }
  else d.bumpQp c.q 0x04C

/-- A rejected doorbell value: DB_ERR, and on a VF the QP_ERR event and its count (R99). -/
def Dev.dbError (d : Dev) (q : QRef) : Dev :=
  let d := d.setQueueBit q 2 true
  if q.tenant = 0 then d else (d.bump (regKey q.tenant 0x040) 1).event q.tenant 0

/-- The tail that the next doorbell is measured from: the last one accepted. -/
def Qp.seenTail (x : Qp) : Nat := x.tailNew.getD x.tail

/-- Where a doorbell register of a queue lies (R96, R112). -/
def doorbellKey (q : QRef) (cq : Bool) : Nat :=
  if q.tenant = 0 then pf 0x00C (if cq then 0x124 else 0x120) else regKey q.tenant (0x41000 + 8 * q.qp + (if cq then 4 else 0))

/-- An SQ tail is rejected: not below the ring size, or more than size − 1 entries pending (R99). -/
def Dev.sqTailBad (d : Dev) (q : QRef) (tail : Nat) : Bool :=
  let n := d.sqEntries q
  let x := d.qp q
  n ≤ tail || n - 1 < (x.seenTail + n - x.head) % n + (tail + n - x.seenTail) % n

/-- The head that the next CQ doorbell is measured from: the last one accepted. -/
def Qp.seenHead (x : Qp) : Nat := (x.cqNew.map (·.1)).getD x.cqHead

/-- Slots that accepted heads return in the next access window. -/
def Qp.returning (x : Qp) : Nat := (x.cqNew.map (·.2)).getD 0

/-- Slots that a head returns beyond the last one accepted, of a ring of n entries. -/
def Qp.slotsTo (x : Qp) (n head : Nat) : Nat := (head + n - x.seenHead) % n

/-- A CQ head is rejected: not below the ring size, or it returns slots that have not been posted (R99). -/
def Dev.cqHeadBad (d : Dev) (q : QRef) (head : Nat) : Bool :=
  let n := d.cqEntries q
  let x := d.qp q
  n ≤ head || x.unreturned < x.returning + x.slotsTo n head

/-- An SQ doorbell (R96, R99, R100): it reaches control group 0 in the next access window. -/
def Dev.sqDoorbell (d : Dev) (q : QRef) (tail : Nat) : Dev :=
  if !d.queueOn q then d
  else if d.sqTailBad q tail then d.dbError q
  else (d.put (doorbellKey q false) tail).modQp q fun x => { x with tailNew := some tail }

/-- A CQ doorbell (R96, R99, R100): the slots up to the new head are returned in the next access window. -/
def Dev.cqDoorbell (d : Dev) (q : QRef) (head : Nat) : Dev :=
  if !d.queueOn q then d
  else if d.cqHeadBad q head then d.dbError q
  else
    let n := d.cqEntries q
    (d.put (doorbellKey q true) head).modQp q fun x => { x with cqNew := some (head, x.returning + x.slotsTo n head) }

/-- What the doorbells of a queue have brought reaches control group 0 (R54, R100). -/
def Qp.window (x : Qp) : Qp :=
  { x with tail := x.seenTail, tailNew := none, unreturned := x.unreturned - x.returning, cqHead := x.seenHead, cqNew := none }

/-- Lost strands of a queue wait for their reports: nothing is fetched before them (R504). -/
def Dev.lostWaiting (d : Dev) (q : QRef) : Bool := d.power.lost.any (·.q == q)

/-- The next entry of the queue may be fetched (R95, R97, R108, R504). -/
def Dev.canFetch (d : Dev) (q : QRef) : Bool :=
  let x := d.qp q
  d.queueOn q && !d.queueError q && !d.draining q && !d.lostWaiting q && x.head != x.tail && x.outstanding + x.unreturned < d.cqEntries q

/-- The next entry of a queue fetched: it becomes the queue's youngest undecided command (R97, R98). -/
def Dev.fetch (d : Dev) (c : Cmd) : Dev :=
  let n := max 1 (d.sqEntries c.q)
  (d.modQp c.q fun x => { x with head := (x.head + 1) % n, outstanding := x.outstanding + 1, waiting := x.waiting ++ [c] }).bumpQp c.q 0x040

/-- The command a 64-byte entry of a queue holds, fetched in the present row. -/
def Dev.cmdOf (d : Dev) (q : QRef) (entry input : List Byte) : Cmd := ⟨q, entryDwords entry, input, d.row.number⟩

/-- The command an operand entry stands for. -/
def Dev.cmdOfEntry (d : Dev) (e : Entry) (opcode : Nat) (f : List Nat) : Cmd := ⟨e.q, sqeOf e opcode f, e.input, d.row.number⟩

/-- A queue starts afresh when its enable passes (R95). -/
def Dev.openQueue (d : Dev) (q : QRef) : Dev :=
  let d := d.setQp q Qp.fresh
  ((d.put (doorbellKey q false) 0).put (doorbellKey q true) 0).put (queueStat q) (setBits (d.rg (queueStat q)) 1 0 0)

/-- The reports of the lost strands of a queue, in ascending old ID, posted when it is first enabled (R504). DESIGN CHOICE (log 72, point 10):
they count toward a message whether or not the lost command had set NO_IRQ, which no save keeps. -/
def Dev.postLost (d : Dev) (q : QRef) : Dev :=
  let mine := sortBy (fun a b => a.id ≤ b.id) (d.power.lost.filter (·.q == q))
  let d := { d with power := { d.power with lost := d.power.lost.filter (·.q != q) } }
  mine.foldl (fun d l => (d.bumpQp q 0x044).post q false ⟨l.cid, 0, 0, 0x13, 0, l.id, 0, l.admitRow, l.drops, 0, 0, l.epoch⟩) d

end Sys2Proof.Machine
end

