-- ==== Sys2Proof/Machine/Admit.lean ====
section
/-! DEFINITION. Validation and admission: the steps of R103, the orders of R121, row capacity, quotas and the reservation
(R103, R121 to R135, R139, R212, R244, R314, R334, R335, R346, R370, R389, R392, R405). -/

namespace Sys2Proof.Machine

/-- The masks of the per-command dwords 0x20 to 0x38 that a command's table defines (R105, R515); none for an opcode not listed. -/
def sqeMasks (admin : Bool) (op : Nat) : Option (List Nat) :=
  let F := 0xFFFFFFFF
  if admin then
    match op with
    | 0x01 => some []
    | 0x02 => some [3]
    | 0x03 => some [15, F, F]
    | 0x04 => some [0x3FFF]
    | 0x05 => some [F, F]
    | _ => none
  else
    match op with
    | 0x10 => some [1, 15]
    | 0x11 => some [F, 0, 0xFFFFFF, F, 0xFFFFF]
    | 0x12 => some [F, F, 0xFFFFFF, F, F, F, F]
    | 0x13 => some [F, F]
    | 0x14 => some [F, F, 3, 15]
    | 0x15 => some [F, 3, F]
    | 0x18 => some [F, F, F, 0xFFFFFF, 0xFFFF, 0, 31]
    | 0x19 => some [F, F, F, 0xFFFFFF, 0xFFFF, 0xFFFF, 31]
    | 0x20 => some [F]
    | 0x21 => some [F]
    | 0x22 => some [F, 0xFFFF, 0xF0F]
    | 0x23 => some [F, F]
    | 0x28 => some [0x13FFFFF, 0x3FFF]
    | 0x29 => some [0xFFF, F]
    | _ => none

/-- An enumerated field holds a value marked reserved (R105, R230, R362, R515). -/
def Cmd.enumBad (c : Cmd) : Bool :=
  match c.opcode with
  | 0x02 => 1 < c.dw 8
  | 0x03 => 4 < c.dw 8
  | 0x10 => 3 < c.dw 9
  | 0x11 => 3 < c.search.qfmt
  | 0x14 => 1 < c.dw 10 || 3 < c.dw 11
  | 0x15 => 1 < c.dw 9
  | 0x18 => 8 < c.stopCount
  | 0x19 => 8 < c.stopCount || c.genFlag 0
  | 0x22 => 64 < c.dw 8 || 3 < bits (c.dw 10) 11 8 || 2 < bits (c.dw 10) 3 0
  | _ => false

/-- The handles in a command's own dwords (R102, R105). -/
def Cmd.handles (c : Cmd) : List Nat :=
  c.object :: match c.opcode with
    | 0x11 => [c.search.filter]
    | 0x12 => [c.search.filter, c.search.embedModel, c.search.rerank, c.search.passages]
    | 0x18 => [c.grammar]
    | 0x19 => [c.grammar]
    | _ => []

/-- The handles of a retrieval block (R105). -/
def Cmd.blockHandles (c : Cmd) : List Nat :=
  if c.opcode = 0x19 then let a := c.search; [a.filter, a.embedModel, a.rerank, a.passages, a.template] else []

/-- A command whose OBJECT dword is reserved (R105). -/
def Cmd.noObject (c : Cmd) : Bool := [0x01, 0x02, 0x03, 0x04, 0x28, 0x29].contains c.opcode

/-- Step 2 of R103: a reserved bit, byte or value. -/
def Cmd.reservedSet (c : Cmd) : Bool :=
  let masks := (sqeMasks (c.q.tenant == 0) c.opcode).getD []
  bits (c.dw 0) 15 10 != 0 || c.dw 2 % 64 != 0 || c.dw 6 % 64 != 0 || c.dw 15 != 0
    || (c.noObject && c.object != 0)
    || (List.range 7).any (fun i => Nat.land (c.dw (8 + i)) (0xFFFFFFFF - masks.getD i 0) != 0)
    || c.enumBad || c.handles.any handleBad

/-- The features a command needs (R90, R103, R105). -/
def Cmd.features (c : Cmd) : List Nat :=
  (match c.opcode with
    | 0x15 => [4]
    | 0x18 => [1]
    | 0x19 => [1]
    | 0x20 => [5]
    | 0x21 => [5]
    | 0x22 => [5]
    | 0x23 => [5]
    | 0x29 => [6]
    | _ => []) ++
  (if c.isGen && c.genFlag 3 then [2] else []) ++ (if c.isGen && c.grammar != 0 then [3] else [])

/-- The TN_PERM bit of a command's family (R143); ABORT is always permitted. -/
def Cmd.permBit (c : Cmd) : Option Nat :=
  match c.opcode with
  | 0x10 => some 0
  | 0x11 => some 0
  | 0x12 => some 0
  | 0x13 => some 1
  | 0x14 => some 1
  | 0x18 => some 2
  | 0x19 => some 2
  | 0x20 => some 3
  | 0x21 => some 3
  | 0x22 => some 3
  | 0x23 => some 3
  | 0x15 => some 4
  | 0x29 => some 5
  | _ => none

/-- Features granted to a queue pair (R90). -/
def Dev.granted (d : Dev) (q : QRef) : Nat := if q.tenant = 0 then 0 else d.rg (queueReg q 0x124 0)

/-- This module is the master of a serving cascade (R436, R449). -/
def Dev.servingMaster (d : Dev) : Bool := d.cas.state == 2 && d.mgmt.masterLow

/-- The command spans the cascade (R449). -/
def Dev.spansFor (d : Dev) (c : Cmd) : Bool := c.searches && d.servingMaster && bit (d.granted c.q) 7

/-- Step 4 of R103: ownership and permissions (R139). -/
def Dev.denied (d : Dev) (c : Cmd) : Bool :=
  let t := c.q.tenant
  let perm := d.inForce (pf (tenantPage t) 0x100)
  if t = 0 then c.opcode == 0x05 && handleOwner c.object != 0
  else (c.handles.any fun h => handleOwner h != 0 && handleOwner h != t)
    || (match c.permBit with | some b => !bit perm b | none => false)
    || (d.spansFor c && !bit perm 6)
    || (c.writes && c.object != 0 && handleOwner c.object != t)

/-- Steps 1 to 4 of R103: the code of the first failure, if any. -/
def Dev.validate (d : Dev) (c : Cmd) : Option Nat :=
  match sqeMasks (c.q.tenant == 0) c.opcode with
  | none => some 0x0702
  | some _ =>
    if c.reservedSet then some 0x0701
    else if c.features.any (fun b => !bit (d.granted c.q) b) then some 0x0703
    else if d.denied c then some 0x0801
    else none

/-- Order 1 of R121: a batch count or DMA length of 0 (R106). -/
def Cmd.isNoop (c : Cmd) : Bool :=
  match c.opcode with
  | 0x05 => c.inLen == 0
  | 0x23 => c.inLen == 0
  | 0x13 => c.dw 8 == 0
  | 0x14 => c.dw 8 == 0
  | 0x15 => c.dw 8 == 0
  | 0x20 => c.dw 8 == 0
  | 0x21 => c.dw 8 == 0
  | _ => false

/-- The retrieval block of a RETRIEVE_GENERATE carries a reserved handle or another tenant's (log 24). -/
def Cmd.blockCheck (c : Cmd) : Option Nat :=
  if c.blockHandles.any handleBad then some 0x0701
  else if c.blockHandles.any (fun h => handleOwner h != 0 && handleOwner h != c.q.tenant) then some 0x0801
  else none

/-- Order 2 of R121, in entry offset order (R106). -/
def Cmd.order2 (c : Cmd) : Option Nat :=
  if c.searches then
    (if c.search.k = 0 then some 0x0120 else if c.search.depth < 1 || 16 < c.search.depth then some 0x0127 else none)
  else if c.opcode = 0x22 && c.dw 8 = 0 then some 0x0122 else none

/-- Order 3 of R121 (R317, R325). -/
def Cmd.order3 (c : Cmd) : Option Nat :=
  if c.opcode = 0x11 && 1024 < c.search.qdim then some 0x0126
  else if c.opcode = 0x22 && 1024 < bits (c.dw 9) 15 0 then some 0x0126
  else if c.opcode = 0x14 && 2 ^ 20 < c.dw 9 then some 0x0124
  else if c.opcode = 0x15 && 2 ^ 20 < c.dw 8 then some 0x0124
  else none

/-- A handle names an object of a kind with a current epoch. -/
def Dev.isKind (d : Dev) (h kind : Nat) : Bool := handleKind h == kind && (d.curEpoch h).isSome

/-- A handle names a model of a role with its tables (R334, R335). -/
def Dev.isModel (d : Dev) (h role : Nat) : Bool :=
  d.isKind h 4 && (let m := modelDesc (d.curContent h).bytes; m.role == role && m.tables.all fun t => (d.curEpoch t).isSome)

/-- Order 4 of R121: every handle names an object of the right kind and role with a published epoch (R106, R244, R258, R334, R405). -/
def Dev.order4 (d : Dev) (c : Cmd) : Option Nat :=
  let a := c.search
  let filterOk := a.filter == 0 || d.isKind a.filter 6
  let rerankOk := (a.candidates == 0 && a.rerank == 0) || d.isModel a.rerank 1
  let gramOk := c.grammar == 0 ||
    (d.isKind c.grammar 5 && [1, 2].contains (objFormat (d.curContent c.grammar).bytes))
  let ok := match c.opcode with
    | 0x10 => d.isModel c.object 0
    | 0x11 => d.isKind c.object 1 && filterOk
    | 0x12 => d.isKind c.object 1 && filterOk && d.isModel a.embedModel 0 && rerankOk &&
        ((a.candidates == 0 && a.passages == 0) || d.isKind a.passages 2)
    | 0x13 => d.isModel c.object 2
    | 0x14 => d.isKind c.object 3
    | 0x15 => d.isKind c.object 3
    | 0x18 => d.isModel c.object 3 && gramOk
    | 0x19 => d.isModel c.object 3 && gramOk && d.isKind c.index 1 && filterOk && d.isModel a.embedModel 0 && rerankOk &&
        d.isKind a.passages 2 && d.isKind a.template 7
    | 0x20 => d.isKind c.object 1
    | 0x21 => d.isKind c.object 1
    | 0x22 => d.isKind c.object 1
    | _ => c.object != 0
  if ok then none else some 0x0503

/-- Order 5 of R121: stop strings, bags, predicates, token IDs (R244, R318, R363, R379). -/
def Dev.order5 (d : Dev) (c : Cmd) : Option Nat :=
  let stops := if c.isGen then (List.range c.stopCount).map fun i => (stopEntry c.inp c.stopOff i).1 else []
  let lens := if c.opcode = 0x14 then bagLens c.inp (c.dw 8) else []
  let filter := if c.searches && c.search.filter != 0 then some (d.curContent c.search.filter).bytes else none
  let size := (vocabOf (d.curContent c.object).bytes).size
  match stops.find? (fun n => n == 0 || 64 < n) with
  | some n => some (if n = 0 then 0x0121 else 0x0128)
  | none =>
    if lens.any (65535 < ·) then some 0x0123
    else if 2 ^ 20 < sumNat lens then some 0x0124
    else if (match filter with | some b => objFormat b == 1 && 16 < filterCount b | none => false) then some 0x0125
    else if c.tokenInput && c.tokens.any (size ≤ ·) then some 0x0129
    else none

/-- Metric and dimension checks of order 6 (R212, R230, R314, R335). -/
def Dev.order6a (d : Dev) (c : Cmd) : Option Nat :=
  let ob := d.curContent c.object
  let named := [0x11, 0x12, 0x19, 0x20, 0x21, 0x22].contains c.opcode
  let x := ixDesc (d.curContent c.index).bytes
  let m := modelDesc ob.bytes
  let qbytes := if x.cls = 2 then x.dim else c.search.qdim * fmtBytes (match c.search.qfmt with | 0 => 0 | 1 => 1 | 2 => 2 | _ => 3)
  if named && ixMetricBad x then some 0x0220
  else if named && ixDimBad x then some 0x0221
  else if c.opcode = 0x11 && (c.search.qdim != x.dim || c.inLen < qbytes) then some 0x0221
  else if c.opcode = 0x22 && bits (c.dw 9) 15 0 != x.dim then some 0x0221
  else if c.opcode = 0x22 &&
      ((bits (c.dw 10) 11 8 == 3) != (bits (c.dw 10) 3 0 == 2) || (bits (c.dw 10) 11 8 == 3) != (x.metric == 3)) then some 0x0220
  else if (c.opcode = 0x12 || c.opcode = 0x19) && (modelDesc (d.curContent c.encoder).bytes).outDim != x.dim then some 0x0221
  else if c.opcode = 0x13 && c.dw 9 != (pattern ob.bytes).itemLen then some 0x0221
  else if (c.opcode = 0x14 || c.opcode = 0x15) && tblBad (tblDesc ob.bytes) then some 0x0221
  else if c.isGen && samplingBad c.inp c.samplingOff c.outLen (vocabOf ob.bytes).size m.context (c.genFlag 3) then some 0x0222
  else none

/-- Vocabulary and context checks of order 6 (R124, R335, R370, R405). -/
def Dev.order6b (d : Dev) (c : Cmd) : Option Nat :=
  let ob := d.curContent c.object
  let v := vocabOf ob.bytes
  let m := modelDesc ob.bytes
  let a := c.search
  let g := (d.curContent c.grammar).bytes
  let store := storeVocab (d.curContent a.passages).bytes
  let bos := b2n (!v.noBos)
  if c.isGen && c.grammar != 0 && (grammarVocab g != v.ident || grammarSize g != v.size) then some 0x0320
  else if (c.opcode = 0x12 || c.opcode = 0x19) && a.passages != 0 &&
      ((a.rerank != 0 && store != (vocabOf (d.curContent a.rerank).bytes).ident) || (c.opcode == 0x19 && store != v.ident)) then some 0x0320
  else if c.opcode = 0x10 && (if c.tokenInput then m.context < c.tokens.length else m.context < c.text.length + bos) then some 0x012A
  else if c.opcode = 0x18 && (if c.tokenInput then c.tokens.isEmpty || m.context < c.tokens.length + c.maxNew else m.context < c.maxNew + bos)
    then some 0x012A
  else if c.opcode = 0x19 && m.context < c.maxNew then some 0x012A
  else none

/-- TENANT_OWNER in force of a page (R61). -/
def Dev.owner (d : Dev) (p : Nat) : Nat := bits (d.inForce (pf p 0x008)) 15 8

/-- A of R126: units of a type in a pool (0 shared, 1 to 16 a tenant's) that hold an active index and run. -/
def Dev.poolUnits (d : Dev) (u pool : Nat) : List Nat := (d.activeUnits u).filter fun p => d.owner p == pool

/-- W of R126: the longest stitch of a type in any resident pattern at the period in force. DESIGN CHOICE (log 72, point 12): the resident
patterns are those of models; the spec does not say that the built-in search, selection, text and index stitches count in W. -/
def Dev.worst (d : Dev) (u : Nat) : Nat :=
  maxNat ((modelEpochs d.objs).map fun m => ((((pattern m.bytes).rec? d.period).getD .zero).w).getD u 0)

/-- C of R126. -/
def Dev.capacity (d : Dev) (u pool : Nat) : Nat := (d.poolUnits u pool).length * (d.budget - d.worst u)

/-- S_L and S_P of R126. -/
def Dev.shareL (d : Dev) (u pool : Nat) : Nat := d.capacity u pool * bits (d.inForce (pf 6 0x100)) 7 0 / 256
def Dev.shareP (d : Dev) (u pool : Nat) : Nat := d.capacity u pool * bits (d.inForce (pf 6 0x100)) 15 8 / 256

/-- The pool in which a strand reserves a type: 0 shared, else its tenant's own (R128). -/
def Strand.pool (s : Strand) (u : Nat) : Nat := if s.owned.getD u false then s.cmd.q.tenant else 0

/-- Cycles of a class that a strand holds on a type (R131). -/
def Strand.cycles (s : Strand) (cls u : Nat) : Nat :=
  match cls with
  | 0 => if s.holdL then s.foot.l.getD u 0 else 0
  | 1 => s.foot.d.getD u 0
  | _ => if s.holdP then s.foot.p.getD u 0 else 0

/-- PASS_S and PASS_B of a decoder, by unit type (R346). -/
def passCycles (r : PeriodRec) (n : Nat) : List Nat := [n * r.passS, n * r.passB, 0, 0, 0]

/-- Cycles a decoder epoch's passes hold on a type. -/
def Dev.laneCycles (d : Dev) (l : Lanes) (u : Nat) : Nat :=
  match (nget d.objs l.handle).bind (·.epoch l.stamp) with
  | some e => (passCycles (d.recOf e.content) l.passes).getD u 0
  | none => 0

/-- This module serves as a member of a cascade (R450). -/
def Dev.member (d : Dev) : Bool := (d.cas.state == 2 || d.cas.state == 3) && !d.mgmt.masterLow

/-- Class L cycles of the cascade reserve on search cores and select-and-merge units, in per mille of S_L (R450, R457). -/
def Dev.casReserve (d : Dev) (u : Nat) : Nat :=
  let w := d.inForce (pf 0xD 0x10C)
  if d.member then (if u = 2 then bits w 9 0 * d.shareL 2 0 / 1000 else if u = 4 then bits w 25 16 * d.shareL 4 0 / 1000 else 0) else 0

/-- H of R127: cycles of a class reserved on a type in a pool; a part runs within the cascade reserve (R450). -/
def Dev.held (d : Dev) (cls u pool : Nat) : Nat :=
  sumNat (d.strands.map fun p => if p.2.part.isNone && p.2.pool u == pool then p.2.cycles cls u else 0) +
    (if cls = 1 then sumNat (d.lanes.map fun l => if (if l.owned.getD u false then l.tenant else 0) == pool then d.laneCycles l u else 0) else 0) +
    (if cls = 0 && pool = 0 then d.casReserve u else 0)

/-- A tenant's part of H in the shared pool (R134). -/
def Dev.heldBy (d : Dev) (t cls u : Nat) : Nat :=
  sumNat (d.strands.map fun p => if p.2.cmd.q.tenant == t && p.2.part.isNone && p.2.pool u == 0 then p.2.cycles cls u else 0) +
    (if cls = 1 then sumNat (d.lanes.map fun l => if l.tenant == t && !l.owned.getD u false then d.laneCycles l u else 0) else 0)

/-- What a strand asks of the row budget: its footprint with the passes it would reserve. -/
structure Ask where
  l : List Nat
  d : List Nat
  p : List Nat
  deriving DecidableEq, Repr

/-- The tests of R127 on one type in one pool: the code of the failure, if any. -/
def Dev.rowTest (d : Dev) (a : Ask) (u pool : Nat) : Option Nat :=
  let C := d.capacity u pool
  let sl := d.shareL u pool
  let sp := d.shareP u pool
  let cl := a.l.getD u 0
  let cd := a.d.getD u 0
  let cp := a.p.getD u 0
  if sl < d.held 0 u pool + cl then some 0x0412
  else if C - sl - sp < d.held 1 u pool + cd then some 0x0413
  else if C - sl < d.held 1 u pool + d.held 2 u pool + cd + cp then some (if cp = 0 then 0x0413 else 0x0414)
  else none

/-- Types on which the ask reserves cycles. -/
def Ask.uses (a : Ask) (u : Nat) : Bool := a.l.getD u 0 != 0 || a.d.getD u 0 != 0 || a.p.getD u 0 != 0

/-- The pool choice of R128 per type: owned when the tenant owns active units there and the tests pass. -/
def Dev.choosePools (d : Dev) (t : Nat) (a : Ask) : List Bool :=
  (List.range 5).map fun u => t != 0 && !(d.poolUnits u t).isEmpty && (d.rowTest a u t).isNone

/-- Slots offered in a pool and slots reserved there (R123). -/
def Dev.slotsOffered (d : Dev) (pool : Nat) : Nat := 32 * (d.poolUnits 2 pool).length
def Dev.slotsHeld (d : Dev) (pool : Nat) : Nat :=
  sumNat (d.strands.map fun p => if p.2.part.isNone && p.2.pool 2 == pool then p.2.foot.slots else 0) +
    (if pool = 0 && d.member then d.inForce (pf 0xD 0x108) else 0)

/-- Memory held: T0 scratch, KV pages with logit areas, T2 granules, markers (R123, R389, R450). -/
def Dev.t0Res (d : Dev) : Nat :=
  sumNat (d.strands.map fun p => if p.2.part.isNone then p.2.foot.t0 else 0) + (if d.member then d.inForce (pf 0xD 0x110) else 0)
def Dev.kvRes (d : Dev) : Nat := sumNat (d.strands.map fun p => p.2.kv) + sumNat (d.lanes.map (·.kv))
def Dev.t2Res (d : Dev) : Nat :=
  sumNat (d.strands.map fun p => if p.2.part.isNone then p.2.foot.t2 else 0) + (if d.member then d.inForce (pf 0xD 0x114) else 0)
def Dev.strandMarkers (d : Dev) : Nat :=
  sumNat (d.strands.map fun p => if p.2.part.isNone then p.2.foot.markers else 0) + (if d.member then d.inForce (pf 0xD 0x118) else 0)

/-- Markers held by resident patterns (R414). -/
def Dev.patternMarkers (d : Dev) : Nat := (d.markers.filter fun p => match p.2.holder with | .pattern _ _ => true | _ => false).length

/-- A tenant's memory held. -/
def Dev.tenantSum (d : Dev) (t : Nat) (f : Strand → Nat) : Nat :=
  sumNat (d.strands.map fun p => if p.2.cmd.q.tenant == t && p.2.part.isNone then f p.2 else 0)

/-- Enabled tenants (R135, R143). -/
def Dev.tenantsOn (d : Dev) : List Nat := (List.range' 1 16).filter fun t => d.on (tenantPage t)

/-- The sum of a memory quota over the enabled tenants. -/
def Dev.quotaSum (d : Dev) (off : Nat) : Nat := sumNat (d.tenantsOn.map fun t => d.inForce (pf (tenantPage t) off) % 2 ^ 24)

/-- Generation strands (R113). -/
def Strand.isGen (s : Strand) : Bool := s.cmd.isGen && s.part.isNone
/-- Strands in flight of this module's own commands. -/
def Dev.genCount (d : Dev) : Nat := (d.strands.filter (·.2.isGen)).length

/-- Passes a generation would reserve with its epoch's first strand: cycles and logit area (R346, R389). -/
def Dev.newPasses (d : Dev) (c : Cmd) : Option (Nat × Nat × Nat) :=
  if !c.isGen then none
  else match d.curEpoch c.object with
    | none => none
    | some e =>
      if (d.lanesOf c.object e.stamp).isSome then none
      else
        let page := (List.range 64).find? fun i => d.inForce (pf (0x50 + i) 0x100) == c.object
        let n := match page with | some i => d.inForce (pf (0x50 + i) 0x118) | none => 4
        some (e.stamp, n, n * logitPages (pattern e.content.bytes).laneBatch (vocabOf e.content.bytes).size)

/-- The ask of a plan with the passes it brings. -/
def Dev.ask (d : Dev) (c : Cmd) (f : Foot) : Ask :=
  match d.newPasses c with
  | some (_, n, _) => ⟨f.l, List.zipWith (· + ·) f.d (passCycles (d.recOf (d.curContent c.object)) n), f.p⟩
  | none => ⟨f.l, f.d, f.p⟩

/-- The main lane of the epoch a generation would join is full (R346). -/
def Dev.mainLaneFull (d : Dev) (c : Cmd) : Bool :=
  c.isGen && (match d.curEpoch c.object with
    | none => false
    | some e =>
      let page := (List.range 64).find? fun i => d.inForce (pf (0x50 + i) 0x100) == c.object
      let n := match d.lanesOf c.object e.stamp with
        | some l => l.passes
        | none => match page with | some i => d.inForce (pf (0x50 + i) 0x118) | none => 4
      let members := (d.strands.filter fun p => p.2.isGen && p.2.cmd.object == c.object && p.2.pins.contains (c.object, e.stamp) && p.2.lane == 0).length
      (n - 1) * (pattern e.content.bytes).laneBatch < members + 1)

/-- Order 7 of R121: an active unit remains of every type the footprint uses; a fenced unit without a spare counts no more (R17, R126). -/
def Dev.typeLost (d : Dev) (t : Nat) (f : Foot) : Bool :=
  (List.range 5).any fun u =>
    (f.l.getD u 0 != 0 || f.d.getD u 0 != 0 || f.p.getD u 0 != 0 || (u == 2 && f.slots != 0)) &&
      !((unitSlots u).any fun p => (d.page p).active != 0xFFF && !(d.page p).fenced && (d.owner p == 0 || d.owner p == t))

/-- Order 9 of R121: the RESOURCE number of the first quota that refuses (R134, R143). DESIGN CHOICE (log 72, point 11): when class P fails on
several unit types, RESOURCE is 4 if on any of them the command asks class P cycles, else 3; the spec orders no types. -/
def Dev.quotaFails (d : Dev) (c : Cmd) (f : Foot) (a : Ask) (owned : List Bool) : Option Nat :=
  let t := c.q.tenant
  let q (off : Nat) := d.inForce (pf (tenantPage t) off)
  let kv := f.kv + (match d.newPasses c with | some (_, _, n) => n | none => 0)
  let lanesKv := sumNat (d.lanes.map fun l => if l.tenant == t then l.kv else 0)
  let types := (List.range 5).filter fun u => a.uses u && !owned.getD u false
  let rowBad (Q : Nat) (cls : Nat) : List Nat := types.filter fun u =>
    let C := d.capacity u 0
    let K := if cls = 0 then d.shareL u 0 else if cls = 1 then C - d.shareL u 0 - d.shareP u 0 else C - d.shareL u 0
    let h := if cls = 0 then d.heldBy t 0 u + a.l.getD u 0 else if cls = 1 then d.heldBy t 1 u + a.d.getD u 0
      else d.heldBy t 1 u + d.heldBy t 2 u + a.d.getD u 0 + a.p.getD u 0
    Q * K / 1000 < h
  let row := q 0x108
  let pBad := rowBad (bits row 9 0) 2
  let slotsHeld := d.tenantSum t fun s => if s.pool 2 == 0 then s.foot.slots else 0
  let tests : List (Nat × Bool) := [(0, bits (q 0x104) 14 0 < d.tenantSum t (fun _ => 1) + 1),
    (1, c.isGen && bits (q 0x104) 28 16 < d.tenantSum t (fun s => b2n s.isGen) + 1),
    (2, !(rowBad (bits row 29 20) 0).isEmpty),
    (3, !(rowBad (bits row 19 10) 1).isEmpty),
    (if pBad.any (fun u => a.p.getD u 0 != 0) then 4 else 3, !pBad.isEmpty),
    (5, f.t0 != 0 && q 0x10C % 2 ^ 24 < d.tenantSum t (·.foot.t0) + f.t0),
    (6, kv != 0 && q 0x110 % 2 ^ 24 < d.tenantSum t (·.kv) + lanesKv + kv),
    (7, f.t2 != 0 && q 0x114 % 2 ^ 24 < d.tenantSum t (·.foot.t2) + f.t2),
    (8, f.slots != 0 && !owned.getD 2 false && bits (q 0x118) 10 0 < slotsHeld + f.slots),
    (9, f.markers != 0 && bits (q 0x118) 28 16 < d.tenantSum t (·.foot.markers) + f.markers)]
  (tests.find? (·.2)).map (·.1)

/-- Order 10 of R121: the module's resources in code order (R127, R129, R346, R389). -/
def Dev.resourceFails (d : Dev) (c : Cmd) (f : Foot) (a : Ask) (owned : List Bool) : Option Nat :=
  let pool (u : Nat) := if owned.getD u false then c.q.tenant else 0
  let rows := (List.range 5).filterMap fun u => if a.uses u then d.rowTest a u (pool u) else none
  let kv := f.kv + (match d.newPasses c with | some (_, _, n) => n | none => 0)
  let admin := c.q.tenant == 0
  let t0Free := if admin then d.t0Pool d.objs - d.quotaSum 0x10C else d.t0Pool d.objs
  let t0Used := if admin then d.tenantSum 0 (·.foot.t0) else d.t0Res
  let t2Free := if admin then d.pool 2 - d.quotaSum 0x114 else d.pool 2
  let t2Used := if admin then d.tenantSum 0 (·.foot.t2) else d.t2Res
  if rows.contains 0x0412 then some 0x0412
  else if rows.contains 0x0413 || d.mainLaneFull c then some 0x0413
  else if rows.contains 0x0414 then some 0x0414
  else if t0Free < t0Used + f.t0 && f.t0 != 0 then some 0x0415
  else if d.pool 1 < d.kvRes + kv && kv != 0 then some 0x0416
  else if t2Free < t2Used + f.t2 && f.t2 != 0 then some 0x0417
  else if d.slotsOffered (pool 2) < d.slotsHeld (pool 2) + f.slots && f.slots != 0 then some 0x0418
  else if 4096 - d.patternMarkers < d.strandMarkers + f.markers then some 0x0419
  else none

/-- What admission decides of a command that creates a strand (R121). -/
inductive Verdict where
  | noop
  | refuse (code resource : Nat)
  | accept (p : Plan) (owned : List Bool)
  deriving DecidableEq, Repr

/-- The first of some codes. -/
def firstCode : List (Option Nat) → Option Nat
  | [] => none
  | some c :: _ => some c
  | none :: l => firstCode l

/-- Orders 1 to 6 of R121. -/
def Dev.earlyCode (d : Dev) (c : Cmd) : Option Nat :=
  firstCode [c.blockCheck, c.order2, c.order3, d.order4 c, d.order5 c, d.order6a c, d.order6b c]

/-- The decision on a command with a class (R121, R122). -/
def Dev.judge (d : Dev) (c : Cmd) : Verdict :=
  if c.isNoop then .noop
  else match d.earlyCode c with
    | some code => .refuse code 0
    | none =>
      let p := d.plan c (d.spansFor c)
      let a := d.ask c p.foot
      let owned := d.choosePools c.q.tenant a
      if d.typeLost c.q.tenant p.foot || (d.spansFor c && d.cas.members.any (·.lost)) then .refuse 0x0603 0
      else if 16384 ≤ d.strands.length then .refuse 0x0410 0
      else if c.isGen && 4096 ≤ d.genCount then .refuse 0x0411 0
      else match (if c.q.tenant = 0 then none else d.quotaFails c p.foot a owned) with
        | some r => .refuse 0x041A r
        | none =>
          match d.resourceFails c p.foot a owned with
          | some code => .refuse code 0
          | none => .accept p owned

/-- A rise of a tenant's fault counter sets TV_EVENT.FAULT (R480). -/
def Dev.tenantFault (d : Dev) (t off n : Nat) : Dev :=
  if t = 0 || n = 0 then d else (d.bump (pf (tenantPage t) off) n).event t 2

/-- The counter of the admission page that a refusal code counts in beside ADM_REFUSED (R141). -/
def refusalCounter (code : Nat) : Nat :=
  if 0x0412 ≤ code && code ≤ 0x0414 then 0x048
  else if 0x0415 ≤ code && code ≤ 0x0417 then 0x04C
  else if code = 0x0418 || code = 0x0419 then 0x050
  else if code = 0x0410 || code = 0x0411 then 0x054
  else if code = 0x041A then 0x058
  else 0x05C

/-- The counters of a refusal of R103 or R121 (R141, R143). -/
def Dev.countRefusal (d : Dev) (c : Cmd) (code resource : Nat) : Dev :=
  let d := (d.bump (pf 6 0x044) 1).bump (pf 6 (refusalCounter code)) 1
  if c.q.tenant = 0 then d
  else
    let p := tenantPage c.q.tenant
    let d := (d.bump (pf p 0x044) 1).put (pf p 0x130) (code * 65536 + resource)
    let d := if code = 0x041A then d.bump (pf p 0x048) 1 else d
    if code = 0x0603 then d.tenantFault c.q.tenant 0x07C 1 else d

/-- A command refused: counted and completed REFUSED with its code (R109, R117, R122). -/
def Dev.refuseCmd (d : Dev) (c : Cmd) (code resource : Nat) : Dev := (d.countRefusal c code resource).finishNoStrand c 0x10 code 0 0

/-- The lowest free markers in ascending order (R413). -/
def Dev.freeMarkers (d : Dev) (n : Nat) : List Nat := ((List.range 4096).filter fun i => (d.marker i).holder == .free).take n

/-- Markers given to a holder at their starting state (R413). -/
def Dev.takeMarkers (d : Dev) (l : List Nat) (h : Holder) : Dev := l.foldl (fun d i => d.setMarker i ⟨0, 0, 0, h⟩) d

/-- The lowest free strand ID (R114). -/
def Dev.freeId (d : Dev) : Nat := (lowestFree (d.strands.map (·.1)) 16384 0).getD 0

/-- The epochs a plan pins (R153, R154). -/
def Dev.pinsOf (d : Dev) (hs : List Nat) : List (Nat × Nat) :=
  hs.eraseDups.filterMap fun h => (d.curEpoch h).map fun e => (h, e.stamp)

/-- The passes of an epoch taken with its first generation strand (R344, R346). -/
def Dev.takePasses (d : Dev) (c : Cmd) (owned : List Bool) : Dev :=
  match d.newPasses c with
  | none => d
  | some (stamp, n, kv) => { d with lanes := d.lanes ++ [⟨c.object, stamp, d.row.number + 2, n, c.q.tenant, owned, kv, []⟩] }

/-- The row class of a command's first phase (R105); 0 L, 2 P. -/
def Cmd.cls (c : Cmd) : Nat := if [0x10, 0x11, 0x12, 0x13, 0x14, 0x19].contains c.opcode then 0 else 2

/-- The gather step of a spanning search keeps the row planned for it, though a search may end early (R452). -/
def holdGather (row : Nat) (steps : List Step) : List Step :=
  steps.mapIdx fun i st => if st.kind = .gather then { st with key := row + 1 + i } else st

/-- A strand admitted: entry, markers, pins and passes (R113 to R116, R122, R413). -/
def Dev.admitStrand (d : Dev) (c : Cmd) (p : Plan) (owned : List Bool) : Dev :=
  let id := d.freeId
  let ms := d.freeMarkers p.foot.markers
  let s : Strand :=
    { cmd := c, state := 1, admitRow := d.row.number, admitNs := d.row.timeNs, counter := d.counter, foot := p.foot, owned := owned,
      markers := ms, pins := d.pinsOf p.pins, unpin := [], steps := holdGather d.row.number p.steps, start := d.row.number + 1, lane := 0, drops := 0, consec := 0,
      cause := 0, holdL := true, holdP := true, kv := p.foot.kv, kvNext := p.foot.kv, kvMap := [], work := Work.blank, final := none,
      spans := d.spansFor c, part := none, reading := [], scratch := [], done := [], fate := 0, stitchBase := 0, core := 0, expiring := false }
  let d := d.takePasses c owned
  let d := ({ d with strands := nset d.strands id s }).takeMarkers ms (.strand id c.q.tenant)
  let d := d.bump (pf 6 0x040) 1
  let d := if c.q.tenant = 0 then d else d.bump (pf (tenantPage c.q.tenant) 0x040) 1
  if c.isGen then
    match (List.range 64).find? fun i => d.inForce (pf (0x50 + i) 0x100) == c.object with
    | some i => d.bump (pf (0x50 + i) 0x044) 1
    | none => d
  else d

/-- The decision on a command that creates a strand: no-op, refusal or admission (R106, R121, R122). -/
def Dev.decideWork (d : Dev) (c : Cmd) : Dev :=
  match d.judge c with
  | .noop => d.finishNoStrand c 0 0 0 0
  | .refuse code r => d.refuseCmd c code r
  | .accept p owned => d.admitStrand c p owned

end Sys2Proof.Machine
end

