-- ==== Sys2Proof/Machine/Check.lean ====
section
/-! DEFINITION. Enable checks and page checks: the prospective configuration, the common orders of R70 and each block's own
checks (R56 to R57, R65 to R73, R91, R94, R135, R143, R203, R281, R387, R458, R556). -/

namespace Sys2Proof.Machine

/-- A configuration-class register of the PF (R65, R91). -/
def isConfig (k : Nat) : Bool := keyFn k == 0 && match regDesc k with | some r => r.shadow | none => false

/-- Every shadow of the module that differs from reset (R65, R74). -/
def Dev.shadows (d : Dev) : NMap Word := d.regs.filter fun p => isConfig p.1

/-- EN of a page in a reading of the configuration. -/
def enIn (m : NMap Word) (p : Nat) : Bool := match nget m (pf p 0x008) with | some v => v.toNat % 2 == 1 | none => false

/-- Pages whose configuration differs between two readings, in slot order (R75, R77). -/
def changedPages (a b : NMap Word) : List Nat :=
  sortBy (fun x y => decide (x ≤ y)) ((((a ++ b).filter fun p => nget a p.1 != nget b p.1).map fun p => keyPage p.1).eraseDups)

/-- The pages a reading of the configuration enables. -/
def pagesOn (m : NMap Word) : List Nat := (m.filter fun p => p.1 % 4096 == 8 && p.2.toNat % 2 == 1).map fun p => keyPage p.1

/-- The device as it would stand with a reading of the configuration in force (R68, R75, R77): every PF page runs as its EN says, a
fenced unit or a spare aside, and the admission page once the upper tiers are rebuilt and the bank is ready (R489). -/
def Dev.after (d : Dev) (m : NMap Word) : Dev :=
  let touched := (pagesOn m ++ ((d.pages.filter fun p => p.1 < 4096 && p.2.running).map (·.1))).eraseDups
  let d := { d with act := m }
  touched.foldl (fun d p => d.modPage p fun x => { x with running := enIn m p && x.active != 0xFFF && !x.fenced && (p != 6 || (d.power.rebuilt && d.power.bankReady)) }) d

/-- The prospective device with its period and budget (R28). -/
def Dev.afterPeriod (d : Dev) (m : NMap Word) : Dev :=
  let n := d.after m
  let P := bits (n.inForce (pf 1 0x100)) 9 0
  (n.put (pf 1 0x104) P).put (pf 1 0x108) (Machine.budget P)

/-- EN of a page in force (R65). -/
def Dev.enAct (d : Dev) (p : Nat) : Bool := enIn d.act p

/-- Configuration of a page is locked (R556). -/
def Dev.lockedPage (d : Dev) (p : Nat) : Bool :=
  match pageInfo p with
  | some (type, _) => (match lockGroup type with | some g => bit (d.rg (pf 9 0x104)) g | none => false)
  | none => false

/-- Dependencies of a page as a configuration has them (R70). -/
def Dev.depsOf (n : Dev) (p : Nat) : List Nat := pageDeps p (bits (n.inForce (pf p 0x100)) 1 0)

/-- Orders 2 to 5 of R70, which look at a PF page alone. -/
def Dev.ownCheck (n : Dev) (p : Nat) : Option Nat :=
  let x := n.page p
  let type := match pageInfo p with | some (t, _) => t | none => 0
  let owner := n.owner p
  firstCode [
    if x.fenced then some 0x0601 else none,
    if x.spare then some 0x0602 else none,
    if 16 < owner then some 0x0102 else none,
    if owner != 0 && !capOwnable type then some 0x0201 else none]

/-- Orders 6 to 9 of R70, which look at other pages. -/
def Dev.crossCheck (n : Dev) (p : Nat) : Option Nat :=
  let owner := n.owner p
  let deps := n.depsOf p
  firstCode [
    if p != 1 && !n.enAct 1 then some 0x0301 else none,
    if owner != 0 && !n.enAct (tenantPage owner) then some 0x0304 else none,
    if deps.any (fun q => !n.enAct q) then some 0x0302 else none,
    if owner != 0 && deps.any (fun q => n.owner q != 0 && n.owner q != owner) then some 0x0303 else none]

/-- Orders 2 to 9 of R70 on a PF page. -/
def Dev.commonCheck (n : Dev) (p : Nat) : Option Nat := firstCode [n.ownCheck p, n.crossCheck p]

/-- A condition as a reason code. -/
def codeIf (b : Bool) (code : Nat) : Option Nat := if b then some code else none

/-- This module is or becomes a non-master member of an enabled cascade (R56). -/
def Dev.memberIn (n : Dev) : Bool := n.enAct 0xD && !n.mgmt.masterLow

/-- Tenant quota sums against the pools of T0, T1 KV and T2 (R135). -/
def Dev.quotaSums (n : Dev) (objs : NMap Obj) : Option Nat :=
  codeIf (n.t0Pool objs < n.quotaSum 0x10C || n.pool 1 < n.quotaSum 0x110 || n.pool 2 < n.quotaSum 0x114) 0x0306

/-- Held reservations no longer fit a pool of a type (R72, R133, R281). -/
def Dev.poolShort (n : Dev) (u pool : Nat) : Bool :=
  (n.rowTest ⟨[], [], []⟩ u pool).isSome || (u == 2 && n.slotsOffered pool < n.slotsHeld pool)

/-- The checks of a compute page whose unit leaves a pool (R72, R281, R387). -/
def Dev.unitLeaves (d n : Dev) (objs : NMap Obj) (u p : Nat) : Option Nat :=
  firstCode [
    codeIf (n.poolShort u (d.owner p) || n.t0Pool objs < n.t0Res) 0x0401,
    codeIf ([0, 1, 3].contains u && (n.activeUnits u).isEmpty && (modelEpochs objs).any fun c => (patternTypes (pattern c.bytes)).getD u false) 0x0305,
    n.quotaSums objs]

/-- A block's own check of a page, in an enable check or at a publish: an enable check of a compute page runs none of its own (R281).
`objs` are the objects with what the publish brings, `n` the configuration checked. -/
def Dev.blockCheck (d n : Dev) (objs : NMap Obj) (check : Bool) (p : Nat) : Option Nat :=
  let r (off : Nat) := n.inForce (pf p off)
  let on := n.enAct p
  let off := d.enAct p && !on
  match pageInfo p with
  | none => none
  | some (type, inst) =>
    match type with
    | 0x02 => firstCode [
        codeIf (bits (r 0x100) 9 0 < 100 || 1000 < bits (r 0x100) 9 0) 0x0103,
        codeIf (bits (r 0x10C) 1 0 == 3) 0x0110,
        codeIf (bits (r 0x10C) 15 8 == 0) 0x0111,
        codeIf (bits (r 0x120) 7 0 == 0) 0x0112,
        codeIf ((modelEpochs objs).any fun c => ((pattern c.bytes).rec? (bits (r 0x100) 9 0)).isNone) 0x0310,
        codeIf ((bits (r 0x10C) 1 0 == 2) != n.memberIn) 0x0311]
    | 0x03 => if inst = 0 then codeIf (bits (r 0x200) 15 0 < 100 || 60000 < bits (r 0x200) 15 0) 0x0101 else none
    | 0x04 => codeIf (256 < bits (r 0x100) 7 0 + bits (r 0x100) 15 8) 0x0101
    | 0x05 => codeIf (bits (r 0x100) 23 16 == 0 || bits (r 0x100) 15 0 == 0 || 8760 < bits (r 0x100) 15 0) 0x0101
    | 0x06 => codeIf (bits (r 0x11C) 31 16 == 0 || 720 < bits (r 0x11C) 31 16 || bits (r 0x11C) 15 0 < 4500 ||
        6800 < bits (r 0x11C) 15 0) 0x0101
    | 0x0B => firstCode [
        codeIf (bits (r 0x100) 1 0 == 3 || bits (r 0x100) 15 8 == 0 || 1024 < bits (r 0x108) 10 0 || 4096 < bits (r 0x118) 12 0 ||
          1000 < bits (r 0x10C) 9 0 || 1000 < bits (r 0x10C) 25 16) 0x0101,
        codeIf (n.member && (n.poolShort 2 0 || n.poolShort 4 0 || n.t0Pool d.objs < n.t0Res || n.pool 2 < n.t2Res ||
          4096 - n.patternMarkers < n.strandMarkers)) 0x0401]
    | 0x0E =>
      if inst = 0 then none
      else
        let get (k : Nat) := n.inForce k
        let sum := sumNat ((List.range 17).map fun o => get (pf p (0x180 + 4 * o)))
        firstCode [
          codeIf (n.rg (pf p 0x104) < n.rg (pf p 0x108) + sum) 0x0306,
          codeIf ((inst == 1 && n.pool 1 < n.quotaSum 0x110) || (inst == 2 && n.pool 2 < n.quotaSum 0x114)) 0x0306,
          codeIf ((List.range 17).any fun o => n.quota inst o < ownerUse d.tiers.raw d.objs o inst) 0x0421]
    | 0x10 => firstCode [
        codeIf (16384 < bits (r 0x104) 14 0 || 4096 < bits (r 0x104) 28 16 || 1000 < bits (r 0x108) 29 20 || 1000 < bits (r 0x108) 19 10 ||
          1000 < bits (r 0x108) 9 0 || 1024 < bits (r 0x118) 10 0 || 4096 < bits (r 0x118) 28 16) 0x0101,
        codeIf (off && d.strands.any fun x => x.2.cmd.q.tenant == inst) 0x0401,
        n.quotaSums d.objs]
    | 0x14 => codeIf (bits (r 0x118) 4 0 == 0 || 16 < bits (r 0x118) 4 0) 0x0101
    | 0x15 => codeIf (bits (r 0x10C) 15 0 < 600) 0x0101
    | 0x18 => codeIf (inst % 8 < 4 && bits (r 0x114) 15 0 < 600) 0x0101
    | _ =>
      match unitType p with
      | some u => if !check && d.on p && (!n.on p || n.owner p != d.owner p) then d.unitLeaves n objs u p else none
      | none => none

/-- The first failing check of a changed page (R70, R72, R75, R556): a page that the publish leaves disabled runs the orders of its own,
then those of a disable. -/
def Dev.pageCheck (d n : Dev) (objs : NMap Obj) (check : Bool) (p : Nat) : Option Nat :=
  if d.lockedPage p && (changedPages d.act n.act).contains p then some 0x0805
  else if (n.ownCheck p).isSome then n.ownCheck p
  else if n.enAct p then firstCode [n.crossCheck p, d.blockCheck n objs check p]
  else if d.enAct p && (pfSlots.any fun q => n.enAct q && (p == 1 || (n.depsOf q).contains p) && q != p) then some 0x0305
  else d.blockCheck n objs check p

/-! Enable checks -/

/-- A VF page's common checks (R68, R91): orders 6 and 7 on the shadows of the row-timer page and of the tenant's page. -/
def Dev.vfCheck (d : Dev) (rowOn : Bool) (p : Nat) : Option Nat :=
  let fn := p / 4096
  firstCode [codeIf (!rowOn) 0x0301, codeIf (!enIn d.shadows (tenantPage fn)) 0x0304]

/-- The ring checks of a queue-pair page (R94). -/
def ringBad (size count vector : Nat) : Bool :=
  !isPow2In (bits size 15 0) 16 4096 || !isPow2In (bits size 31 16) 16 4096 || count == 0 || 63 < vector

/-- The checks of a queue-pair page's own (R94), over the registers as they stood at the EN write (R68). -/
def Dev.qpCheck (d : Dev) (regs : NMap Word) (p : Nat) : Option Nat :=
  let r (off : Nat) := { d with regs := regs }.rg (p * 4096 + off)
  firstCode [codeIf (bits (r 0x118) 31 16 != 2) 0x0704,
    codeIf (ringBad (r 0x110) (bits (r 0x114) 23 16) (bits (r 0x114) 5 0)) 0x0101]

/-- The page is a queue-pair page of a VF; its queue. -/
def pageQueue (p : Nat) : Option QRef :=
  if 1 ≤ p / 4096 && p / 4096 ≤ 16 && 1 ≤ p % 4096 && p % 4096 ≤ 64 then some ⟨p / 4096, p % 4096 - 1⟩ else none

/-- Registers of one page. -/
def pageRegs (m : NMap Word) (p : Nat) : NMap Word := m.filter fun x => keyPage x.1 == p

/-- The configuration an enable check of a PF page evaluates: its own saved shadows with EN at 1, the other pages' shadows (R68). -/
def Dev.checkConfig (d : Dev) (c : Check) : NMap Word :=
  let own := (pageRegs c.regs c.page).filter fun x => isConfig x.1
  let base := d.shadows.filter fun x => keyPage x.1 != c.page
  let m := own.foldl (fun m x => nset m x.1 x.2) base
  let k := pf c.page 0x008
  nset m k (wd (setBit ((match nget m k with | some v => v.toNat | none => 0)) 0 true))

/-- Pages on whose running checks a check waits (R69). -/
def Dev.waitsOn (d : Dev) (c : Check) : List Nat :=
  let p := c.page
  let fn := p / 4096
  if fn ≠ 0 then [1, tenantPage fn]
  else
    let n := d.after (d.checkConfig c)
    let type := match pageInfo p with | some (t, _) => t | none => 0
    let tenants := (List.range' 1 16).map tenantPage
    let own := if n.owner p = 0 then [] else [tenantPage (n.owner p)]
    let cross :=
      if type = 0x10 then tenants ++ (List.range 4).map (0x010 + ·) ++ ((List.range 5).map unitSlots).flatten
      else if type = 0x0E then tenants
      else if type = 0x02 then [0xD]
      else []
    [1] ++ n.depsOf p ++ own ++ cross

/-- Orders 1 to 5 of R70 refuse the page, whatever it depends on. -/
def Dev.failsAlone (d : Dev) (c : Check) : Bool :=
  c.page / 4096 == 0 &&
    ((d.lockedPage c.page && (changedPages d.act (d.checkConfig c)).contains c.page) || ((d.after (d.checkConfig c)).ownCheck c.page).isSome)

/-- A check waits while an earlier check of a page it depends on runs: from order 6 of R70 on (R69). -/
def Dev.checkWaits (d : Dev) (c : Check) : Bool :=
  let earlier := (d.checks.takeWhile fun x => x.page != c.page).map (·.page)
  !d.failsAlone c && (d.waitsOn c).any fun p => p != c.page && earlier.contains p

/-- A refused check of a locked page counts in SEC_LOCK_REFUSED (R556). -/
def Dev.countLock (d : Dev) (code : Nat) : Dev := if code = 0x0805 then d.bump (pf 9 0x048) 1 else d

/-- What an enable check finds (R67 to R70, R91, R94). -/
def Dev.judgeCheck (d : Dev) (c : Check) : Option Nat :=
  if c.page / 4096 ≠ 0 then
    firstCode [d.vfCheck (enIn d.shadows 1) c.page, match pageQueue c.page with | some _ => d.qpCheck c.regs c.page | none => none]
  else
    let n := d.afterPeriod (d.checkConfig c)
    d.pageCheck n d.objs true c.page

/-- The enable check of a page ends its run. -/
def Dev.dropCheck (d : Dev) (p : Nat) : Dev :=
  ({ d with checks := d.checks.filter fun (x : Check) => x.page != p }).modPage p fun x => { x with checking := false }

/-- The version and features a queue pair is granted (R90). -/
def Dev.grant (d : Dev) (q : QRef) (regs : NMap Word) : Dev :=
  let r (off : Nat) := { d with regs := regs }.rg (queueReg q off 0)
  let minor := min (bits (r 0x118) 15 0) (bits (d.rg (regKey q.tenant 0x100)) 15 0)
  (d.put (queueReg q 0x120 0) (2 * 65536 + minor)).put (queueReg q 0x124 0) (Nat.land (r 0x11C) (d.rg (regKey q.tenant 0x104)))

/-- A page of a VF runs at once when its check passes (R91, R95). -/
def Dev.vfStart (d : Dev) (c : Check) : Dev :=
  let d := d.modPage c.page fun x => { x with running := true }
  match pageQueue c.page with
  | some q => ((d.openQueue q).grant q c.regs).postLost q
  | none => d

/-- An EN write starts an enable check (R67): EN reads 0 and CHECKING 1 while it runs. No effect while EN reads 1 or a check runs,
nor on a queue pair that drains (R95) or a page without a header. -/
def Dev.startCheck (d : Dev) (p : Nat) : Dev :=
  let x := d.page p
  let drains := match pageQueue p with | some q => d.draining q || x.running | none => false
  if x.checking || bit (d.rg (p * 4096 + 8)) 0 || drains then d
  else
    let c : Check := ⟨p, pageRegs d.regs p, d.row.number⟩
    ({ d with checks := d.checks ++ [c] }).modPage p fun x => { x with checking := true }

end Sys2Proof.Machine
end

