-- ==== Sys2Proof/Machine/Ends.lean ====
section
/-! DEFINITION. How a step drops and how a strand ends: the fault log, drop counters, lanes, completions and aborts
(R34 to R39, R107, R115, R125, R132, R136 to R138, R345, R454, R480, R482). -/

namespace Sys2Proof.Machine

/-- The newest 4,096 of a list of records, and those before them (R481). -/
def logKept (all : List LogRec) : List LogRec := (all.reverse.take 4096).reverse
def logOld (all : List LogRec) : List LogRec := (all.reverse.drop 4096).reverse

/-- A record appended to the fault log: the last 4,096 stay, and FL_OVERWRITTEN counts one overwritten unread (R481, R482). -/
def Dev.logEvent (d : Dev) (slot event strand tenant loc code : Nat) : Dev :=
  let ti := (pageInfo slot).getD (0, 0)
  let seq := d.rg (pf 7 0x108)
  let all := d.fault.log ++ [⟨d.row.number, ti.1, ti.2, event, strand, tenant, loc, code, seq⟩]
  let old := logOld all
  let unread := (old.filter fun r => !d.fault.seen.contains r.seq).length
  let seen := d.fault.seen.filter fun n => !(old.any (·.seq == n))
  (({ d with fault := { d.fault with log := logKept all, seen := seen } }).put (pf 7 0x108) ((seq + 1) % 2 ^ 32)).bump (pf 7 0x07C) unread

/-- The descriptor page a model is bound to (R339). -/
def Dev.modelPage (d : Dev) (h : Nat) : Option Nat :=
  if h = 0 then none else ((List.range 64).find? fun i => d.inForce (pf (0x50 + i) 0x100) == h).map (0x50 + ·)

/-- A counter of a model's descriptor page (R354). -/
def Dev.bumpModel (d : Dev) (h off n : Nat) : Dev := match d.modelPage h with | some p => d.bump (pf p off) n | none => d
def Dev.bumpModelK (d : Dev) (h off n : Nat) : Dev := match d.modelPage h with | some p => d.bumpK (pf p off) n | none => d

/-- Free values: the next one, and the device past it (log 4). -/
def Dev.nextFree (d : Dev) : Nat := Config.freeValue d.free
def Dev.passFree (d : Dev) : Dev := { d with free := d.free + 1 }

/-- The rows of a generation's rounds: steps that run in a lane (R343). -/
def Kind.inRound : Kind → Bool
  | .prefill | .decode | .head | .sample | .idle => true
  | _ => false

/-- The decoder epoch a generation strand runs on: its stamp, and the rows of its rounds. -/
def Dev.decoderOf (d : Dev) (s : Strand) : Option (Nat × Nat) :=
  match s.pins.find? (fun p => p.1 == s.cmd.object) with
  | none => none
  | some (h, stamp) => ((nget d.objs h).bind (·.epoch stamp)).map fun e => (stamp, max 1 (pattern e.content.bytes).roundRows)

/-- A lane offset opened for a decoder epoch when it is not the main lane's and not open (R345). -/
def Dev.openLane (d : Dev) (h stamp off : Nat) : Dev :=
  match d.lanesOf h stamp with
  | none => d
  | some l =>
    if off = 0 || l.lagging.contains off then d
    else
      ({ d with lanes := d.lanes.map fun (x : Lanes) => if x.handle = h && x.stamp = stamp then { x with lagging := x.lagging ++ [off] } else x }).bumpModel
        h 0x050 1

/-- The row-timer counter of a drop cause (R35). -/
def dropCounter (cause : Nat) : Nat := 0x040 + 4 * (cause - 1)

/-- The fault counters of a tenant for one drop (R480): late causes, error causes, OVERRUN. -/
def Dev.dropTenant (d : Dev) (t cause : Nat) : Dev :=
  if t = 0 then d
  else
    let d := d.tenantFault t 0x060 1
    if [1, 2, 3, 5, 7, 8].contains cause then d.tenantFault t 0x064 1
    else if cause = 4 || cause = 6 then d.tenantFault t 0x068 1
    else if cause = 9 then d.tenantFault t 0x06C 1
    else d

/-- The Tuivy port over which a late transfer was due: downstream on the master, upstream on a member, redundant when the primary link is
down (R430, R435, R459). -/
def Dev.latePort (d : Dev) : Nat :=
  let p := if d.mgmt.masterLow then 1 else 0
  if 2 ≤ bits (d.rg (pf (0x0A0 + p) 0x104)) 1 0 then p else p + 2

/-- The present step stands inside a round (R343). -/
def Strand.inRoundNow (s : Strand) : Bool := match s.steps.head? with | some st => st.kind.inRound && s.isGen | none => false

/-- The lane offset after a drop: one later inside a round (R345). -/
def Dev.laneAfter (d : Dev) (s : Strand) : Nat :=
  match d.decoderOf s with | some (_, r) => if s.inRoundNow then (s.lane + 1) % r else s.lane | none => s.lane

/-- A strand's lane offset opened after a drop inside a round (R345). -/
def Dev.openAfter (d : Dev) (s : Strand) (dec : Option (Nat × Nat)) (lane : Nat) : Dev :=
  match dec with | some (stamp, _) => if s.inRoundNow then d.openLane s.cmd.object stamp lane else d | none => d

/-- The present step of a strand drops with a cause, once in a row: it runs again in the next row, one lane later inside a round
(R34, R36, R39, R132, R345). -/
def Dev.dropStep (d : Dev) (id cause : Nat) : Dev :=
  match nget d.strands id with
  | none => d
  | some s =>
    if s.state = 3 || s.fate != 0 then d
    else
      let lane := d.laneAfter s
      let s' := { s with drops := s.drops + 1, consec := s.consec + 1, cause := cause, lane := lane, fate := 1 }
      let d := ({ d with strands := nset d.strands id s' }).openAfter s (d.decoderOf s) lane
      let d := if cause = 7 then d.bump (pf (0x0A0 + d.latePort) 0x054) 1 else d
      (d.bump (pf 1 (dropCounter cause)) 1).dropTenant s.cmd.q.tenant cause

/-- The final completion of a strand (R108, R109). -/
def Dev.finishStrand (d : Dev) (id : Nat) (s : Strand) (status reason flags count extra : Nat) : Dev :=
  d.finish s.cmd ⟨s.cmd.cid, flags, 0, status, reason, id, count, s.admitRow, s.drops, d.row.number - s.admitRow, extra, s.counter⟩

/-- The counters of an end, by its status (R38, R125, R136, R141, R143, R161, R246). -/
def Dev.countEnd (d : Dev) (t status : Nat) : Dev :=
  let tn (d : Dev) (off : Nat) : Dev := if t = 0 then d else d.bump (pf (tenantPage t) off) 1
  if status ≤ 6 then
    let d := tn (d.bump (pf 6 0x060) 1) 0x04C
    if status = 1 then tn d 0x05C else d
  else if status = 0x11 then tn (d.bump (pf 1 0x064) 1) 0x054
  else if status = 0x12 then tn (d.bump (pf 2 0x224) 1) 0x058
  else if status = 0x14 then tn (d.bump (pf 6 0x064) 1) 0x050
  else d

/-- What the end of a strand tells other modules: the parts of a spanning strand end with the next row marker (R454). -/
def Dev.endParts (d : Dev) (id : Nat) (s : Strand) : Dev :=
  if s.spans && s.part.isNone then d.emit (.cascade 11 255 [id]) else d

/-- A strand put into ENDING: its reservations are released at the next boundary (R114, R115). -/
def Dev.toEnding (d : Dev) (id : Nat) : Dev :=
  d.modStrand id fun s => { s with state := 3, steps := [], final := none, work := Work.blank }

/-- Output written to the host: bytes at offsets of the output buffer (R104). -/
def Dev.writeOut (d : Dev) (c : Cmd) (l : List (Nat × List Byte)) : Dev :=
  l.foldl (fun d p => if p.2.isEmpty then d else d.emit (.data c.q.tenant (c.outAddr + p.1) p.2)) d

/-- An end with a completion posted in the present row (R136); a part posts none (R451). COUNT is the output written so far. -/
def Dev.endNow (d : Dev) (id status reason extra : Nat) : Dev :=
  match nget d.strands id with
  | none => d
  | some s =>
    if s.state = 3 then d
    else
      let d := if s.part.isSome then d
        else (((d.writeOut s.cmd s.work.out).finishStrand id s status reason 0 (if status = 0x10 then 0 else s.work.released) extra).countEnd
          s.cmd.q.tenant status).endParts id s
      d.toEnding id

/-- An end without a completion (R136): counted as ABORTED, and the command leaves its queue's fetched commands (R141). -/
def Dev.endSilent (d : Dev) (id : Nat) : Dev :=
  match nget d.strands id with
  | none => d
  | some s =>
    if s.state = 3 then d
    else
      let d := if s.part.isSome then d
        else ((d.modQp s.cmd.q fun x => { x with outstanding := x.outstanding - 1 }).countEnd s.cmd.q.tenant 0x14).endParts id s
      d.toEnding id

/-- Tokens generated so far: EXTRA of ABORTED (R109). -/
def Strand.generated (s : Strand) : Nat := s.work.gen.toks.length

/-- A strand aborted: ABORTED, keeping the output it has released (R107, R138). -/
def Dev.abortStrand (d : Dev) (id : Nat) : Dev :=
  match nget d.strands id with
  | none => d
  | some s => d.endNow id 0x14 0 s.generated

/-- A strand refused after admission in the row its tokenisation or pack stitch commits (R125, R376). -/
def Dev.lateContext (d : Dev) (id : Nat) : Dev := (d.endNow id 0x10 0x012A 0).bump (pf 6 0x068) 1

/-- The normal end: its completion is posted in the next row, and its last stitch has read what it pins (R115, R155). -/
def Dev.endNormal (d : Dev) (id status reason flags count extra : Nat) : Dev :=
  let row := d.row.number + 1
  d.modStrand id fun s => { s with steps := [], final := some ⟨status, reason, flags, count, extra, row⟩, unpin := s.pins.map (·.1) }

end Sys2Proof.Machine
end

