-- ==== Sys2Proof/Machine/Work.lean ====
section
/-! DEFINITION. What one committed step of a strand does: tokenisation, encoders, the walk and scan rows of a search, selection,
re-rank, lookups and packing (R221 to R227, R238 to R258, R317 to R323, R342, R363 to R377, R452, R453). -/

namespace Sys2Proof.Machine

/-- The content of the epoch a strand pins of a handle (R153). -/
def Dev.pinned? (d : Dev) (s : Strand) (h : Nat) : Option Content :=
  match s.pins.find? (fun p => p.1 == h) with
  | none => none
  | some (h, stamp) => ((nget d.objs h).bind (·.epoch stamp)).map (·.content)

def Dev.content (d : Dev) (s : Strand) (h : Nat) : Content := (d.pinned? s h).getD Content.empty

/-- The unit that serves for a unit page: the page itself, or the spare that stands in for it (R467, R468). -/
def Dev.server (d : Dev) (p : Nat) : Option Nat :=
  if !(d.page p).quiesced then some p
  else match unitType p with
    | none => none
    | some u => (unitSlots u).find? fun q => (d.page q).standFor == some p && !(d.page q).quiesced

/-- Units of a type in a pool that can take a stitch, in ascending active index (R33). -/
def Dev.placeable (d : Dev) (u pool : Nat) : List Nat :=
  (sortBy (fun a b => (d.page a).active ≤ (d.page b).active) (d.poolUnits u pool)).filterMap d.server

/-- The unit of a type that does a strand's work beside its stitches: the first free one of its pool. -/
def Dev.helper (d : Dev) (s : Strand) (u : Nat) : Nat := ((d.placeable u (s.pool u)).head?).getD 0

/-- A counter of a unit page raised; no page, no counter. -/
def Dev.bumpUnit (d : Dev) (p off n : Nat) : Dev := if p = 0 then d else d.bump (pf p off) n
def Dev.bumpUnitK (d : Dev) (p off n : Nat) : Dev := if p = 0 then d else d.bumpK (pf p off) n

/-- A strand replaced. -/
def Dev.putStrand (d : Dev) (id : Nat) (s : Strand) : Dev := { d with strands := nset d.strands id s }

/-- The present step done: the next one stands first, and no drop is outstanding (R38). -/
def Strand.advance (s : Strand) : Strand :=
  let n := match s.steps.head? with | some st => st.stitches.length | none => 0
  { s with steps := s.steps.tail, consec := 0, reading := [], scratch := [], done := [], fate := 2, stitchBase := s.stitchBase + n }

/-- The unit that ran the present step's first committed stitch of a type; 0 for none. -/
def Strand.unitOf (s : Strand) (u : Nat) : Nat :=
  match s.steps.head? with
  | none => 0
  | some st => ((s.done.find? fun p => (st.stitches[p.1]?).any fun x => x.utype == u).map (·.2)).getD 0

/-- Handles whose last reading stitch has committed: their pins drop at the next boundary (R155). -/
def Strand.unpinning (s : Strand) (hs : List Nat) : Strand := { s with unpin := s.unpin ++ hs.filter (· != 0) }

/-- Counters of a tokenisation on a text engine (R386). -/
def Dev.countTokens (d : Dev) (p bytes tokens : Nat) (st : TokStat) : Dev :=
  ((((d.bumpUnitK p 0x040 bytes).bumpUnitK p 0x044 tokens).bumpUnit p 0x048 st.hits).bumpUnit p 0x04C st.bad).bumpUnit p 0x050 st.cuts

/-- The tokens of the prompt region in a model's vocabulary, as text or as token IDs (R361 to R367). -/
def Cmd.readTokens (c : Cmd) (m : Content) : List Nat × TokStat :=
  if c.tokenInput then (c.tokens, ⟨0, 0, 0⟩) else tokenisePrompt (vocabOf m.bytes) c.text

/-- A prompt that ends its strand late: no token, or beyond the model's context (R125). -/
def contextLate (m : Content) (tokens extra : Nat) : Bool := tokens = 0 || (modelDesc m.bytes).context < tokens + extra

/-- Whole entries of a size that fit in the output buffer (R109). -/
def Cmd.fitting (c : Cmd) (size n : Nat) : Nat := if size = 0 then n else min n (c.outLen / size)

/-- The result flags (R108): TIE_AT_K, DUP_CONFLICT, TRUNCATED, EMPTY_BAG, NAN_SEEN. -/
def resultFlags (tie dup trunc empty nan : Bool) : Nat := b2n tie * 2 + b2n dup * 4 + b2n trunc * 8 + b2n empty * 16 + b2n nan * 32

/-- A strand that has run its last step with its output and completion (R115). -/
def Dev.conclude (d : Dev) (id : Nat) (s : Strand) (out : List Byte) (status flags count extra : Nat) : Dev :=
  (d.putStrand id { s with work := { s.work with out := [(0, out)] } }).endNormal id status 0 flags count extra

/-! Encoders and rankers -/

/-- The epochs of a model's tables that a strand pins (R154, R167). -/
def Dev.tablesOf (d : Dev) (s : Strand) (m : Content) : List Bytes := (modelDesc m.bytes).tables.map fun t => (d.content s t).bytes

/-- Passes of an invocation counted as they end (R342, R354). -/
def Dev.countPass (d : Dev) (h : Nat) (m : Content) (st : Step) : Dev :=
  if st.key + 1 = max 1 (d.recOf m).invRows then d.bumpModel h 0x040 1 else d

/-- The tokens an encoder reads, when its last tokenise stitch commits on a text engine (R560); none when the strand ends late. -/
def Dev.encoderTokens (d : Dev) (id : Nat) (s : Strand) (unit : Nat) : Dev × Option Strand :=
  let m := d.content s s.cmd.encoder
  let r := s.cmd.readTokens m
  let d := d.countTokens unit (if s.cmd.tokenInput then 0 else s.cmd.text.length) r.1.length r.2
  if contextLate m r.1.length 0 then (d.lateContext id, none)
  else (d, some { s with work := { s.work with tokens := r.1 } })

/-- The FP32 elements an encoder gives (R342, log 8). -/
def Dev.encoded (d : Dev) (s : Strand) (m : Content) : List Nat :=
  (List.range (modelDesc m.bytes).outDim).map fun j => Config.encoderElem m.bytes (d.tablesOf s m) s.work.tokens s.work.acts j % 2 ^ 32

/-- A row of the query encoder: EMBED concludes with its vector, a retrieval takes the converted query (R221, R342). -/
def Dev.doEmbed (d : Dev) (id : Nat) (s : Strand) (st : Step) : Dev :=
  let h := s.cmd.encoder
  let m := d.content s h
  let d := d.countPass h m st
  let s := s.advance
  if !st.last then d.putStrand id s
  else
    let v := d.encoded s m
    if s.cmd.opcode = 0x10 then
      let code := s.cmd.dw 9
      let out := elemBytes code (v.map fun w => narrowSat code (v32 w))
      let n := s.cmd.fitting out.length 1
      d.conclude id s (if n = 0 then [] else out) 0 (resultFlags false false (n = 0) false false) n 0
    else
      let q := convQuery (ixDesc (d.content s s.cmd.index).bytes) 0 (elemBytes 0 v)
      d.putStrand id ({ s with work := { s.work with query := q, acts := [] } }.unpinning (h :: (modelDesc m.bytes).tables))

/-- The FP32 score of an item: its tables are read in the epochs the strand pins, and a NaN is the canonical one (R167, R289, R342). -/
def Dev.itemScore (d : Dev) (s : Strand) (m : Content) (item : List Byte) : Nat :=
  r32 (v32 (Config.itemScore m.bytes (d.tablesOf s m) item s.work.acts % 2 ^ 32))

/-- A row of a ranker: the last one writes one FP32 score per item (R342). -/
def Dev.doRank (d : Dev) (id : Nat) (s : Strand) (st : Step) : Dev :=
  let m := d.content s s.cmd.object
  let d := d.countPass s.cmd.object m st
  let s := s.advance
  if !st.last then d.putStrand id s
  else
    let len := s.cmd.dw 9
    let n := s.cmd.fitting 4 (s.cmd.dw 8)
    let out := ((List.range n).map fun i => toLe 4 (d.itemScore s m (slice s.cmd.inp (i * len) len))).flatten
    d.conclude id s out 0 (resultFlags false false (n < s.cmd.dw 8) false false) n 0

/-! Searches -/

/-- The filter program of a search, if any (R106, R244). -/
def Dev.filterOf (d : Dev) (s : Strand) : Option Bytes :=
  let h := s.cmd.search.filter
  if h = 0 then none else let b := (d.content s h).bytes; if filterCount b = 0 && objFormat b == 1 then none else some b

/-- K′ of a strand: of its command, or of the part it serves (R248, R452). -/
def Strand.kp (s : Strand) : Nat := if s.part.isSome then s.cmd.dw 13 else s.cmd.kPrime

/-- The K that a search's heap and short tests work to (R223, R245). -/
def Strand.heapK (s : Strand) : Nat := s.cmd.search.k

/-- The heap length of pass e of a strand's search (R223, R225). -/
def Strand.heapL (s : Strand) (e : Nat) : Nat := heapLen s.cmd.search.overf s.heapK e

/-- The kept lists of a strand's shards merged (R238, R247). -/
def Dev.mergedOf (d : Dev) (s : Strand) : List Cand × Nat × Nat :=
  mergeLists (s.work.walks.map fun w => (shardList w).filter (keeps (d.filterOf s)))

/-- Counters of one shard's context before and after a stitch, on the search core that ran it (R236). -/
def Dev.countWalk (d : Dev) (p : Nat) (a b : Walk) : Dev :=
  ((((d.bumpUnit p 0x040 (b.waves - a.waves)).bumpUnit p 0x044 (b.reads - a.reads)).bumpUnitK p 0x048 (b.scanned - a.scanned)).bumpUnit
    p 0x04C (b2n (!a.ended && b.ended && converged b))).bumpUnit p 0x050 (b.skips - a.skips)

/-- The steps left when no step of some kinds runs any more. -/
def Strand.without (s : Strand) (ks : List Kind) : Strand := { s with steps := s.steps.filter fun st => !ks.contains st.kind }

/-- A short test commits on a select-and-merge unit: its merge counts, and the strand is full when the list holds K entries or more
(R238, R245, R247). -/
def Dev.shortTest (d : Dev) (s : Strand) (p : Nat) : Dev × Strand :=
  let (l, removed, conf) := d.mergedOf s
  let full : Bool := s.heapK ≤ l.length
  let bad := match d.filterOf s with | some b => filterInvalid b | none => false
  ((((((d.bumpUnit p 0x060 1).bumpUnit p 0x064 (b2n (!full))).bumpUnit p 0x06C (b2n bad)).bumpUnit p 0x054 removed).bumpUnit p 0x058 conf),
    { s with work := { s.work with full := full, conflict := s.work.conflict || conf != 0 } })

/-- Up to n waves of the walk of a shard until it ends (R222, R224). -/
def walkRow (c : Content) (s : Strand) : Nat → Walk → Walk
  | 0, w => w
  | n + 1, w =>
    if w.ended then w
    else
      let x := ixDesc c.bytes
      walkRow c s n (wave c.bytes x c.index s.work.query s.cmd.search.depth (s.heapL 0) (x.waves ≤ w.waves + 1) w)

/-- Sprout records that scan row r of a pass scans: the pass starts with the sprout, V records a row (R227). -/
def sproutInRow (x : IxDesc) (ix : IndexBody) (r : Nat) : Nat := min (scanPerRow x) (ix.sprout.length - r * scanPerRow x)

/-- The context of a shard after its stitch of a step (R221, R222, R225, R227): pass e of a scan holds its list in its last row, and what the
passes before it have read, scanned and refused adds up. -/
def shardStep (P : Nat) (c : Content) (s : Strand) (st : Step) (i : Nat) (w : Walk) : Walk :=
  let x := ixDesc c.bytes
  let e := s.work.ext + 1
  match st.kind with
  | .prep => if x.cls = 0 then prepWalk c.bytes x c.index s.work.query s.cmd.search.depth (s.heapL 0) else Walk.fresh
  | .walk => walkRow c s (wavesPerRow P) w
  | .extend => wave c.bytes x c.index s.work.query s.cmd.search.depth (s.heapL e) true w
  | _ =>
    let n := sproutInRow x c.index st.key
    let w := { w with waves := w.waves + 1, reads := w.reads + n, scanned := w.scanned + n }
    if !st.last then w
    else
      let full := scanShard x c.index s.work.query (s.heapL (if st.kind = .scan then 0 else e)) i
      { w with heap := full.heap, ended := true, nans := w.nans + full.nans }

/-- One walk of a list changed; walks that do not exist yet are fresh. -/
def setWalk (n i : Nat) (w : Walk) (ws : List Walk) : List Walk :=
  (List.range n).map fun j => if j = i then w else ws.getD j Walk.fresh

/-- Every stitch of a wave of the present step has committed. -/
def Strand.waveDone (s : Strand) (st : Step) (wave : Nat) : Bool :=
  st.stitches.zipIdx.all fun p => match p.1.role with
    | .shard w _ => w != wave || s.done.any (·.1 == p.2)
    | _ => true

/-- A wave or scan stitch of a shard commits (R222, R225, R227): an extension is over when every shard has run it. -/
def Dev.doShard (d : Dev) (s : Strand) (st : Step) (wave i p : Nat) : Dev × Strand :=
  let c := d.content s s.cmd.index
  let old := s.work.walks.getD i Walk.fresh
  let new := shardStep d.period c s st i old
  let ext := s.work.ext + b2n (st.kind == .extend && s.waveDone st wave)
  (d.countWalk p old new, { s with work := { s.work with walks := setWalk (ixDesc c.bytes).shards i new s.work.walks, ext := ext } })

/-- The query of a SEARCH converted (R221); a retrieval's query came from its encoder. -/
def Dev.withQuery (d : Dev) (s : Strand) : Strand :=
  if s.part.isNone && s.cmd.opcode = 0x11 then
    { s with work := { s.work with query := convQuery (ixDesc (d.content s s.cmd.index).bytes) s.cmd.search.qfmt s.cmd.inp } }
  else s

/-- A walk row is over: no walk row follows when every walk has ended, and no extension when the short test was full (R224, R226, R245). -/
def Strand.afterWalk (s : Strand) : Strand :=
  let s' := s.advance
  if s.work.walks.all (·.ended) then (if s.work.full then s'.without [.walk, .extend] else s'.without [.walk]) else s'

/-- An extension row is over (R225, R226, R245). -/
def Strand.afterExtend (s : Strand) : Strand :=
  if s.work.full || s.cmd.search.ext ≤ s.work.ext then s.advance.without [.extend] else s.advance

/-- A scan row is over: the last one of a pass ends the pass (R227, R245). -/
def Strand.afterScan (s : Strand) (st : Step) : Strand :=
  let s' := s.advance
  if !st.last then s'
  else
    let s' := { s' with work := { s'.work with ext := if st.kind = .scan then 0 else s'.work.ext + 1 } }
    if s.work.full then s'.without [.rescan] else s'

/-- The counter of the path a selection of k takes (R252, R259). -/
def pathCounter (k : Nat) : Nat := match selectPath k with | 0 => 0x040 | 1 => 0x044 | _ => 0x048

/-- What the end of a search or retrieval counts on the units of its last selection and of its select row (R246, R250, R251, R259). -/
def Dev.countResult (d : Dev) (w : Work) (short : Bool) : Dev :=
  ((d.bumpUnit w.finalUnit 0x05C (b2n (w.ties != 0))).bumpUnit w.selectUnit 0x068 (b2n short)).bumpUnit w.finalUnit 0x050 w.nans

/-- The result entries of a search or retrieval, cut at the buffer (R109, R110, R246, R250, R251, R258). -/
def Dev.searchResult (d : Dev) (id : Nat) (s : Strand) (reranked : Bool) : Dev :=
  let x := ixDesc (d.content s s.cmd.index).bytes
  let k := s.cmd.search.k
  let es := s.work.cands.take k
  let n := s.cmd.fitting 16 es.length
  let short := es.length < k
  let tie := s.work.ties != 0
  let d := d.countResult s.work short
  d.conclude id s ((es.take n).map (resultEntry x reranked)).flatten (b2n short)
    (resultFlags tie s.work.conflict (n < es.length) false (s.work.nans != 0)) n (min s.work.nans 65535 * 65536 + min s.work.ties 65535)

/-- Concludes a search or a retrieval that has no step left; a retrieval of RETRIEVE_GENERATE goes on to packing. -/
def Dev.searchStep (d : Dev) (id : Nat) (s : Strand) (reranked : Bool) : Dev :=
  if s.steps.isEmpty && s.part.isNone then d.searchResult id s reranked else d.putStrand id s

/-- The select row: filter, merge and selection of the strand's own shards (R238, R247 to R251, R256). -/
def Dev.doSelect (d : Dev) (id : Nat) (s : Strand) (st : Step) : Dev :=
  let p := s.unitOf 4
  let s := s.advance
  if !st.last then d.putStrand id s
  else
    let k := s.kp
    let (l, removed, conf) := d.mergedOf s
    let r := selectK k l
    let bad := match d.filterOf s with | some b => filterInvalid b | none => false
    let d := (((d.bumpUnit p (pathCounter k) 1).bumpUnit p 0x054 removed).bumpUnit p 0x058 conf).bumpUnit p 0x06C (b2n bad)
    let refused := sumNat (s.work.walks.map fun (w : Walk) => w.nans)
    let s := { s with work := { s.work with
      cands := r.entries, ties := r.ties, nans := s.work.nans + r.nans + refused, conflict := s.work.conflict || conf != 0, walks := []
      selectUnit := p, finalUnit := p } }
    d.searchStep id (s.unpinning [s.cmd.search.filter]) false

/-- The broadcast row of a spanning search: the converted query, the pinned counter, K′ and the search fields (R452). -/
def Dev.doBroadcast (d : Dev) (id : Nat) (s : Strand) : Dev :=
  let s := (d.withQuery s).advance
  let a := s.cmd.search
  (d.emit (.cascade 7 255 ([id, s.counter, s.kp, s.cmd.index, a.k, a.ext, a.depth, a.overf, a.filter, a.passages] ++ s.work.query))).putStrand id s

/-- The key of K′-th entry of a list, if it holds one. -/
def kthKey (k : Nat) (l : List Cand) : Option Nat := if k = 0 then none else (l[k - 1]?).map rankKey

/-- Modules whose lists a gather still misses (R452, R454). -/
def Dev.listsMissing (d : Dev) (s : Strand) : Bool :=
  (List.range' 1 (d.cas.modules - 1)).any fun i => !(s.work.lists.any (·.1 == i))

/-- The gather row: on a member, its entries and counts go upstream; on the master, the lists merge in ascending module index
(R247, R248, R250, R452). -/
def Dev.doGather (d : Dev) (id : Nat) (s : Strand) (st : Step) : Dev :=
  let p := s.unitOf 4
  let s := s.advance
  if !st.last then d.putStrand id s
  else match s.part with
  | some m =>
    let entries := (s.work.cands.map fun c => [c.entry.pid, c.key]).flatten
    (d.emit (.cascade 8 0 ([m, d.cas.index, s.work.cands.length] ++ entries ++ [s.work.ties, s.work.nans]))).putStrand id s
  | none =>
    let k := s.kp
    let ls := sortBy (fun a b => a.1 ≤ b.1) s.work.lists
    let (l, removed, conf) := mergeLists (s.work.cands :: ls.map (·.2.1))
    let r := selectK k l
    let last := kthKey k r.entries
    let own (cs : List Cand) (left : Nat) : Nat :=
      match kthKey k cs, last with
      | some a, some b => if f32eq a b then left else 0
      | _, _ => 0
    let left := own s.work.cands s.work.ties + sumNat (ls.map fun x => own x.2.1 x.2.2)
    let d := ((d.bumpUnit p (pathCounter k) 1).bumpUnit p 0x054 removed).bumpUnit p 0x058 conf
    let s := { s with work := { s.work with
      cands := r.entries, ties := r.ties + left, nans := s.work.nans + r.nans, conflict := s.work.conflict || conf != 0, lists := []
      finalUnit := p } }
    d.searchStep id s false

/-- A fetch row: a spanning retrieval requests in the first row the passages of each module that owns one (R453, R560). -/
def Dev.doFetch (d : Dev) (id : Nat) (s : Strand) (st : Step) : Dev :=
  let s := s.advance
  let d := if s.spans && st.key = 0 then
      (List.range' 1 (d.cas.modules - 1)).foldl (fun d m =>
        let ids := (s.work.cands.filter fun c => bits c.entry.pid 47 44 == m).map (·.entry.pid)
        if ids.isEmpty then d else d.emit (.cascade 9 m (id :: ids))) d
    else d
  let counted (c : Cand) : Cand :=
    match s.work.passages.find? (·.1 == c.entry.pid) with
    | some q => { c with entry := { c.entry with toks := q.2.length } }
    | none => c
  let s := if s.spans && st.last then { s with work := { s.work with cands := s.work.cands.map counted } } else s
  d.searchStep id s false

/-- The tokens of a passage read under a vocabulary's size: from another module's reply, else from the store (R371, R453). -/
def Dev.passage (d : Dev) (s : Strand) (size : Nat) (e : IxEntry) : Option (List Nat) :=
  match s.work.passages.find? (·.1 == e.pid) with
  | some q => if q.2.isEmpty || q.2.any (size ≤ ·) then none else some q.2
  | none => passageTokens (d.content s s.cmd.search.passages).bytes size e.line e.toks

/-- A query–passage pair cut to the context (R335). -/
def cutPair (context : Nat) (q p : List Nat) : List Nat × List Nat := (q.take context, p.take (context - q.length))

/-- The final selection of a re-rank, on the unit that ran its last stitch (R258, R335, R371). -/
def Dev.rankScores (d : Dev) (id : Nat) (s : Strand) : Dev :=
  let h := s.cmd.reranker
  let m := d.content s h
  let u := s.unitOf 4
  let s := s.advance
  let v := vocabOf m.bytes
  let q := (tokenisePrompt v s.cmd.text).1
  let score (c : Cand) : Cand :=
    let pr := cutPair (modelDesc m.bytes).context q ((d.passage s v.size c.entry).getD [])
    { c with score := some (r32 (v32 (Config.pairScore m.bytes (d.tablesOf s m) pr.1 pr.2 s.work.acts % 2 ^ 32))) }
  let bad := (s.work.cands.filter fun c => (d.passage s v.size c.entry).isNone).length
  let r := selectK s.cmd.search.k (s.work.cands.map score)
  let d := (d.bumpUnit (d.helper s 3) 0x060 bad).bumpUnit u (pathCounter s.cmd.search.k) 1
  let s := { s with work := { s.work with cands := r.entries, ties := r.ties, nans := s.work.nans + r.nans, finalUnit := u } }
  let s := s.unpinning (h :: (modelDesc m.bytes).tables ++ (if s.cmd.opcode = 0x19 then [] else [s.cmd.search.passages]))
  d.searchStep id s true

/-- A row of the cross-encoder (R342): the last one ranks by score when one stitch does the final selection. -/
def Dev.doRerank (d : Dev) (id : Nat) (s : Strand) (st : Step) : Dev :=
  let h := s.cmd.reranker
  let d := d.countPass h (d.content s h) st
  if st.last then d.rankScores id s else d.putStrand id s.advance

/-- A further row of a long final selection (R256). -/
def Dev.doResort (d : Dev) (id : Nat) (s : Strand) (st : Step) : Dev :=
  if st.last then d.rankScores id s else d.putStrand id s.advance

/-! Embedding lookups -/

/-- A row of a lookup: the last pooling row writes the vectors (R319 to R324). -/
def Dev.doLookup (d : Dev) (id : Nat) (s : Strand) (st : Step) : Dev :=
  let s := s.advance
  if !st.last then d.putStrand id s
  else
    let b := (d.content s s.cmd.object).bytes
    let t := tblDesc b
    let bags := s.cmd.dw 8
    let mean := s.cmd.dw 10 == 1
    let fmt := s.cmd.dw 11
    let (rows, absent) := bagRows t s.cmd.inp bags (s.cmd.dw 9)
    let empty := (rows.filter (·.isEmpty)).length
    let pairs := sumNat (rows.map fun r => (multiplicities r).length)
    let d := ((((d.bumpK (pf 0xF 0x040) (sumNat (rows.map (·.length)))).bumpK (pf 0xF 0x044) (multiplicities rows.flatten).length).bumpK
      (pf 0xF 0x048) pairs).bump (pf 0xF 0x04C) empty).bump (pf 0xF 0x050) absent
    let n := s.cmd.fitting (poolStride t fmt) bags
    d.conclude id s (poolOutput t fmt ((rows.take n).map (poolBag b t mean fmt))) 0
      (resultFlags false false (n < bags) (mean && empty != 0) false) n empty

end Sys2Proof.Machine
end

