-- ==== Sys2Proof/Machine/Generate.lean ====
section
/-! DEFINITION. Generation: tokenised and packed prompts, lanes and rounds, the sampling row, released bytes and records
(R125, R343 to R348, R373 to R385, R388 to R410). -/

namespace Sys2Proof.Machine

/-- The steps of a strand's next round (R343, R347): prefill while chunks remain, sampling from the last chunk's round on. -/
def Dev.nextRound (d : Dev) (s : Strand) : List Step :=
  let g := s.work.gen
  d.roundSteps (d.content s s.cmd.object) (g.rounds < g.chunks) (g.chunks ≤ g.rounds + 1)

/-- The strand with a new round in front when its steps have run out (R343). -/
def Dev.keepRound (d : Dev) (s : Strand) : Strand :=
  if s.steps.isEmpty && s.final.isNone then
    let s := { s with work := { s.work with gen := { s.work.gen with rounds := s.work.gen.rounds + 1 } } }
    { s with steps := d.nextRound s }
  else s

/-- A decoder's prompt is known: its rounds begin at the join row of the main lane (R344, R347). -/
def Dev.startGen (d : Dev) (id : Nat) (s : Strand) (prompt : List Nat) : Dev :=
  let m := d.content s s.cmd.object
  let p := pattern m.bytes
  let origin := match d.decoderOf s with
    | some (stamp, _) => (match d.lanesOf s.cmd.object stamp with | some l => l.origin | none => d.row.number + 1)
    | none => d.row.number + 1
  let gen : Gen := { Gen.blank with prompt := prompt, chunks := chunkCount p prompt.length }
  let w := { Work.blank with gen := gen, out := s.work.out, ties := s.work.ties, nans := s.work.nans, conflict := s.work.conflict
                             finalUnit := s.work.finalUnit }
  let s := { s with work := w, start := joinRow origin p.roundRows (d.row.number + 1), lane := 0 }
  d.putStrand id { s with steps := d.nextRound s }

/-- A tokenise or copy row: the last one checks the context again and starts the rounds (R125, R363, R368). -/
def Dev.doTokenise (d : Dev) (id : Nat) (s : Strand) (st : Step) : Dev :=
  if !s.cmd.isGen || s.cmd.opcode = 0x19 || !st.last then d.putStrand id s.advance
  else
    let m := d.content s s.cmd.object
    let r := s.cmd.readTokens m
    let d := d.countTokens (s.unitOf 3) (if s.cmd.tokenInput then 0 else s.cmd.text.length) r.1.length r.2
    if contextLate m r.1.length s.cmd.maxNew then d.lateContext id
    else
      let kv := min s.kv (kvPages (modelDesc m.bytes) (r.1.length + s.cmd.maxNew))
      d.startGen id { s.advance with kvNext := kv } r.1

/-- A pack row: the last one places the prompt (R373 to R377). -/
def Dev.doPack (d : Dev) (id : Nat) (s : Strand) (st : Step) : Dev :=
  let p := s.unitOf 3
  let s := s.advance
  if !st.last then d.putStrand id s
  else
    let m := d.content s s.cmd.object
    let a := s.cmd.search
    let v := vocabOf m.bytes
    let budget := (modelDesc m.bytes).context - s.cmd.maxNew
    let offered := (s.work.cands.take a.k).map (·.entry)
    let k := packPrompt v (d.content s a.template).bytes (d.passage s v.size) s.cmd.text offered budget (bit (s.cmd.retrieveBlock.getD 2 0) 24)
    let d := ((((d.bumpUnit p 0x054 k.whole).bumpUnit p 0x058 k.cut).bumpUnit p 0x05C k.left).bumpUnit p 0x060 k.badPassages).bumpUnit
      p 0x064 k.badPieces
    let d := d.countTokens p k.bytes k.fixedTokens k.stat
    if budget < k.fixedTokens || k.tokens.isEmpty then d.lateContext id
    else d.startGen id (s.unpinning [s.cmd.index, a.template, a.passages]) k.tokens

/-- The strand key: SEED for a generation, 0 for every other command with a pattern (R170). -/
def Cmd.strandKey (c : Cmd) : Nat := if c.isGen then c.seed else 0

/-- The raw logits of the next token after a sequence, from what the strand's matrix stitches have left in scratch (R388, log 8). -/
def Dev.logitsOf (d : Dev) (s : Strand) (m : Content) (seq : List Nat) : List Nat :=
  (List.range (vocabOf m.bytes).size).map fun t => Config.logit m.bytes (d.tablesOf s m) s.cmd.strandKey seq s.work.acts t % 2 ^ 32

/-- The raw statistics of a head row: parts chained in ascending column order (R308 to R310, R388). -/
def headStats (m : Content) (logits : List Nat) : Nat × Nat :=
  let n := Config.headPart m.bytes
  if n = 0 then rowStat logits else rowChain ((chunks n logits).map rowStat)

/-- The log-probability record of a token after a sequence (R410). -/
def Dev.recordOf (d : Dev) (s : Strand) (m : Content) (seq : List Nat) (t : Nat) : List Byte :=
  let ls := d.logitsOf s m seq
  let (mx, S) := headStats m ls
  logprobRec t (ls.getD t 0) mx S

/-- Bytes of the output buffer given to records; 0 without LOGPROBS (R391, R410). -/
def Cmd.logprobLen (c : Cmd) : Nat := if c.genFlag 3 then (samplingBlock c.inp c.samplingOff).logprobLen else 0

/-- Records added to a strand's output: those that fit, and whether the region has filled (R410). -/
def Strand.addRecords (s : Strand) (rs : List (List Byte)) : Strand :=
  let len := s.cmd.logprobLen
  let room := len / 8 - s.work.gen.records
  let base := s.cmd.outLen - len + 8 * s.work.gen.records
  let fit := rs.take room
  let out := if fit.isEmpty then [] else [(base, fit.flatten)]
  { s with work := { s.work with out := s.work.out ++ out
                                 gen := { s.work.gen with records := s.work.gen.records + fit.length, cut := s.work.gen.cut || room < rs.length } } }

/-- The end of a generation: its completion carries TRUNCATED when its record region filled, and what its retrieval met: ties at K,
duplicates of differing keys, NaNs (R247, R250, R251, R409, R410). -/
def Dev.endGen (d : Dev) (id : Nat) (s : Strand) (status extraHigh : Nat) : Dev :=
  let w := s.work
  ((d.countResult w false).putStrand id s).endNormal id status 0 (resultFlags (w.ties != 0) w.conflict w.gen.cut false (w.nans != 0)) w.released
    (extraHigh * 65536 + s.generated)

/-! KV pages (R349) -/

/-- Slots of an HBM4 stack that hold a KV page of some strand. -/
def Dev.kvTaken (d : Dev) (stack : Nat) : List Nat :=
  (d.strands.flatMap fun p => p.2.kvMap).filterMap fun k => if k.stack = stack then some k.slot else none

/-- The lowest number not in a list. -/
def lowestSlot (taken : List Nat) : Nat := ((List.range (taken.length + 1)).find? fun i => !taken.contains i).getD taken.length

/-- Where page j of layer l of a strand goes: stack (x + l + j) mod 12, x the strand ID mod 12, or the next stack with a free page; the
lowest free page there (R349; how much of a stack is open to KV pages: log 71). -/
def Dev.kvPlace (d : Dev) (id l j : Nat) : Nat × Nat :=
  let first := (id % 12 + l + j) % 12
  let tried := (List.range 12).map fun i => let h := (first + i) % 12; (h, lowestSlot (d.kvTaken h))
  (tried.find? fun p => p.2 < Config.kvStackPages p.1).getD (first, lowestSlot (d.kvTaken first))

/-- A page given to a strand that does not hold it yet. -/
def Dev.giveKv (d : Dev) (id l j : Nat) : Dev :=
  d.modStrand id fun s =>
    if s.kvMap.any fun k => k.layer = l && k.page = j then s
    else let p := d.kvPlace id l j; { s with kvMap := s.kvMap ++ [⟨l, j, p.1, p.2⟩] }

/-- The number a layer has among the layers that keep K and V (R124, R349). -/
def kvLayerOf (m : Content) (layer : Nat) : Option Nat :=
  let md := modelDesc m.bytes
  if md.kvLayers = md.layers then some layer else (Config.kvLayer m.bytes layer).filter (· < md.kvLayers)

/-- Tokens whose K and V a layer holds once its stitch of the present round commits (R347, R349). -/
def Strand.kvTokens (s : Strand) (p : Pattern) : Nat :=
  let g := s.work.gen
  if g.rounds < g.chunks then min ((g.rounds + 1) * max 1 p.chunk) g.prompt.length else g.prompt.length + g.toks.length

/-- A layer's stitch commits: the strand is given each page that a token is first written to (R349). -/
def Dev.growKv (d : Dev) (id : Nat) (s : Strand) (layer : Nat) : Dev :=
  let m := d.content s s.cmd.object
  match kvLayerOf m layer with
  | none => d
  | some l => (List.range (ceilDiv (s.kvTokens (pattern m.bytes) * (modelDesc m.bytes).kvBytes) 65536)).foldl (fun d j => d.giveKv id l j) d

/-- The strand as the device holds it: its KV pages are those given so far. -/
def Dev.withKv (d : Dev) (id : Nat) (s : Strand) : Strand :=
  match nget d.strands id with | some x => { s with kvMap := x.kvMap } | none => s

/-- A layer of a prefill chunk: the last layer of the last chunk ends a strand that generates nothing and asks no records
(R347, R348). -/
def Dev.doPrefill (d : Dev) (id : Nat) (s : Strand) (st : Step) : Dev :=
  let layers := (modelDesc (d.content s s.cmd.object).bytes).layers
  let d := d.growKv id s st.key
  let s := d.withKv id s.advance
  if st.key + 1 < layers then d.putStrand id s
  else
    let d := d.bumpModel s.cmd.object 0x04C 1
    let g := s.work.gen
    if g.chunks ≤ g.rounds + 1 && s.cmd.maxNew = 0 && !s.cmd.genFlag 3 then d.endGen id s 4 0
    else d.putStrand id (d.keepRound s)

/-- A layer of a decode round (R343, R349). -/
def Dev.doDecode (d : Dev) (id : Nat) (s : Strand) (st : Step) : Dev :=
  let d := d.growKv id s st.key
  d.putStrand id (d.keepRound (d.withKv id s.advance))

/-- The head row: with MAX_NEW_TOKENS 0 it computes the prompt records and ends the strand (R348, R390, R410). -/
def Dev.doHead (d : Dev) (id : Nat) (s : Strand) : Dev :=
  let s := s.advance
  if s.cmd.maxNew ≠ 0 then d.putStrand id s
  else
    let m := d.content s s.cmd.object
    let p := s.work.gen.prompt
    let s := s.addRecords ((List.range' 1 (p.length - 1)).map fun i => d.recordOf s m (p.take i) (p.getD i 0))
    (d.bump (pf 5 0x224) (b2n s.work.gen.cut)).endGen id s 4 0

/-- The counters of one choice, those of its select-and-merge unit among them (R257, R259, R396 to R399, R411). -/
def Dev.countChoice (d : Dev) (ch : Choice) (masked : Bool) (unit : Nat) : Dev :=
  let d := ch.selects.foldl (fun d k => d.bumpUnit unit (pathCounter k) 1) ((d.bumpUnit unit 0x04C ch.compacts).bumpUnit unit 0x050 ch.nans)
  let got := ch.token.isSome
  let d := ((d.bumpK (pf 5 0x200) (b2n got)).bumpK (pf 5 0x204) (b2n ch.greedy)).bumpK (pf 5 0x208) (b2n (masked && got))
  let d := ((d.bump (pf 5 0x20C) (b2n ch.dead)).bump (pf 5 0x210) (b2n ch.forced)).bump (pf 5 0x214) (b2n ch.nanSeen)
  ((d.bump (pf 5 0x218) (b2n ch.infinite)).bump (pf 5 0x21C) (b2n ch.gramBad)).bump (pf 5 0x220) (b2n ch.stackFull)

/-- What a token does to the output (R378 to R384, R409): the status of the end if any, the stop index, the length of the output
released after it, and the bytes discarded. -/
structure Emission where
  status : Option Nat
  stop : Nat
  total : Nat
  discarded : Nat
  deriving DecidableEq, Repr

/-- The text region of the output buffer (R410). -/
def Cmd.textRoom (c : Cmd) : Nat := c.outLen - c.logprobLen

/-- The ends of R409 and the release of R381 to R384 after a token whose bytes are added to an output. -/
def emission (c : Cmd) (eos : Nat) (t : Nat) (before new : List Byte) (released count : Nat) : Emission :=
  let stops := stopStrings c.inp c.stopOff c.stopCount
  let all := before ++ new
  let e : Emission :=
    if t = eos then ⟨some 2, 0, all.length, 0⟩
    else match scanStop stops before new with
      | some (i, n, upto) =>
        let stop := if c.genFlag 1 then upto.length else upto.length - n
        ⟨some 3, i, stop, all.length - stop⟩
      | none =>
        if c.maxNew ≤ count then ⟨some 4, 0, all.length, 0⟩
        else ⟨none, 0, all.length - heldBack stops (all.drop released), 0⟩
  if c.textRoom < e.total then ⟨some 6, 0, released, 0⟩ else e

/-- Bytes released: due in the next row, with a stream completion when the strand streams (R384, R385). -/
def Strand.release (s : Strand) (granted : Nat) (all : List Byte) (total : Nat) : Strand :=
  let new := (all.take total).drop s.work.released
  let stream := s.cmd.genFlag 4 && bit granted 0 && !new.isEmpty
  { s with work := { s.work with out := s.work.out ++ (if new.isEmpty then [] else [(s.work.released, new)]), released := total
                                 stream := stream, gen := { s.work.gen with all := all, unrel := all.drop total } } }

/-- The sampling row (R393 to R410). -/
def Dev.doSample (d : Dev) (id : Nat) (s : Strand) : Dev :=
  let p := s.unitOf 3
  let unit := s.unitOf 4
  let m := d.content s s.cmd.object
  let v := vocabOf m.bytes
  let g := s.work.gen
  let s := s.advance
  let gram := if s.cmd.grammar = 0 then none else some (d.content s s.cmd.grammar).bytes
  let seq := g.prompt ++ g.toks
  let ch := chooseToken (samplingBlock s.cmd.inp s.cmd.samplingOff) gram g.gram v.eos (s.cmd.genFlag 2) s.cmd.seed seq.length g.prompt g.toks
    (d.logitsOf s m seq)
  let d := d.countChoice ch gram.isSome unit
  let granted := d.granted s.cmd.q
  match ch.token with
  | none =>
    let total := g.all.length
    let s' := if s.cmd.textRoom < total then s else s.release granted g.all total
    (d.bumpUnitK p 0x068 (s'.work.released - s.work.released)).endGen id s' (if s.cmd.textRoom < total then 6 else 5) 0
  | some t =>
    let d := d.bumpModelK s.cmd.object 0x048 1
    let automaton := match gram with | some b => objFormat b == 2 | none => false
    let gs := match gram with | some b => if automaton && t ≠ v.eos then gramStep b g.gram t else g.gram | none => g.gram
    let s := { s with work := { s.work with gen := { g with toks := g.toks ++ [t], gram := gs } } }
    let cut := s.work.gen.cut
    let s := if s.cmd.genFlag 3 then s.addRecords [d.recordOf s m seq t] else s
    let d := d.bump (pf 5 0x224) (b2n (!cut && s.work.gen.cut))
    let new := v.outBytes t
    let e := emission s.cmd v.eos t g.all new s.work.released s.generated
    let r := s.release granted (g.all ++ new) e.total
    let d := ((d.bumpUnitK p 0x068 (r.work.released - s.work.released)).bumpUnit p 0x06C (b2n (e.status == some 3))).bumpUnit p 0x070 e.discarded
    match e.status with
    | some st => d.endGen id r st e.stop
    | none => d.putStrand id (d.keepRound r)

end Sys2Proof.Machine
end

