-- ==== Sys2Proof/Machine/Plan.lean ====
section
/-! DEFINITION. The row plan: which stitches run, their places, their start cycles and the weight order of the needle bed
(R31, R33, R130, R188 to R190, R273, R280, R341, R342, R346, R347; log 22, 25). -/

namespace Sys2Proof.Machine

/-! Slices -/

/-- A step of a model, whose matrix stitches run its array instructions (R341). -/
def Kind.ofModel : Kind → Bool
  | .embed | .rerank | .rank | .prefill | .decode | .head => true
  | _ => false

/-- The number of a kind of model step in the names of its stitches. -/
def Kind.code : Kind → Nat
  | .embed => 1
  | .rerank => 2
  | .rank => 3
  | .prefill => 4
  | .decode => 5
  | .head => 6
  | _ => 0

/-- The model a step of a strand runs. -/
def Strand.modelOf (s : Strand) (k : Kind) : Nat :=
  match k with
  | .embed => s.cmd.encoder
  | .rerank => s.cmd.reranker
  | _ => s.cmd.object

/-- The stitch runs on a matrix core. -/
def Stitch.matrix (x : Stitch) : Bool := x.utype ≤ 1

/-- A stitch that reads weights through the needle bed: on a matrix core, an invocation's, a prefill chunk's or a decode pass's; a generation's
own share of a decode row works on its KV pages (R341, R346). -/
def Stitch.weighted (k : Kind) (x : Stitch) : Bool :=
  k.ofModel && x.matrix && (x.role == .pass || (x.role == .share && k != .decode && k != .head))

/-- What names a stitch in its model's pattern: place, kind, unit type, number, and whether it is a decode pass's. -/
def stitchName (st : Step) (x : Stitch) : List Nat := [st.key, st.kind.code, x.utype, x.number, b2n (x.role == .pass)]

/-- What names the slice of a stitch: prefill chunks share the lane's slices with the row's decode passes (R347). -/
def sliceName (place : Nat) (k : Kind) (utype number : Nat) : List Nat := [place, (if k = .prefill then Kind.decode else k).code, utype, number]

/-- KiB of a slice; segments of a slice (R188). -/
def sliceKib (b : Bytes) (name : List Nat) : Nat := Config.sliceKib b name
def sliceSegments (kib : Nat) : Nat := ceilDiv kib 4096

/-- A slice takes more than the ten segments of NB_GEOMETRY (R188, R338). -/
def sliceTooLarge (kib : Nat) : Bool := 10 < sliceSegments kib

/-- The names of every slice of a model's pattern, for each of its period records (R333, R338). -/
def sliceNames (m : Content) : List (List Nat) :=
  let md := modelDesc m.bytes
  (pattern m.bytes).recs.flatMap fun r =>
    let of (k : Kind) (places : List Nat) (c : List Nat) : List (List Nat) := places.flatMap fun place =>
      (sharesOf .share 0 r c [0, 1]).map fun x => sliceName place k x.utype x.number
    match md.role with
    | 0 => of .embed (List.range r.invRows) r.cL
    | 1 => of .rerank (List.range r.invRows) r.cL
    | 2 => of .rank (List.range r.invRows) r.cL
    | _ => of .prefill (List.range md.layers) r.cP ++ of .decode (List.range md.layers) [r.passS, r.passB] ++ of .head [md.layers] [r.passS, r.passB]

/-! Which stitches run -/

/-- A strand whose present step runs in the row (R115, R344). -/
def Dev.runnable (d : Dev) (s : Strand) : Bool :=
  s.state == 2 && s.final.isNone && s.start ≤ d.row.number &&
    (match s.steps.head? with | none => false | some st => st.kind != .gather || decide (st.key ≤ d.row.number))

/-- The strands of the row's plan in class order L, D, P and ascending ID (R33). -/
def Dev.planOrder (d : Dev) : List (Nat × Strand × Step) :=
  let all := d.strands.filterMap fun p => if d.runnable p.2 then p.2.steps.head?.map fun st => (p.1, p.2, st) else none
  (List.range 3).flatMap fun c => all.filter fun p => p.2.2.cls == c

/-- Members of a decoder epoch's lane in the row. -/
def Dev.laneMembers (d : Dev) (l : Lanes) (off : Nat) : List Nat :=
  (d.planOrder.filter fun p => p.2.1.isGen && p.2.2.kind.inRound && p.2.1.cmd.object == l.handle && p.2.1.pins.contains (l.handle, l.stamp) &&
    p.2.1.lane == off).map (·.1)

/-- Passes for lagging lanes in ascending offset: the offsets left without one, and the passes used (R346). -/
def givePasses (batch : Nat) : Nat → List (Nat × Nat) → List Nat × Nat
  | _, [] => ([], 0)
  | left, (off, n) :: t =>
    let need := ceilDiv n (max 1 batch)
    if n = 0 then givePasses batch left t
    else if left = 0 then let r := givePasses batch 0 t; (off :: r.1, r.2)
    else let r := givePasses batch (left - need) t; (r.1, min need left + r.2)

/-- The passes of one decoder epoch in the row: those used, and the offsets of the lanes that get none (R346). -/
def Dev.lanePasses (d : Dev) (l : Lanes) : Nat × List Nat :=
  match (nget d.objs l.handle).bind (·.epoch l.stamp) with
  | none => (0, [])
  | some e =>
    let batch := (pattern e.content.bytes).laneBatch
    let main := ceilDiv (d.laneMembers l 0).length (max 1 batch)
    let lag := (sortBy (fun a b => decide (a ≤ b)) l.lagging).map fun off => (off, (d.laneMembers l off).length)
    let r := givePasses batch (l.passes - main) lag
    (main + r.2, r.1)

/-- The members of the lanes that the row gives no pass (R346). -/
def Dev.unplanned (d : Dev) : List Nat := d.lanes.flatMap fun l => (d.lanePasses l).2.flatMap (d.laneMembers l)

/-- The passes of the row, and the lanes without one, counted (R346, R354). -/
def Dev.countLanes (d : Dev) : Dev :=
  d.lanes.foldl (fun n l =>
    let r := d.lanePasses l
    ((n.bumpK (pf 0x14 0x04C) r.1).bump (pf 0x14 0x050) r.2.length).bumpModel l.handle 0x054 r.2.length) d

/-! Places -/

/-- A stitch placed: its slot, what the strands that join it share (none for a stitch of one strand), the items they bring, the slice it reads
(none: no key), and its turn. -/
structure Placed where
  slot : Slot
  batch : List Nat
  items : Nat
  slice : List Nat
  kib : Nat
  fromT2 : Bool
  turn : Nat
  deriving DecidableEq, Repr

/-- A plan being built: the stitches placed, the cycles each unit is filled to, and the strands with a stitch that found no place. -/
structure Build where
  placed : List Placed
  filled : NMap Nat
  failed : List Nat
  deriving DecidableEq, Repr

/-- The stamp of the epoch that a strand pins of a handle (R153). -/
def Strand.stampOf (s : Strand) (h : Nat) : Nat := match s.pins.find? (fun p => p.1 == h) with | some p => p.2 | none => 0

/-- The pool a stitch is placed in: the strand's, or for a decode pass that of the strand whose admission reserved the passes (R128, R346). -/
def Dev.stitchPool (d : Dev) (s : Strand) (x : Stitch) : Nat :=
  match (if x.role = .pass then d.lanesOf s.cmd.object (s.stampOf s.cmd.object) else none) with
  | some l => if l.owned.getD x.utype false then l.tenant else 0
  | none => s.pool x.utype

/-- What strands share that run one batched stitch: the stitch of one model epoch, its pool, and for a decode pass the lane (R342, R346). -/
def Dev.batchKey (d : Dev) (s : Strand) (st : Step) (x : Stitch) : List Nat :=
  if x.role = .pass || (x.role = .share && (st.kind == .embed || st.kind == .rerank || st.kind == .rank)) then
    let h := s.modelOf st.kind
    [h, s.stampOf h, d.stitchPool s x, if st.kind.inRound then s.lane else 0] ++ stitchName st x
  else []

/-- Items a strand brings to a stitch of a pass (R342). -/
def Dev.items (d : Dev) (s : Strand) (m : Content) (st : Step) : Nat :=
  let p := pattern m.bytes
  let total := match st.kind with | .rank => s.cmd.dw 8 | .rerank => s.kp | _ => 1
  let left := ceilDiv (s.steps.filter fun x => x.kind == st.kind).length (max 1 (d.recOf m).invRows)
  if left ≤ 1 then total - (ceilDiv total (max 1 p.invBatch) - 1) * p.invBatch else p.invBatch

/-- A stitch placed: it joins one of its batch, or takes the first unit of its type that it leaves within B (R33, R130, R342, R346). -/
def Dev.place (d : Dev) (id : Nat) (s : Strand) (st : Step) (b : Build) (i : Nat) (x : Stitch) : Build :=
  if x.utype = 5 then { b with placed := b.placed ++ [⟨⟨5, 0, 1024, 0, [id], i, 0, [], [], false, [], []⟩, [], 1, [], 0, false, x.turn⟩] }
  else
    let m := d.content s (s.modelOf st.kind)
    let key := d.batchKey s st x
    let cap := if x.role = .pass then (pattern m.bytes).laneBatch else (pattern m.bytes).invBatch
    let n := if x.role = .pass then 1 else d.items s m st
    let joins (y : Placed) : Bool := !key.isEmpty && y.batch == key && y.items + n ≤ cap
    match b.placed.findIdx? joins with
    | some j => { b with placed := b.placed.mapIdx fun k (y : Placed) =>
        if k = j then { y with slot := { y.slot with members := y.slot.members ++ [id] }, items := y.items + n } else y }
    | none =>
      match (d.placeable x.utype (d.stitchPool s x)).find? fun u => (nget b.filled u).getD 0 + x.cycles ≤ d.budget with
      | none => { b with failed := b.failed ++ [id] }
      | some u =>
        let name := sliceName st.key st.kind x.utype x.number
        let kib := if x.weighted st.kind then sliceKib m.bytes name else 0
        let h := s.modelOf st.kind
        let slice := if kib = 0 then [] else [h, s.stampOf h, if st.kind.inRound then s.lane else 0] ++ name
        { b with placed := b.placed ++ [⟨⟨x.utype, u, 1024, x.cycles, [id], i, 0, [], [], false, [], []⟩, key, n, slice, kib,
                   (modelDesc m.bytes).tier == 1, x.turn⟩]
                 filled := nset b.filled u ((nget b.filled u).getD 0 + x.cycles) }

/-- The stitches of a strand's present step that have not committed in an earlier row are placed (R36). -/
def Dev.placeStep (d : Dev) (b : Build) (id : Nat) (s : Strand) (st : Step) : Build :=
  st.stitches.zipIdx.foldl (fun b p => if s.done.any (·.1 == p.2) then b else d.place id s st b p.2 p.1) b

/-- Every stitch of the row placed, the strands in the order of R33; those of an unplanned lane have none (R346). -/
def Dev.placeAll (d : Dev) : Build :=
  d.planOrder.foldl (fun b p => if d.unplanned.contains p.1 then b else d.placeStep b p.1 p.2.1 p.2.2) ⟨[], [], []⟩

/-! Start cycles (R189, R190; log 22) -/

/-- Cycles that a slice's load takes: 4 TB/s from T1, 0.4 TB/s from T2, at 1.5 GHz (R190). -/
def loadCycles (kib : Nat) (fromT2 : Bool) : Nat := ceilDiv (kib * (if fromT2 then 3840 else 384)) 1000

/-- A slice in the weight order being planned: its key, segments, the cycles of its load in the row, and the planned cycles at which its load
completes and its last stitch ends. -/
structure Load where
  key : List Nat
  segments : Nat
  cycles : Nat
  loaded : Nat
  ended : Nat
  deriving DecidableEq, Repr

/-- Start cycles being given: the ends of the units' work, the ends of the strands' stitches by turn, and the weight order, oldest first. -/
structure Schedule where
  units : NMap Nat
  ends : List (Nat × Nat × Nat)
  loads : List Load
  slots : List Slot
  deriving DecidableEq, Repr

/-- The slices that must have gone before one of some segments loads: all but the last three, and as many as leave it room (R189). -/
def mustEnd (segs : Nat) : List Load → List Load
  | [] => []
  | l :: rest => if 3 < (l :: rest).length || 32 < segs + sumNat ((l :: rest).map (·.segments)) then l :: mustEnd segs rest else []

/-- The planned load of a slice: one that the bed already holds is there (R189, R190). -/
def Dev.planLoad (d : Dev) (loads : List Load) (p : Placed) : Load :=
  let segs := sliceSegments p.kib
  let start := max (maxNat (loads.map (·.loaded))) (maxNat ((mustEnd segs loads).map (·.ended)))
  if d.tiers.bed.any fun x => x.key == p.slice && x.phase == 2 then ⟨p.slice, segs, 0, 0, 0⟩
  else ⟨p.slice, segs, loadCycles p.kib p.fromT2, start + loadCycles p.kib p.fromT2, 0⟩

/-- A stitch's start cycle: once its unit is free, its slice is planned to be loaded and the strand's stitches of earlier turns have ended, but
never so late that its unit's remaining stitches would not fit into B (R31, R33, R130, R190). -/
def Dev.schedule (d : Dev) (b : List Placed) : Schedule :=
  let step (a : Schedule) (q : Placed × Nat) : Schedule :=
    let p := q.1
    let s := p.slot
    let loads := if p.slice.isEmpty || a.loads.any (·.key == p.slice) then a.loads else a.loads ++ [d.planLoad a.loads p]
    let loaded := ((loads.find? (·.key == p.slice)).map (·.loaded)).getD 0
    let turns := maxNat (a.ends.map fun e => if s.members.contains e.1 && e.2.1 < p.turn then e.2.2 else 0)
    let left := sumNat ((b.drop q.2).map fun x => if x.slot.unit = s.unit then x.slot.len else 0)
    let at_ := max ((nget a.units s.unit).getD 0) (min (max loaded turns) (d.budget - left))
    { units := nset a.units s.unit (at_ + s.len)
      ends := a.ends ++ s.members.map fun id => (id, p.turn, at_ + s.len)
      loads := loads.map fun l => if l.key = p.slice then { l with ended := max l.ended (at_ + s.len) } else l
      slots := a.slots ++ [{ s with start := 1024 + at_ }] }
  b.zipIdx.foldl step ⟨[], [], [], []⟩

/-- The placed stitches in the order of their turns: the order of the plan's slots and of its weight order. -/
def Build.ordered (b : Build) : List Placed := sortBy (fun x y => decide (x.turn ≤ y.turn)) b.placed

/-! The needle bed -/

/-- The slice of a placed stitch joins the weight order behind those already in it, or gains a user (R189). -/
def Dev.addSlice (d : Dev) (slot : Option Nat) (p : Placed) : Dev :=
  let users := match slot with | some i => [i] | none => []
  let bed := d.tiers.bed
  let bed :=
    if p.slice.isEmpty then bed
    else if bed.any fun x => x.key == p.slice && (x.ahead || slot.isSome) then
      bed.map fun x => if x.key = p.slice then { x with users := x.users ++ users, ahead := x.ahead && slot.isNone } else x
    else bed ++ [⟨p.slice.headD 0, sliceSegments p.kib, p.fromT2, p.kib, 0, users, p.slice, slot.isNone⟩]
  { d with tiers := { d.tiers with bed := bed } }

/-- Slices without a user and not of the next row's plan go. -/
def Dev.dropSlices (d : Dev) : Dev :=
  { d with tiers := { d.tiers with bed := d.tiers.bed.filter fun x => !x.users.isEmpty || x.ahead } }

/-- Slices freed once the last stitch that reads them has committed or been cut short (R189). -/
def Dev.freeSlices (d : Dev) (slot : Nat) : Dev :=
  ({ d with tiers := { d.tiers with bed := d.tiers.bed.map fun (x : Slice) => { x with users := x.users.filter (· != slot) } } }).dropSlices

/-- A slot's slice is loaded, or it reads none (R191). -/
def Dev.sliceLoaded (d : Dev) (slot : Nat) : Bool := d.tiers.bed.all fun x => !x.users.contains slot || x.phase == 2

/-- The strands as the plan of the next row finds them when every stitch still to run commits (R33). -/
def Dev.expected (d : Dev) : Dev :=
  { d with
    row := { d.row with number := d.row.number + 1 }
    strands := d.strands.map fun p =>
      (p.1, if p.2.state = 1 then { p.2 with state := 2 }
        else if d.runnable p.2 && p.2.fate = 0 then d.keepRound p.2.advance else p.2) }

/-- A committed plan continues the weight order with the slices of its own row, which the loader may load ahead (R189). -/
def Dev.sliceAhead (d : Dev) : Dev := d.expected.placeAll.ordered.foldl (fun n p => n.addSlice none p) d

/-! The plan -/

/-- Arrays of a matrix core (R260). -/
def coreArrays (u : Nat) : Nat := if u = 0 then 2 else if u = 1 then 4 else 0

/-- The array-cycles of a slot counted on its core (R280). -/
def Dev.countSlot (d : Dev) (s : Slot) : Dev := if s.utype ≤ 1 then d.bumpUnitK s.unit 0x054 (coreArrays s.utype * s.len) else d

/-- No step of the row has dropped or committed yet (R34). -/
def Dev.freshRow (d : Dev) : Dev := { d with strands := d.strands.map fun (p : Nat × Strand) => (p.1, { p.2 with fate := 0 }) }

/-- The row plan of the present row: what firmware committed or the sequencer builds itself, by the same rule (R33, R50). Members of lanes
without a pass drop with NEEDLE_LATE, strands without a place with FAULT (R35, R346). -/
def Dev.buildPlan (d : Dev) : Dev :=
  let d := d.freshRow
  let b := d.placeAll
  let late := d.unplanned
  let s := d.schedule b.ordered
  let n := { d.countLanes with row := { d.row with slots := s.slots, loadTime := sumNat (s.loads.map fun (l : Load) => l.cycles) } }
  let n := (b.ordered.zipIdx.foldl (fun n p => n.addSlice (some p.2) p.1) n)
  let n := ({ n with tiers := { n.tiers with bed := n.tiers.bed.map fun (x : Slice) => { x with ahead := false } } }).dropSlices
  let n := n.row.slots.foldl (fun n s => n.countSlot s) n
  b.failed.foldl (fun n id => n.dropStep id 6) (late.foldl (fun n id => n.dropStep id 5) n)

end Sys2Proof.Machine
end

