-- ==== Sys2Proof/Machine/Stitch.lean ====
section
/-! DEFINITION. The stitches of the row: starts, commits, slot ends and their causes; the arrays of matrix cores; markers that stitches wait on;
loads of the needle bed (R32 to R39, R189, R191, R262 to R268, R275, R279, R280, R297 to R300, R415 to R420). -/

namespace Sys2Proof.Machine

/-! Markers -/

/-- A wait's condition holds (R419): (value − t) mod 2^32 below 2^31. -/
def markerMet (value target : Nat) : Bool := (value % 2 ^ 32 + 2 ^ 32 - target % 2 ^ 32) % 2 ^ 32 < 2 ^ 31

/-- The marker page of a marker and a counter of it (R426). -/
def Dev.bumpMarker (d : Dev) (i off n : Nat) : Dev := d.bump (pf (0x030 + i / 1024) off) n
def Dev.bumpMarkerK (d : Dev) (i off n : Nat) : Dev := d.bumpK (pf (0x030 + i / 1024) off) n

/-- The waiter count of a marker changed (R412, R419). -/
def Dev.waiters (d : Dev) (i : Nat) (f : Nat → Nat) : Dev :=
  let m := d.marker i
  if m.holder = .free then d else d.setMarker i { m with waiters := f m.waiters % 65536 }

/-- A signal of a marker's holder or of a Tuivy port for its pattern (R415). -/
def holderSignals (h : Holder) (srcKind strand : Nat) : Bool :=
  match h with
  | .free => false
  | .strand id _ => strand == id && 1 ≤ srcKind && srcKind ≤ 8
  | .pattern _ _ => 1 ≤ srcKind && srcKind ≤ 8

/-- Inputs of a slot that a marker's value now meets: removed, their waits counted (R419, R426). -/
def Dev.wake (d : Dev) (i : Nat) : Dev :=
  let v := (d.marker i).value
  let met (x : Input) : Bool := match x.src with | .marker j t _ => j == i && markerMet v t | _ => false
  let n := sumNat (d.row.slots.map fun s => if s.phase = 1 then (s.inputs.filter met).length else 0)
  let slots := d.row.slots.map fun s => if s.phase = 1 then { s with inputs := s.inputs.filter fun x => !met x } else s
  (({ d with row := { d.row with slots := slots } }).waiters i (· - n)).bumpMarkerK i 0x044 n

/-- A signal applied: ADD or SET, with its signaller (R415 to R418). -/
def Dev.signal (d : Dev) (i : Nat) (add : Bool) (operand last : Nat) (met : Bool) : Dev :=
  let m := d.marker i
  let v := if add then (m.value + operand) % 2 ^ 32 else operand % 2 ^ 32
  (((d.setMarker i { m with value := v, last := last }).bumpMarkerK i 0x040 1).bumpMarker i 0x04C (b2n (!add && met))).wake i

/-- The last-signaller word of MK_LAST (R426). -/
def markLast (kind source strand : Nat) : Nat := kind % 16 * 2 ^ 28 + source % 4096 * 65536 + strand % 65536

/-! Stitches -/

/-- The cause of a late input (R35, R420). -/
def srcCause : Src → Nat
  | .t1 => 1
  | .t2 => 2
  | .t3 => 3
  | .needle => 5
  | .link => 7
  | .marker _ _ fromLink => if fromLink then 7 else 8

/-- The cause that an input shared by all members gives every one of them (R37): none when no shared input is missing. -/
def Slot.sharedCause (s : Slot) : Option Nat :=
  if s.tierErr.contains none then some 4 else (s.inputs.find? fun x => x.member == none).map fun x => srcCause x.src

/-- The cause with which a member's step drops at the end of a slot (R35, R37). -/
def Slot.cause (s : Slot) (member : Nat) : Nat :=
  if s.faulted then 6
  else match s.sharedCause with
    | some c => c
    | none =>
      if s.tierErr.contains (some member) then 4
      else match s.inputs.find? (fun x => x.member == some member) with
        | some x => srcCause x.src
        | none => 9

/-- The unit is a matrix core. -/
def Slot.matrix (s : Slot) : Bool := s.utype ≤ 1

/-- The strand, step and stitch that a slot runs for a member: none once the strand has left its step of the row, or the stitch has committed
in another slot. -/
def Dev.stitchOf (d : Dev) (sl : Slot) (id : Nat) : Option (Strand × Step × Stitch) :=
  match nget d.strands id with
  | none => none
  | some s =>
    if s.state ≠ 2 || s.final.isSome || s.fate = 2 || s.done.any (·.1 == sl.stitch) then none
    else match s.steps.head? with
      | none => none
      | some st => (st.stitches[sl.stitch]?).map fun x => (s, st, x)

/-- The members for which a slot still has work. -/
def Dev.liveMembers (d : Dev) (sl : Slot) : List (Nat × Strand × Step × Stitch) :=
  sl.members.filterMap fun id => (d.stitchOf sl id).map fun x => (id, x)

/-- A stitch of a model: on matrix cores, and text engines that sample. -/
def Dev.modelSlot (d : Dev) (s : Slot) : Bool := (d.liveMembers s).any fun p => p.2.2.1.kind.ofModel || p.2.2.1.kind == .sample

/-- A stitch of the strand's step that starts before another has not ended (R32). -/
def Strand.turnWaits (s : Strand) (st : Step) (x : Stitch) : Bool :=
  st.stitches.zipIdx.any fun p => p.1.turn < x.turn && !s.done.any (·.1 == p.2)

/-- The inputs that no read has already brought to the T0 scratch of the member, or of any member for a shared one (R32). -/
def notKept : List (Nat × Src) → List Input → List Input
  | _, [] => []
  | kept, x :: l =>
    match kept.find? (fun k => x.src == k.2 && (x.member == none || x.member == some k.1)) with
    | some k => notKept (kept.erase k) l
    | none => x :: notKept kept l

/-- What the members of a slot keep in their T0 scratch (R32). -/
def Dev.keptBy (d : Dev) (members : List Nat) : List (Nat × Src) :=
  (members.map fun id => match nget d.strands id with | some s => s.scratch.map fun x => (id, x) | none => []).flatten

/-- The source is a tier read, which goes on when its stitch is cut (R32). -/
def isRead : Src → Bool
  | .t1 | .t2 | .t3 => true
  | _ => false

/-- A cut stitch leaves its reads to its members: those that have come in scratch, those that have not outstanding (R32). -/
def Dev.keepReads (d : Dev) (s : Slot) : Dev :=
  s.members.foldl (fun d id =>
    let mine (l : List Input) : List Src := (l.filter fun x => isRead x.src && (x.member == none || x.member == some id)).map (·.src)
    d.modStrand id fun x => { x with reading := x.reading ++ mine s.inputs, scratch := x.scratch ++ mine s.got }) d

/-! The arrays of a matrix core (R260 to R268) -/

/-- Instruction streams of a core: one for each array of an S-core, one for a B-core (R260, R266). -/
def coreStreams (u : Nat) : Nat := if u = 0 then 2 else if u = 1 then 1 else 0

/-- The arrays of a core as its last stitch left them. -/
def Dev.arrays (d : Dev) (s : Slot) : List Arr := (nget d.cores s.unit).getD (List.replicate (coreArrays s.utype) Arr.fresh)

/-- A slot that runs array instructions: a model's, on a matrix core. -/
def Dev.arraySlot (d : Dev) (s : Slot) : Bool := s.matrix && (d.liveMembers s).any fun p => p.2.2.1.kind.ofModel

/-- A stitch begins with the foreground load of its first tiles, on the core that now holds its members' T0 granules (R268, R275). -/
def Dev.startArrays (d : Dev) (s : Slot) : Dev :=
  if !d.arraySlot s then d
  else
    let arrs := (d.arrays s).map fun a => { a with loading := true }
    let d := { d with cores := nset d.cores s.unit arrs }
    s.members.foldl (fun d id => d.modStrand id fun x => { x with core := s.unit }) d

/-- A stitch that is cut short leaves registers and banks with undefined contents, which no later stitch reads (R268; log 4). -/
def Dev.cutArrays (d : Dev) (s : Slot) : Dev :=
  if !d.arraySlot s then d
  else
    let f := d.nextFree
    let arrs := (d.arrays s).map fun a => { a with loading := false, undefined := some f }
    ({ d with cores := nset d.cores s.unit arrs }).passFree

/-- What a member brings to the arrays beside its T0 scratch: the tokens of an encoder, the query and passages of a re-rank, the items of a
ranker, the prompt and tokens of a generation. -/
def Dev.memberInput (d : Dev) (s : Strand) (m : Content) (k : Kind) : List Nat :=
  match k with
  | .embed => s.work.tokens
  | .rerank =>
    let v := vocabOf m.bytes
    (tokenisePrompt v s.cmd.text).1 ++ (s.work.cands.map fun c => (d.passage s v.size c.entry).getD []).flatten
  | .rank => s.cmd.inp.map (·.toNat)
  | _ => s.work.gen.prompt ++ s.work.gen.toks

/-- One instruction stream of a stitch runs over the vectors of its members (R262 to R272, R306). -/
def Dev.runStream (d : Dev) (s : Slot) (ms : List (Nat × Strand × Step × Stitch)) (stream : Nat) : ArrRun :=
  match ms.head? with
  | none => runArrays (s.utype == 1) [] (fun _ => []) [] []
  | some (_, t, st, x) =>
    let m := d.content t (t.modelOf st.kind)
    let name := stitchName st x ++ [stream]
    let vecs (source : Nat) : List (Nat × List Nat) := ms.flatMap fun p =>
      (Config.activations m.bytes (d.tablesOf p.2.1 m) (name ++ [source]) (d.memberInput p.2.1 m st.kind) (p.2.1.work.acts ++ [p.2.1.work.sums])).map
        fun v => (p.1, v)
    let keys := ms.map fun p => (p.1, p.2.1.cmd.strandKey, p.2.1.stitchBase + s.stitch)
    runArrays (s.utype == 1) m.bytes vecs keys (Config.arrayProgram m.bytes name)

/-- The streams of a stitch's core. -/
def Dev.runCore (d : Dev) (s : Slot) (ms : List (Nat × Strand × Step × Stitch)) : List ArrRun :=
  if s.matrix && ms.any fun p => p.2.2.1.kind.ofModel then (List.range (coreStreams s.utype)).map fun i => d.runStream s ms i else []

/-- What a core's streams count (R267, R279, R280): the share of each count that ran. -/
def Dev.countArrays (d : Dev) (s : Slot) (rs : List ArrRun) (share : Nat → Nat) : Dev :=
  let n (f : ArrRun → Nat) : Nat := share (sumNat (rs.map f))
  ((((d.bumpUnitK s.unit 0x048 (n (·.tiles))).bumpUnitK s.unit 0x04C (n (·.pairs))).bumpUnit s.unit 0x050 (n (·.wait))).bumpUnitK s.unit 0x058
    (n (·.useful))).bumpUnitK s.unit 0x05C (n (·.streamed))

/-- Results of the streams that a member takes, in their order. -/
def resultsOf (rs : List ArrRun) (id : Nat) : List Drained := (rs.flatMap (·.outs)).filter fun o => o.member == id

/-- A drained result taken into a strand's T0 scratch: part 0 starts a chain of R299, a further part is added to the running sum. -/
def Strand.takeResult (s : Strand) (o : Drained) : Strand :=
  match o.dest with
  | .scratch => { s with work := { s.work with acts := s.work.acts ++ [o.words] } }
  | .part i =>
    let w := ((s.work.parts.find? (·.1 == i)).map (·.2)).getD o.words
    { s with work := { s.work with sums := if i = 0 then w else chainStep o.int s.work.sums w, chained := i + 1
                                   parts := s.work.parts.filter (·.1 != i) } }
  | .modules => { s with work := { s.work with sums := o.words, chained := 1 } }

/-- The running sum that a member's part must be added to has not arrived (R299, R300). -/
def Strand.chainWaits (s : Strand) (os : List Drained) : Bool :=
  (os.foldl (fun (a : Nat × Bool) o => match o.dest with
    | .part i => (i + 1, a.2 || (i != 0 && a.1 != i))
    | .modules => (1, a.2)
    | .scratch => a) (s.work.chained, false)).2

/-- The parts that a dropped stitch had computed stay in scratch (R300). -/
def Strand.keepParts (s : Strand) (os : List Drained) : Strand :=
  os.foldl (fun s o => match o.dest with
    | .part i => if s.work.parts.any (·.1 == i) then s else { s with work := { s.work with parts := s.work.parts ++ [(i, o.words)] } }
    | _ => s) s

/-- Part 0 of a reduction split over modules goes down the chain of a spanning strand (R455). -/
def Dev.startChain (d : Dev) (id : Nat) (s : Strand) (os : List Drained) : Dev :=
  if s.spans && s.part.isNone && 1 < d.cas.modules then
    os.foldl (fun d o => if o.dest = .modules then d.emit (.cascade 13 1 (id :: o.words)) else d) d
  else d

/-- A member's results put into its scratch. -/
def Dev.takeResults (d : Dev) (rs : List ArrRun) (id : Nat) : Dev :=
  match nget d.strands id with
  | none => d
  | some s =>
    let os := resultsOf rs id
    if os.isEmpty then d else (d.startChain id s os).putStrand id (os.foldl Strand.takeResult s)

/-- A core's arrays after a stitch. -/
def Dev.leaveArrays (d : Dev) (s : Slot) (rs : List ArrRun) : Dev :=
  if rs.isEmpty then d else { d with cores := nset d.cores s.unit (rs.flatMap (·.arrs)) }

/-! Starts and commits -/

/-- A stitch starts (R32): the inputs not yet there are outstanding, its slice among them when it is not loaded (R191), and waits on markers
count (R419). A slot whose members have all left their steps does nothing. -/
def Dev.startStitch (d : Dev) (i : Nat) (inputs : List Input) : Dev :=
  match d.row.slots[i]? with
  | none => d
  | some s =>
    if s.phase ≠ 0 || (d.liveMembers s).isEmpty then d
    else
      let late := !d.sliceLoaded i
      let ins := notKept (d.keptBy s.members) (inputs.filter fun x => x.src != .needle) ++ if late then [⟨none, .needle⟩] else []
      let d := ((d.modSlot i fun s => { s with phase := 1, inputs := ins, got := [] }).bump (pf 0xE 0x04C) (b2n late)).startArrays s
      let ms := ins.filterMap fun x => match x.src with | .marker j _ _ => some j | _ => none
      let d := ms.foldl (fun d j => d.waiters j (· + 1)) d
      ms.eraseDups.foldl (fun d j => d.wake j) d

/-- The present step of a strand has nothing left to run in its row: a short test runs once the walk has ended, and nothing follows a short test
that was full or the last extension (R238, R245). -/
def Strand.stepDone (s : Strand) (st : Step) : Bool :=
  let left := (st.stitches.zipIdx.filter fun p => !s.done.any (·.1 == p.2)).map (·.1)
  left.isEmpty || match st.kind with
    | .walk => left.all (·.role == .test) && !s.work.walks.all (·.ended)
    | .extend => s.work.full || s.cmd.search.ext ≤ s.work.ext
    | _ => false

/-- The effect of a step whose stitches have all committed (R32). -/
def Dev.stepEffect (d : Dev) (id : Nat) (s : Strand) (st : Step) : Dev :=
  match st.kind with
  | .tokenise => d.doTokenise id s st
  | .embed => d.doEmbed id s st
  | .rerank => d.doRerank id s st
  | .resort => d.doResort id s st
  | .rank => d.doRank id s st
  | .walk => d.putStrand id s.afterWalk
  | .extend => d.putStrand id s.afterExtend
  | .scan => d.putStrand id (s.afterScan st)
  | .rescan => d.putStrand id (s.afterScan st)
  | .select => d.doSelect id s st
  | .broadcast => d.doBroadcast id s
  | .gather => d.doGather id s st
  | .fetch => d.doFetch id s st
  | .pack => d.doPack id s st
  | .prefill => d.doPrefill id s st
  | .decode => d.doDecode id s st
  | .head => d.doHead id s
  | .sample => d.doSample id s
  | .lookup => d.doLookup id s st
  | _ => d.putStrand id (d.keepRound s.advance)

/-- A strand with one more stitch of its step committed: the step takes effect with the last of them (R32). -/
def Dev.finishStep (d : Dev) (id : Nat) (s : Strand) (st : Step) : Dev := if s.stepDone st then d.stepEffect id s st else d.putStrand id s

/-- A stitch of one member committed on a unit (R32). -/
def Dev.commitMember (d : Dev) (id stitch unit : Nat) : Dev :=
  match nget d.strands id with
  | none => d
  | some s =>
    match s.steps.head? with
    | none => d
    | some st =>
      match st.stitches[stitch]? with
      | none => d
      | some x =>
        let s := { s with done := s.done ++ [(stitch, unit)] }
        match x.role with
        | .tokens => (match d.encoderTokens id s unit with | (d, none) => d | (d, some s) => d.finishStep id s st)
        | .shard w k =>
          let r := d.doShard (if st.kind = .prep then d.withQuery s else s) st w k unit
          r.1.finishStep id r.2 st
        | .test => let r := d.shortTest s unit; r.1.finishStep id r.2 st
        | _ => d.finishStep id s st

/-- A member whose own input is missing, that waits for an earlier stitch of its step, for other modules' lists or passages, or for a running
sum, is skipped (R37, R300, R452). -/
def Dev.memberLate (d : Dev) (s : Slot) (rs : List ArrRun) (id : Nat) : Option Nat :=
  if s.tierErr.contains (some id) then some 4
  else match s.inputs.find? (fun x => x.member == some id) with
    | some x => some (srcCause x.src)
    | none => match d.stitchOf s id with
      | none => none
      | some (x, st, y) =>
        if st.kind = .gather && x.part.isNone && d.listsMissing x then some 7
        else if st.kind = .fetch && x.spans && st.last &&
            (x.work.cands.any fun c => bits c.entry.pid 47 44 != d.cas.index && !(x.work.passages.any (·.1 == c.entry.pid))) then some 7
        else if x.turnWaits st y || x.chainWaits (resultsOf rs id) then some 9
        else none

/-- The waits of a slot that end without their condition (R420). -/
def Dev.expireWaits (d : Dev) (s : Slot) : Dev :=
  s.inputs.foldl (fun d x => match x.src with
    | .marker j _ _ => (d.waiters j (· - 1)).bumpMarker j 0x048 1
    | _ => d) d

/-- A slot that commits: its waits end, its unit counts it and what its streams ran, its arrays stay as they are left, and its slice is freed
(R189, R268, R280, R354). -/
def Dev.leaveCommitted (d : Dev) (i : Nat) (s : Slot) (rs : List ArrRun) (shared : Bool) : Dev :=
  let d := (d.modSlot i fun s => { s with phase := 2, inputs := [] }).expireWaits s
  let d := if s.matrix then d.bumpUnit s.unit 0x040 1 else d
  let d := (d.countArrays s rs id).leaveArrays s rs
  let d := if rs.isEmpty || !s.got.contains ⟨none, .needle⟩ then d else (d.bumpUnit s.unit 0x050 d.nextFree).passFree
  (if shared then d.bumpK (pf 0x14 0x048) 1 else d).freeSlices i

/-- A stitch commits (R32): members with every input commit in their order, the others drop (R37). A slot whose one member waits for an
earlier stitch of its step does not finish. -/
def Dev.commitStitch (d : Dev) (i : Nat) : Dev :=
  match d.row.slots[i]? with
  | none => d
  | some s =>
    if s.phase ≠ 1 || s.faulted || s.tierErr.contains none || s.inputs.any (·.member == none) || !d.sliceLoaded i then d
    else
      let live := d.liveMembers s
      let rs := d.runCore s live
      let late := live.filterMap fun p => (d.memberLate s rs p.1).map fun c => (p.1, c)
      let good := (live.map (·.1)).filter fun id => !late.any (·.1 == id)
      if good.isEmpty then d
      else
        let d := late.foldl (fun d p => d.dropStep p.1 p.2) (d.leaveCommitted i s rs (d.modelSlot s && decide (1 < live.length)))
        good.foldl (fun d id => (d.takeResults rs id).commitMember id s.stitch s.unit) d

/-- Parts of a reduction that a stitch with every other input had computed when its slot ended stay with their strands (R300). -/
def Dev.keepSums (d : Dev) (s : Slot) (rs : List ArrRun) : Dev :=
  if s.phase ≠ 1 || s.faulted || !s.inputs.isEmpty || !s.tierErr.isEmpty then d
  else s.members.foldl (fun d id => d.modStrand id fun x => x.keepParts (resultsOf rs id)) d

/-- A slot that ends without a commit: its waits end and its slice is freed (R189, R420). -/
def Dev.leaveSlot (d : Dev) (i : Nat) (s : Slot) : Dev :=
  ((d.modSlot i fun s => { s with phase := 3, inputs := [], got := [] }).expireWaits s).freeSlices i

/-- What the unit of a dropped stitch counts: the drop, the share of its streams' work that ran, and the arrays left undefined
(R268, R279, R280). -/
def Dev.cutUnit (d : Dev) (s : Slot) (rs : List ArrRun) : Dev :=
  let d := if s.matrix then d.bumpUnit s.unit 0x044 1 else d
  if s.phase = 1 && !rs.isEmpty then
    let f := d.nextFree
    ((d.countArrays s rs fun n => f % (n + 1)).passFree).cutArrays s
  else d

/-- OVERRUN of a slot: its record, its counts and its unit's error (R34, R39, R273, R482). -/
def Dev.overrun (d : Dev) (s : Slot) (first : Nat) (model : Bool) : Dev :=
  let t := match nget d.strands first with | some x => x.cmd.q.tenant | none => 0
  let d := (d.logEvent s.unit 0x09 first t 0 9).bump (pf 7 0x070) 1
  let d := if s.unit = 0 then d else d.error s.unit 5 0x0601 0
  d.bump (pf 0x14 0x054) (b2n model)

/-- The members of a slot whose steps drop at its end, with their causes (R35, R37). -/
def Dev.slotDrops (d : Dev) (s : Slot) (rs : List ArrRun) : List (Nat × Nat) :=
  ((d.liveMembers s).filter fun p => p.2.1.fate == 0).map fun p =>
    (p.1, if s.cause p.1 = 9 then (d.memberLate s rs p.1).getD 9 else s.cause p.1)

/-- The end of a slot whose stitch has not finished: its members' steps drop (R34, R35, R39). A slot whose members have all left their steps ends
without one. -/
def Dev.endSlot (d : Dev) (i : Nat) : Dev :=
  match d.row.slots[i]? with
  | none => d
  | some s =>
    let live := d.liveMembers s
    if 2 ≤ s.phase then d
    else if live.isEmpty then d.leaveSlot i s
    else
      let rs := d.runCore s live
      let drops := d.slotDrops s rs
      let own := { s with members := live.map (·.1) }
      let n := (((d.leaveSlot i s).keepReads own).keepSums own rs).cutUnit s rs
      let n := match drops.find? (·.2 == 9) with
        | some p => n.overrun s p.1 (d.modelSlot s)
        | none => n
      drops.foldl (fun d p => d.dropStep p.1 p.2) n

/-- A unit's running stitch ended by a soft reset or an error: its members drop with FAULT (R32, R279, R461). -/
def Dev.faultUnit (d : Dev) (p : Nat) : Dev :=
  { d with row := { d.row with slots := d.row.slots.map fun s => if s.unit = p && s.phase = 1 && p ≠ 0 then { s with faulted := true } else s } }

/-- The stitch limit of a strand (R38). -/
def Dev.atLimit (d : Dev) (s : Strand) : Bool := bits (d.inForce (pf 1 0x120)) 7 0 ≤ s.consec

/-- A strand that has dropped the same step in the last permitted row ends STALLED (R38, R454). -/
def Dev.stall (d : Dev) (id : Nat) : Dev :=
  match nget d.strands id with
  | none => d
  | some s =>
    if s.state ≠ 2 || s.final.isSome || !d.atLimit s then d
    else match s.part with
      | some m => (d.emit (.cascade 15 0 [m, s.cause])).endSilent id
      | none => d.endNow id 0x11 0 s.cause

/-- A strand holds a pin on an epoch that is no longer current (R161). -/
def Dev.stalePin (d : Dev) (s : Strand) : Bool :=
  s.pins.any fun p => match d.curEpoch p.1 with | some e => e.stamp != p.2 | none => true

/-- The period change of a publish waits for a strand admitted under the longer period (R41, R161). -/
def Dev.shorterWaits (d : Dev) : Bool :=
  match d.pub with
  | some p => bits ((nget p.regs (pf 1 0x100)).elim (resetOf (pf 1 0x100)) (·.toNat)) 9 0 < d.period
  | none => false

/-- A strand past the maximum pin age that holds an old pin, or that a shorter period waits for (R161). -/
def Dev.pinDue (d : Dev) (s : Strand) : Bool :=
  s.state != 3 && s.final.isNone && s.part.isNone && bits (d.inForce (pf 2 0x200)) 15 0 * 1000000 < d.row.timeNs - s.admitNs &&
    (d.stalePin s || d.shorterWaits)

/-- A stitch of the row still has work for a strand, so that its row may yet end otherwise. -/
def Dev.openSlot (d : Dev) (id : Nat) : Bool := d.row.slots.any fun sl => decide (sl.phase < 2) && sl.members.contains id && (d.stitchOf sl id).isSome

/-- A strand past the pin age ends STALLED when it stands at the stitch limit, else EPOCH_EXPIRED (R137, R161). -/
def Dev.expireNow (d : Dev) (id : Nat) : Dev :=
  match nget d.strands id with
  | none => d
  | some s =>
    if s.state = 3 || s.final.isSome then d
    else if s.state = 2 && d.atLimit s then d.stall id
    else d.endNow id 0x12 0 (d.row.number - s.admitRow)

/-- The pin age of a strand has passed (R161): while a stitch of it still runs its end waits for what the row brings (R137, R162). -/
def Dev.expire (d : Dev) (id : Nat) : Dev :=
  match nget d.strands id with
  | none => d
  | some s =>
    if !d.pinDue s then d
    else if d.openSlot id then d.putStrand id { s with expiring := true }
    else d.expireNow id

/-- The strands whose pin age has passed end with their row, unless it ended them otherwise (R137, R161). -/
def Dev.expireMarked (d : Dev) : Dev :=
  ((d.strands.filter fun p => p.2.expiring).map (·.1)).foldl (fun d id => d.expireNow id) d

/-! The meanings -/

/-- STITCH_START (R32, R37, R419). -/
def execStitchStart (slot : Nat) (inputs : List Input) (s : State) : Host.Outcome State Fault Refusal :=
  .next { s with dev := s.dev.startStitch slot inputs }

/-- STITCH_COMMIT (R32, R37). -/
def execStitchCommit (slot : Nat) (s : State) : Host.Outcome State Fault Refusal := .next { s with dev := s.dev.commitStitch slot }

/-- SLOT_END (R34, R35, R39). -/
def execSlotEnd (slot : Nat) (s : State) : Host.Outcome State Fault Refusal := .next { s with dev := s.dev.endSlot slot }

/-- STALL_LIMIT (R38). -/
def execStallLimit (strand : Nat) (s : State) : Host.Outcome State Fault Refusal := .next { s with dev := s.dev.stall strand }

/-- PIN_AGE_EXPIRY (R161, R162). -/
def execPinAgeExpiry (strand : Nat) (s : State) : Host.Outcome State Fault Refusal := .next { s with dev := s.dev.expire strand }

/-- MARKER_SIGNAL (R415 to R418): a signal of a marker that its source's strand or pattern does not hold changes nothing,
nor does an ADD of a number outside 1 to 65,535. -/
def execMarkerSignal (marker : Nat) (add : Bool) (operand srcKind source strand : Nat) (met : Bool) (s : State) :
    Host.Outcome State Fault Refusal :=
  .next { s with dev :=
    if holderSignals (s.dev.marker marker).holder srcKind strand && (!add || (1 ≤ operand && operand ≤ 65535)) then s.dev.signal marker add operand (markLast srcKind source strand) met else s.dev }

/-- SLICE_LOAD_START (R189): the next slice of the weight order, with room for it and within three places. -/
def Dev.sliceStart (d : Dev) : Dev :=
  let bed := d.tiers.bed
  let held := sumNat (bed.map fun x => if x.phase = 0 then 0 else x.segments)
  match bed.findIdx? (·.phase == 0) with
  | none => d
  | some i =>
    let segs := match bed[i]? with | some x => x.segments | none => 0
    if 3 < i || 32 < held + segs then d
    else { d with tiers := { d.tiers with bed := bed.mapIdx fun j (x : Slice) => if j = i then { x with phase := 1 } else x } }

def execSliceLoadStart (s : State) : Host.Outcome State Fault Refusal := .next { s with dev := s.dev.sliceStart }

/-- SLICE_LOAD_DONE (R189, R191): the slice is loaded, and no stitch waits for it. -/
def Dev.sliceDone (d : Dev) : Dev :=
  match d.tiers.bed.findIdx? (·.phase == 1) with
  | none => d
  | some i =>
    match d.tiers.bed[i]? with
    | none => d
    | some x =>
      let d := { d with tiers := { d.tiers with bed := d.tiers.bed.mapIdx fun j (y : Slice) => if j = i then { y with phase := 2 } else y } }
      let slots := d.row.slots.mapIdx fun j (sl : Slot) =>
        if x.users.contains j && sl.inputs.contains ⟨none, .needle⟩ then { sl with inputs := sl.inputs.filter fun z => z.src != .needle, got := sl.got ++ [⟨none, .needle⟩] }
        else sl
      ((({ d with row := { d.row with slots := slots } }).bump (pf 0xE 0x040) 1).bump (pf 0xE 0x044) (b2n x.fromT2)).bumpK (pf 0xE 0x048) x.kib

def execSliceLoadDone (s : State) : Host.Outcome State Fault Refusal := .next { s with dev := s.dev.sliceDone }

end Sys2Proof.Machine
end

