-- ==== Sys2Proof/Machine/Publish.lean ====
section
/-! DEFINITION. Publishing: the commit, its page, object and model checks, refusal, swatches and the boundary at which it takes effect
(R74 to R81, R105, R145, R150 to R152, R159, R160, R182, R316, R338, R339, R413, R414, R448, R564). -/

namespace Sys2Proof.Machine

/-! Swatches -/

/-- One bit of the CRC-64 of R78. -/
def crcBit (c : Nat) : Nat := if 2 ^ 63 ≤ c then ((c * 2) % 2 ^ 64) ^^^ 0x42F0E1EBA9EA3693 else c * 2
/-- One byte of the CRC-64. -/
def crcByte (c : Nat) (b : Byte) : Nat :=
  let x := c ^^^ (b.toNat * 2 ^ 56)
  crcBit (crcBit (crcBit (crcBit (crcBit (crcBit (crcBit (crcBit x)))))))
/-- CRC-64/ECMA-182 of R78. -/
def crc64 (bs : List Byte) : Nat := bs.foldl crcByte 0

/-- The page swatch of a PF page over the values in force (R78). -/
def Dev.pageSwatch (d : Dev) (p : Nat) : Nat :=
  match pageInfo p with
  | none => 0
  | some (type, inst) =>
    crc64 (toLe 4 (type * 2 ^ 24 + 0x300) ++ toLe 4 (Nat.land (d.inForce (pf p 0x008)) 0xFF01) ++
      ((shadowOffs type inst).map fun off => toLe 4 (d.inForce (pf p off))).flatten)

/-- The pages that enter the device swatch: by block type, then active index; spares not in service and replaced units left out (R79). -/
def Dev.swatchPages (d : Dev) : List Nat :=
  let l := pfSlots.filter fun p => !(d.page p).spare && (d.page p).active != 0xFFF
  let key (p : Nat) : Nat := (match pageInfo p with | some (t, _) => t | none => 0) * 4096 + (d.page p).active
  sortBy (fun a b => decide (key a ≤ key b)) l

/-- The device swatch over the values in force (R79). -/
def Dev.deviceSwatch (d : Dev) : Nat := crc64 ((d.swatchPages.map fun p => toLe 8 (d.pageSwatch p)).flatten)

/-- Page and device swatches latched (R77): every page's own, those that R79 leaves out of the device swatch among them. -/
def Dev.latchSwatches (d : Dev) : Dev :=
  (pfSlots.foldl (fun x p => x.put64 (pf p 0x014) (d.pageSwatch p)) d).put64 (pf 0 0x120) d.deviceSwatch

/-! Objects of a publish -/

/-- T1 granules that an owner's objects of lower handle leave (R564). -/
def fitRoom (n : Dev) (objs : NMap Obj) (h : Nat) : Nat :=
  let owner := handleOwner h
  n.quota 1 owner - sumNat ((objs.filter fun p => handleOwner p.1 == owner && p.1 < h).map fun p => objUse n.tiers.raw p.1 1 p.2)

/-- The fit of a new epoch (R316, R564): 1 for a scanned array that fits T1; the rows of a table in T1. -/
def fitOf (n : Dev) (objs : NMap Obj) (h : Nat) (c : Content) : Nat :=
  let room := fitRoom n objs h
  match handleKind h with
  | 1 =>
    let d := ixDesc c.bytes
    b2n (d.cls != 0 && ceilDiv (c.index.flat.length * ixEntrySize d) 65536 ≤ room)
  | 3 =>
    let t := tblDesc c.bytes
    let s := tblStride t
    let len := objLen c
    let rowsEnd := 0x80 + t.rows * s
    if replica h c != 0 || ceilDiv (max rowsEnd len) 65536 ≤ room then t.rows
    else
      let acc := ceilDiv (max rowsEnd len) 65536 - rowsEnd / 65536
      min t.rows (((room - acc) * 65536 - 0x80) / max 1 s / 12 * 12)
  | _ => 0

/-- An object once a publish that takes its content in has taken effect (R145, R150 to R152): the granules that the content rewrote are damaged
no longer, and none of a deleted object is (R195). A shadow that holds later writes too is a copy of the new epoch from then on (R151). -/
def Obj.publish (o : Obj) (c : Content) (stamp t1 row : Nat) : Obj :=
  let later := o.stagedOld || o.stagedMid || o.stagedNew
  let gone := bodyLen c == 0
  let damaged := o.damaged.filter fun g => !gone && !o.repaired.any fun r => r.1 == g && r.2 < row
  let base : Obj := { o with
    inPublish := false, damaged := damaged, repaired := o.repaired.filter fun r => row ≤ r.2
    shadow := if later then o.shadow else none, settled := if later then o.settled else none, prior := if later then o.prior else none
    copied := if later && !gone then some stamp else none }
  if gone then
    { base with current := false, removed := o.removed ++ [stamp], epochs := o.epochs.map fun (e : Epoch) => { e with damaged := [] } }
  else { base with epochs := o.epochs ++ [⟨stamp, c.bytes.le 0x10 8, c, t1, row, damaged⟩], current := true }

/-- The stamp that the next publish gives (R145). -/
def Dev.nextStamp (d : Dev) : Nat := (d.counter + 1) % 2 ^ 32

/-- One object brought in, its fit against a prospective configuration. -/
def Dev.bringIn (d n : Dev) (row : Nat) (objs : NMap Obj) (x : Nat × Content) : NMap Obj :=
  nset objs x.1 (((nget objs x.1).getD Obj.blank).publish x.2 d.nextStamp (fitOf n objs x.1 x.2) row)

/-- The objects as a publish leaves them. -/
def Dev.objsAfter (d n : Dev) (p : Pub) : NMap Obj := p.objs.foldl (d.bringIn n p.row) d.objs

/-- The descriptor page a model is bound to in a reading of the configuration (R339). -/
def boundIn (m : NMap Word) (h : Nat) : Option Nat :=
  (List.range 64).find? fun i => match nget m (pf (0x50 + i) 0x100) with | some v => v.toNat == h | none => false

/-- The lowest free descriptor page. -/
def freePage (m : NMap Word) : Option Nat := (List.range 64).find? fun i => (nget m (pf (0x50 + i) 0x100)).isNone

/-- A model bound to the lowest free descriptor page, with its enable (R339). -/
def bindModel (m : NMap Word) (h : Nat) : NMap Word :=
  match boundIn m h, freePage m with
  | none, some i => nset (nset m (pf (0x50 + i) 0x008) (wd 1)) (pf (0x50 + i) 0x100) (wd h)
  | _, _ => m

/-- Models that a publish creates an epoch of, in ascending handle order. -/
def Pub.models (p : Pub) : List (Nat × Content) := p.objs.filter fun x => handleKind x.1 == 4 && bodyLen x.2 != 0

/-- Vocabularies beyond an engine's share, T0 of a matrix core beyond its size, or T0 copies that bring the T0 pool below the tenants' quotas
(R182, R276, R360). -/
def Dev.t0Full (n : Dev) (before after : NMap Obj) : Bool :=
  6144 * 1024 < vocabBytes after || 768 < patternFixed after + replicas after ||
    (n.t0Pool after < n.quotaSum 0x10C && n.t0Pool after < n.t0Pool before)

/-- An owner above its quota in a tier where the publish adds to its use (R159, R564). -/
def tierFull (n : Dev) (before after : NMap Obj) (owner : Nat) : Bool :=
  let use_ (objs : NMap Obj) (t : Nat) : Nat := ownerUse n.tiers.raw objs owner t
  [1, 2, 3].any fun t => n.quota t owner < use_ after t && use_ before t < use_ after t

/-- The object checks of R159 in ascending handle order: the code of the first failure. `m` is the configuration with the bindings so
far, `objs` the objects brought in so far. -/
def Dev.objectChecks (d n : Dev) (row : Nat) : NMap Word → NMap Obj → List (Nat × Content) → Option Nat
  | _, _, [] => none
  | m, objs, x :: l =>
    let o := (nget d.objs x.1).getD Obj.blank
    let gone := bodyLen x.2 == 0
    let model := handleKind x.1 == 4 && !gone
    let objs' := d.bringIn n row objs x
    let m' := if model then bindModel m x.1 else m
    if !gone && 4 < d.liveCount x.1 o + 1 then some 0x0501
    else if model && patternTargetBad x.2.bytes then some 0x0705
    else if model && (boundIn m x.1).isNone && (freePage m).isNone then some 0x0420
    else if tierFull n objs objs' (handleOwner x.1) || (!gone && n.t0Full objs objs') then some 0x0421
    else d.objectChecks n row m' objs' l

/-- Order 1 of R338 on one model, the vocabularies of the other resident models beside (R359). -/
def modelOrder1 (objs : NMap Obj) (h : Nat) (c : Content) : Bool :=
  let m := modelDesc c.bytes
  let v := vocabOf c.bytes
  let own := section_ c.bytes m.vocOff m.vocLen
  let clash := (objs.filter fun p => handleKind p.1 == 4 && p.1 != h).any fun p => p.2.epochs.any fun e =>
    let k := modelDesc e.content.bytes
    k.vocLen != 0 && (vocabOf e.content.bytes).ident == v.ident && section_ e.content.bytes k.vocOff k.vocLen != own
  modelRangeBad c.bytes || (m.vocLen != 0 && (vocabBad v m.vocLen || clash))

/-- The model checks of R338 on one model: the code of the first failure. -/
def Dev.modelCheck (n : Dev) (objs : NMap Obj) (h : Nat) (c : Content) : Option Nat :=
  let p := pattern c.bytes
  let res := residentPatterns objs
  firstCode [
    codeIf (modelOrder1 objs h c) 0x0101,
    codeIf (p.tier != (modelDesc c.bytes).tier || (sliceNames c).any fun x => sliceTooLarge (sliceKib c.bytes x)) 0x0705,
    codeIf ((p.rec? (bits (n.inForce (pf 1 0x100)) 9 0)).isNone || p.recs.any fun r => r.w.any (Machine.budget r.period < ·)) 0x0310,
    codeIf (1280 * 2 ^ 20 < sumNat (res.map fun c => (modelDesc c.bytes).patLen) ||
      4096 - n.strandMarkers < sumNat (res.map fun c => (pattern c.bytes).markers)) 0x0421]

/-- The model checks in ascending handle order, with the slot of the descriptor page. -/
def Dev.modelChecks (n : Dev) (objs : NMap Obj) : NMap Word → List (Nat × Content) → Option (Nat × Nat)
  | _, [] => none
  | m, x :: l =>
    let m' := bindModel m x.1
    match n.modelCheck objs x.1 x.2 with
    | some code => some (code, 0x50 + (boundIn m' x.1).getD 0)
    | none => n.modelChecks objs m' l

/-- The first page check that fails, with its slot (R75). -/
def Dev.pageChecks (d n : Dev) (objs : NMap Obj) : List Nat → Option (Nat × Nat)
  | [] => none
  | p :: l => match d.pageCheck n objs false p with | some code => some (code, p) | none => d.pageChecks n objs l

/-- Object and model checks of a publish: code and slot of the first failure (R159, R338). -/
def Dev.contentChecks (d : Dev) (p : Pub) : Option (Nat × Nat) :=
  let n := d.afterPeriod p.regs
  match d.objectChecks n p.row p.regs d.objs p.objs with
  | some code => some (code, 0xFFF)
  | none => n.modelChecks (d.objsAfter n p) p.regs p.models

/-- Every check of a publish: code and slot of the first failure (R75, R76, R159, R338). Firmware's own publish brings in the pages that
passed their recheck (R73), and no lock refuses it (R556). -/
def Dev.pubChecks (d : Dev) (p : Pub) : Option (Nat × Nat) :=
  let d := if p.src = .firmware then d.put (pf 9 0x104) 0 else d
  let n := d.afterPeriod p.regs
  let pages := (changedPages d.act p.regs).filter fun q => p.src != .firmware || enIn p.regs q
  match d.pageChecks n (d.objsAfter n p) pages with
  | some r => some r
  | none => d.contentChecks p

/-! Commit, refusal and effect -/

/-- DEV_PUB_STAT: BUSY 0, REFUSED 1, WAITING 2, COMMIT_BUSY 3. -/
def Dev.pubBit (d : Dev) (n : Nat) (b : Bool) : Dev := d.put (pf 0 0x104) (setBit (d.rg (pf 0 0x104)) n b)

/-- A PUBLISH command's completion (R105, R109). -/
def Dev.pubDone (d : Dev) (src : PubSrc) (status reason extra : Nat) : Dev :=
  match src with
  | .command cid noIrq => d.finishNoStrand ⟨⟨0, 0⟩, [cid * 65536 + b2n noIrq * 256], [], 0⟩ status reason 0 extra
  | _ => d

/-- Object shadows that a publish took in wait again (R76). -/
def Dev.restage (d : Dev) (p : Pub) : Dev :=
  p.objs.foldl (fun d x => d.setObj x.1 { d.obj x.1 with inPublish := false, stagedOld := true }) d

/-- A refusal at order 1 of R159 counts (R159, R173). -/
def Dev.countLive (d : Dev) (code : Nat) : Dev := d.bump (pf 2 0x228) (b2n (code == 0x0501))

/-- DEV_PUB_REASON and DEV_PUB_SLOT of a refusal, and the page's own REFUSED (R63, R76). -/
def Dev.pubRefusal (d : Dev) (code slot : Nat) : Dev :=
  let d := ((d.put (pf 0 0x108) code).put (pf 0 0x10C) slot).pubBit 1 true
  let d := (d.countLock code).countLive code
  if slot = 0xFFF then d else d.refuse slot code

/-- A committed publish refused: it takes no effect anywhere (R76). -/
def Dev.refusePub (d : Dev) (p : Pub) (code slot : Nat) : Dev :=
  let d := (({ d with pub := none }.restage p).pubRefusal code slot).pubBit 0 false
  ((d.pubBit 2 false).vector 0 2).pubDone p.src 0x10 code 0

/-- The snapshot of every shadow (R74, R150): writes that entered before the present row. A member's, at PREPARE, takes those that entered
before the row before, the row of the COMMIT, which is then the publish's own row (R443). -/
def Dev.snapshotAt (d : Dev) (src : PubSrc) (due : Nat) (prior : Bool) : Dev :=
  let objs := d.objs.filterMap fun p =>
    let o := p.2
    if prior then (if o.stagedOld then o.prior.map fun c => (p.1, c) else none)
    else if o.stagedOld || o.stagedMid then o.settled.map fun c => (p.1, c) else none
  let d := objs.foldl (fun d x =>
    let o := d.obj x.1
    d.setObj x.1 { o with stagedOld := false, stagedMid := prior && o.stagedMid, inPublish := true }) d
  ({ d with pub := some ⟨src, d.row.number - b2n prior, d.shadows, objs, false, false, due⟩ }).pubBit 0 true

def Dev.snapshot (d : Dev) (src : PubSrc) (due : Nat) : Dev := d.snapshotAt src due false

/-- A publish of a cascade waits for its GO; a member's COMMIT forwarded to the master waits for the PREPARE (R443). -/
def untilGo : Nat := 2 ^ 64
def untilPrepare : Nat := 2 ^ 64 + 1

/-- The position of this module on the chain: the one a PREPARE gave while a cascade forms, its module index in a cascade (R436, R437). -/
def Dev.position (d : Dev) : Nat := if d.cas.state = 1 then d.cas.newIndex else d.cas.index

/-- A member of a serving cascade (R443). -/
def Dev.casMember (d : Dev) : Bool := d.cas.state == 2 && !d.mgmt.masterLow
/-- The publish to commit is a cascade publish of the master: it serves, or the snapshot enables its cascade page (R437, R443). -/
def Dev.casMaster (d : Dev) : Bool := d.mgmt.masterLow && (d.cas.state == 2 || (d.cas.state == 0 && enIn d.shadows 0xD && !d.enAct 0xD))

/-- A COMMIT (R74, R442, R443): PUB_BUSY while one is pending; a member of a cascade forwards it; a master starts an exchange. -/
def Dev.commit (d : Dev) (src : PubSrc) : Dev :=
  if d.pub.isSome then (d.pubBit 3 true).pubDone src 0x10 0x0502 0
  else if d.cas.state == 3 then (((d.pubRefusal 0x0905 0xFFF).vector 0 2).pubDone src 0x10 0x0905 0)
  else if d.casMember then
    ((({ d with pub := some ⟨src, d.row.number, [], [], false, false, untilPrepare⟩ }).pubBit 0 true).pubBit 2 true).emit (.cascade 6 0 [d.cas.index])
  else if d.casMaster then
    let d := (d.snapshot src untilGo).pubBit 2 true
    { d with cas := { d.cas with
        state := if d.cas.state = 0 then 1 else d.cas.state
        exchange := some d.row.number, goSent := false
        members := d.cas.members.map fun (m : Member) => { m with reply := 0, code := 0, slot := 0xFFF } } }
  else d.snapshot src (d.row.number + 2)

/-- The publish is one of a cascade: it takes effect through the exchange of R443. -/
def Dev.casPub (d : Dev) : Bool := d.cas.exchange.isSome || d.casMember || d.cas.state == 1

/-- Another module's answer held as the master sees it (R443). -/
def Dev.setMember (d : Dev) (m : Member) : Dev :=
  { d with cas := { d.cas with members := sortBy (fun a b => decide (a.index ≤ b.index)) (m :: d.cas.members.filter fun x => x.index != m.index) } }

/-- TOPOLOGY in force (R434). -/
def Dev.topology (d : Dev) : Nat := bits (d.inForce (pf 0xD 0x100)) 1 0

/-- The publish would be held on this module alone, in a row that is in run-on or not (R41, R50, R444, R492). -/
def Dev.pubHeld (d : Dev) (p : Pub) (runon : Bool) : Bool :=
  runon || d.power.standby || d.power.l2 ||
    (bits ((nget p.regs (pf 1 0x100)).elim 250 (·.toNat)) 9 0 < d.period && d.strands.any fun x => x.2.state != 3)

/-- The present row is in run-on (R55), and the row that begins will be (R49, R50). -/
def Dev.inRunon (d : Dev) : Bool := bit (d.rg (pf 1 0x124)) 0
def Dev.nextRunon (d : Dev) : Bool := !(d.row.planned || d.power.warm)

/-- A firmware part stands still: from the start of the run-on in which it is rewritten or rolled back to the boundary at which every part starts
its image (R507, R520, R522, R523). -/
def Dev.partStopped (d : Dev) (part : Nat) : Bool :=
  (d.fw.state == 2 && !d.fw.ready || d.fw.state == 3) && d.inRunon && (d.fw.waiting.contains part || d.fw.rewritten.contains part)

/-- The checks of a publish end (R75, R76, R443, R444): refused, or passed and scheduled; a member replies, a master keeps its own result. -/
def Dev.checkDone (d : Dev) : Dev :=
  match d.pub with
  | none => d
  | some p =>
    if p.checked || p.due == untilPrepare then d
    else
      let r := d.pubChecks p
      let ok := { d with pub := some { p with checked := true } }
      if d.cas.exchange.isSome then
        let (reply, code, slot) := match r with | none => (if d.pubHeld p d.inRunon then 2 else 1, 0, 0xFFF) | some (c, s) => (3, c, s)
        let n := d.afterPeriod p.regs
        ok.setMember ⟨0, reply, code, slot, n.deviceSwatch, n.period, n.topology, false, false, 0⟩
      else if d.casPub then
        match r with
        | some (c, s) => (((if s = 0xFFF then ok else ok.refuse s c).countLock c).countLive c).emit (.cascade 3 0 [d.position, 3, c, s, 0, 0, 0])
        | none =>
          let held := d.pubHeld p d.inRunon
          let n := d.afterPeriod p.regs
          ({ ok with cas := { ok.cas with ready := !held } }).emit
            (.cascade 3 0 [d.position, if held then 2 else 1, 0, 0xFFF, n.deviceSwatch, n.period, n.topology])
      else match r with
        | none => ok
        | some (c, s) => d.refusePub p c s

/-- A module that is in no cascade: its links keep their state (R442). -/
def Cascade.left (c : Cascade) : Cascade := { Cascade.reset with retries := c.retries, d2dRetries := c.d2dRetries, badLanes := c.badLanes, lostPorts := c.lostPorts }

/-! The reply deadline of a cascade publish (R437, R443 to R446) -/

/-- TP_LINK state and TP_PEER of a port (R459). -/
def Dev.linkState (d : Dev) (port : Nat) : Nat := bits (d.rg (pf (0x0A0 + port) 0x104)) 1 0
def Dev.linkUp (d : Dev) (port : Nat) : Bool := 2 ≤ d.linkState port
def Dev.peerModule (d : Dev) (port : Nat) : Nat := bits (d.rg (pf (0x0A0 + port) 0x10C)) 19 16
def Dev.peerPort (d : Dev) (port : Nat) : Nat := bits (d.rg (pf (0x0A0 + port) 0x10C)) 1 0
def Dev.peerMaster (d : Dev) (port : Nat) : Bool := bit (d.rg (pf (0x0A0 + port) 0x10C)) 8

/-- The port that R430 pairs with a port. -/
def pairedPort (port : Nat) : Nat := if port % 2 = 0 then port + 1 else port - 1

/-- The code of a check and the module index it names. -/
def codeAt (bad : Bool) (code index : Nat) : Option (Nat × Nat) := if bad then some (code, index) else none

/-- The formation checks of R437, orders 1 to 4, on a chain of m modules: the first failure with a module index. -/
def Dev.chainCode (d n : Dev) (others : List Member) (m : Nat) : Option (Nat × Nat) :=
  let named (code : Nat) : Option (Nat × Nat) := (others.find? (·.code == code)).map fun x => (code, x.index)
  let topo := n.topology
  let upstream (port : Nat) : Bool := d.linkUp port && !(topo == 2 && d.peerModule port == m - 1 && d.peerPort port == port + 1)
  let wrong (port : Nat) : Bool := d.linkUp port && d.peerPort port != pairedPort port
  let apart : Bool := d.linkUp 1 && d.linkUp 3 && d.peerModule 1 != d.peerModule 3
  let expect := d.rg (pf 0xD 0x104)
  (named 0x0902).or <| (codeAt (d.linkUp 1 && d.peerMaster 1 || d.linkUp 3 && d.peerMaster 3) 0x0902 1).or <|
    (codeAt (upstream 0 || upstream 2) 0x0901 0).or <| (codeAt (16 < m) 0x0904 (m - 1)).or <| (named 0x0903).or <|
    codeAt ((List.range 4).any wrong || apart || (bit expect 31 && bits expect 3 0 != 0)) 0x0903 0

/-- Orders 5 and 6 of R437 on the replies: a module that is silent or marked lost, or a period, topology or swatch that differs (R437, R456). -/
def replyCode (n : Dev) (others : List Member) (m : Nat) (reached : Bool) : Option (Nat × Nat) :=
  let gap := (List.range' 1 (m - 1)).find? fun i => !others.any fun (x : Member) => x.index == i && x.reply != 0 && !x.lost
  let first := (others.find? (·.index == 1)).map (·.swatch)
  let equal := bit (n.inForce (pf 0xD 0x100)) 16
  let differs (x : Member) : Bool :=
    (x.reply == 1 || x.reply == 2) && (x.period != n.period || x.topology != n.topology || (equal && some x.swatch != first))
  match gap with
  | some i => some (0x0905, i)
  | none => if reached && others.isEmpty then some (0x0905, 1) else (others.find? differs).map fun x => (0x0906, x.index)

/-- The first failing code of a cascade publish, with its slot and module index (R446). -/
def Dev.casCode (d : Dev) (p : Pub) : Option (Nat × Nat × Nat) :=
  let n := d.afterPeriod p.regs
  let others := d.cas.members.filter fun (x : Member) => x.index != 0
  let m := 1 + maxNat (others.map (·.index))
  let forming := d.cas.state == 1
  match ((if forming then d.chainCode n others m else none).or (replyCode n others m (forming && d.linkUp 1))) with
  | some (code, i) => some (code, 0xFFF, i)
  | none => (d.cas.members.find? (·.reply == 3)).map fun x => (x.code, x.slot, x.index)

/-- A cascade publish refused on the master (R446): every member receives ABANDON. -/
def Dev.casAbandon (d : Dev) (p : Pub) (code slot index : Nat) : Dev :=
  let n := { d with pub := none }.restage p
  let n := if index = 0 then n.pubRefusal code slot else ((n.put (pf 0 0x108) code).put (pf 0 0x10C) slot).pubBit 1 true
  let n := ((n.pubBit 0 false).pubBit 2 false).bump (pf 0xD 0x044) 1
  let n := n.put (pf 0xD 0x13C) (index % 16 * 65536)
  let cas := if n.cas.state = 1 then n.cas.left else { n.cas with exchange := none, goSent := false }
  ((({ n with cas := cas }).emit (.cascade 5 255 [])).vector 0 2).pubDone p.src 0x10 code 0

/-- The reply deadline, at the end of row n + 2 or later: ABANDON, PREPARE again, or GO with the row of its boundary (R443, R444). -/
def Dev.casDeadline (d : Dev) : Dev :=
  match d.cas.exchange with
  | none => d
  | some e =>
    if d.cas.goSent || !d.mgmt.masterLow || d.row.number < e + 2 then d
    else
      let d := d.checkDone
      match d.pub with
      | none => d
      | some p =>
        match d.casCode p with
        | some (code, slot, index) => d.casAbandon p code slot index
        | none =>
          if d.cas.members.any (·.reply == 2) then
            { d with
              pub := some { p with checked := false }
              cas := { d.cas with exchange := some d.row.number,
                                  members := d.cas.members.map fun (x : Member) => { x with reply := 0, code := 0, slot := 0xFFF } } }
          else
            let row := d.row.number + 1
            ({ d with pub := some { p with due := row + 1 }, cas := { d.cas with goSent := true } }).emit (.cascade 4 255 [row, d.counter])

/-- Free markers from the top in descending order (R413). -/
def Dev.topMarkers (d : Dev) (n : Nat) : List Nat := ((List.range 4096).reverse.filter fun i => (d.marker i).holder == .free).take n

/-- A model epoch made resident: its pattern's markers, unless another live epoch of the model has the same pattern (R413). -/
def Dev.residentEpoch (d : Dev) (old : NMap Obj) (x : Nat × Content) : Dev :=
  match d.modelPage x.1 with
  | none => d
  | some page =>
    let shares := ((nget old x.1).getD Obj.blank).epochs.any fun e => patSection e.content == patSection x.2
    if shares then d else d.takeMarkers (d.topMarkers (pattern x.2.bytes).markers) (.pattern page (d.counter % 2 ^ 32))

/-- A merge started by a publish whose sprout has reached MERGE_AT (R229). -/
def Dev.autoMerge (d : Dev) (x : Nat × Content) : Dev :=
  let ix := ixDesc x.2.bytes
  let due := handleKind x.1 == 1 && bodyLen x.2 != 0 && ix.cls == 0 && ix.mergeAt != 0 && ix.mergeAt ≤ x.2.index.sprout.length
  if due then { d with jobs := d.jobs ++ [⟨x.1, false, [], 1, 0, 0, 0⟩] } else d

/-- The jobs of a deleted index end (R234), and a landed result is taken in (R237). -/
def Dev.jobsAtPublish (d : Dev) (row : Nat) (x : Nat × Content) : Dev :=
  if bodyLen x.2 = 0 then
    let n := (d.jobs.filter fun j => j.handle == x.1 && j.state != 3).length
    ({ d with jobs := d.jobs.filter fun (j : Job) => j.handle != x.1 }).bump (pf 4 0x234) n
  else { d with jobs := d.jobs.filter fun (j : Job) => !(j.handle == x.1 && j.state == 3 && j.row < row) }

/-- The row timer's own part of a publish (R41, R45, R57, R438): period, budget, the row itself and the start of a relock. DESIGN CHOICE
(log 72, point 2): every change of MODE to one that is not FREE starts a relock from LOST, that from CASCADE to FOLLOW too, where R45
names the change from FREE alone. -/
def Dev.timerPublish (d : Dev) (oldMode : Nat) : Dev :=
  let P := bits (d.inForce (pf 1 0x100)) 9 0
  let mode := bits (d.inForce (pf 1 0x10C)) 1 0
  let d := (d.put (pf 1 0x104) P).put (pf 1 0x108) (Machine.budget P)
  let d := { d with row := { d.row with running := d.row.running && d.enAct 1 } }
  if mode = oldMode then d
  else
    let st := if mode = 0 then 0 else 3
    let d := if bits (d.rg (pf 1 0x114)) 1 0 = st then d else (d.putBits (pf 1 0x114) 1 0 st).vector 0 5
    { d with row := { d.row with missed := 0, relocking := mode != 0, wide := false } }

/-- Changes of measurement blocks counted (R555, R558). -/
def Dev.measured (d : Dev) (n : Nat) : Dev := d.bump (pf 9 0x04C) n

/-- TV_TENANT.ENABLED brought up to date on every VF: it shows whether the tenant's page on the PF runs (R92). -/
def Dev.showTenants (d : Dev) : Dev :=
  (List.range' 1 16).foldl (fun d t => d.putBits (regKey t 0x108) 8 8 (b2n (d.on (tenantPage t)))) d

/-- Registers, objects and the publish counter of a publish that takes effect (R77, R339). A page that a recheck refused is not part of
firmware's publish and keeps its reason (R63, R73). -/
def Dev.enterPub (d : Dev) (p : Pub) : Dev :=
  let regs := p.models.foldl (fun m x => bindModel m x.1) p.regs
  let shadows := p.models.foldl (fun m x => bindModel m x.1) d.regs
  let binds := (p.models.filter fun x => (boundIn d.act x.1).isNone).length
  let n := d.afterPeriod p.regs
  let changed := changedPages d.act regs
  let objs := d.objsAfter n p
  let d := ({ d with objs := objs, regs := shadows, pub := none }.setCounter (d.counter + 1)).bump (pf 0x14 0x040) binds
  let d := d.after regs
  changed.foldl (fun d q =>
    (if p.src == .firmware && !enIn regs q then d else d.pass q).put (pf q 0x01C) (d.counter % 2 ^ 32)) d

/-- Pages whose shadows a publish has brought into force are dirty no longer (R65). -/
def Dev.cleanPages (d : Dev) : Dev :=
  pfSlots.foldl (fun d q =>
    if (d.page q).dirty && !(changedPages d.shadows d.act).contains q then d.modPage q fun x => { x with dirty := false } else d) d

/-- What a publish does to resident models, T0 replicas, index jobs and tenants (R92, R183, R229, R237, R339, R413). -/
def Dev.afterPub (d : Dev) (p : Pub) (old : NMap Obj) : Dev :=
  let d := p.models.foldl (fun d x => d.residentEpoch old x) d
  let tables := (p.objs.filter fun x => bodyLen x.2 != 0 && replica x.1 x.2 != 0).length
  let d := d.bump (pf 0xF 0x064) (tables * ((d.activeUnits 0).length + (d.activeUnits 1).length))
  let d := p.objs.foldl (fun d x => (d.jobsAtPublish p.row x).autoMerge x) d
  (List.range' 1 16).foldl (fun d t => d.event t 3) d

/-- A publish takes effect at the present boundary (R77 to R80, R92, R111, R339, R555). -/
def Dev.applyPub (d : Dev) (p : Pub) : Dev :=
  let old := d.objs
  let oldMode := bits (d.inForce (pf 1 0x10C)) 1 0
  let d := (d.enterPub p).cleanPages
  let was := d.rg64 (pf 0 0x120)
  let d := (d.timerPublish oldMode).latchSwatches.showTenants
  let d := d.measured (b2n (d.rg64 (pf 0 0x120) != was))
  let d := ((d.put64 (pf 0 0x118) d.row.number).pubBit 0 false).pubBit 2 false
  ((d.afterPub p old).vector 0 2).pubDone p.src 0 0 (d.counter % 2 ^ 32)

/-- The cascade swatch: CRC-64 over the device swatches of the modules in ascending index (R448). -/
def Dev.casSwatch (d : Dev) : Nat :=
  crc64 (toLe 8 d.deviceSwatch ++ ((d.cas.members.filter fun m => m.index != 0).map fun m => toLe 8 m.swatch).flatten)

/-- A cascade publish in force (R438, R443, R447, R448): formation, the two differences of a member, the cascade swatch of the master. -/
def Dev.casEffect (d : Dev) : Dev :=
  let forming := d.cas.state == 1
  let d := d.bump (pf 0xD 0x040) 1
  let cas := { d.cas with exchange := none, goSent := false, goGot := false, ready := false, index := d.cas.newIndex }
  if !d.enAct 0xD then
    { d with cas := d.cas.left }
  else if d.mgmt.masterLow then
    let others := (d.cas.members.filter fun m => m.index != 0).length
    ({ d with cas := { cas with state := 2, index := 0, modules := if forming then 1 + others else cas.modules } }).put64 (pf 0xD 0x134) d.casSwatch
  else
    let d := { d with cas := { cas with state := 2, silent := 0 } }
    if forming then
      (d.put64 (pf 0xD 0x12C) ((d.row.number + 2 ^ 64 - (cas.goRow + 1) % 2 ^ 64) % 2 ^ 64)).put64 (pf 0xD 0x124)
        ((d.counter + 2 ^ 48 - (cas.goCounter + 1) % 2 ^ 48) % 2 ^ 48)
    else d

/-- The checks of R159 once more on a publish that was held, in the row before the boundary at which it would take effect (R160). -/
def Dev.recheckHeld (d : Dev) : Dev :=
  match d.pub with
  | none => d
  | some p =>
    if !p.held || !p.checked || d.casPub || d.row.number + 1 < p.due || d.pubHeld p d.nextRunon then d
    else match d.contentChecks p with
      | some (c, s) => d.refusePub p c s
      | none => d

/-- The publish at the boundary of the present row (R41, R50, R75, R443): in force when it is due, checked and not held. A cascade publish
is due by its GO, whatever would hold it here. -/
def Dev.boundaryPub (d : Dev) : Dev :=
  match d.pub with
  | none => d
  | some p =>
    if d.row.number < p.due then d
    else if d.casPub then (d.applyPub p).casEffect
    else
      let d := if p.checked then d else d.checkDone
      match d.pub with
      | none => d
      | some p =>
        if d.pubHeld p d.nextRunon then ({ d with pub := some { p with held := true, due := d.row.number + 1 } }).pubBit 2 true
        else d.applyPub p

/-! The meanings -/

/-- COMMIT (R74). -/
def execCommit (s : State) : Host.Outcome State Fault Refusal := .next { s with dev := s.dev.host fun d => d.commit .register }

/-- PUBLISH_CHECK_DONE (R75, R76). -/
def execPublishCheckDone (s : State) : Host.Outcome State Fault Refusal := .next { s with dev := s.dev.checkDone }

end Sys2Proof.Machine
end

