-- ==== Sys2Proof/Machine/RowSync.lean ====
section
/-! DEFINITION. Row synchronisation: edges and row markers, corrections, loss and relock; the commit of row plans and access windows
(R33, R42 to R49, R54, R100, R440, R441). -/

namespace Sys2Proof.Machine

/-- RT_SYNC_CTRL.MODE in force: 0 FREE, 1 FOLLOW, 2 CASCADE. -/
def Dev.syncMode (d : Dev) : Nat := bits (d.inForce (pf 1 0x10C)) 1 0
/-- RT_SYNC_STAT.STATE: 0 FREE, 1 LOCKED, 2 SLEWING, 3 LOST. -/
def Dev.syncState (d : Dev) : Nat := bits (d.rg (pf 1 0x114)) 1 0
/-- The sync state set; a change raises PF vector 5 (R111). -/
def Dev.setSync (d : Dev) (st : Nat) : Dev := if d.syncState = st then d else (d.putBits (pf 1 0x114) 1 0 st).vector 0 5

/-- Length of the row in progress, ns (R43). -/
def Dev.rowLen (d : Dev) : Int := (d.period * 1000 : Int) + d.row.corr

/-- Half the width of the capture window, ns (R42, R45, R46). -/
def Dev.captureNs (d : Dev) : Nat := if d.row.relocking || (d.syncState == 2 && d.row.wide) then d.period * 500 else d.period * 100

/-- The total correction of the row once an edge of offset e, seen at t, is added (R43). DESIGN CHOICE (log 72, point 1): the 100 ns of R43
run from the edge's corrected time t; the spec does not say whether they run from when the glitch filter of R535 passes the edge. -/
def Dev.newCorr (d : Dev) (t e : Int) : Int :=
  let total := clampInt (d.row.corr + clampInt e 2000) 2000
  max total (min d.row.corr (t + 100 - d.period * 1000))

/-- The state after an accepted edge (R45, R46). -/
def nextSync (e : Int) : Nat := if e.natAbs ≤ 2000 then 1 else 2

/-- An edge accepted (R42, R43, R45, R46). -/
def Dev.acceptEdge (d : Dev) (t e : Int) : Dev :=
  let corr := d.newCorr t e
  let added := corr - d.row.corr
  let st := nextSync e
  let wide := st == 2 && (d.row.relocking || (d.syncState == 2 && d.row.wide))
  let d := { d with row := { d.row with corr := corr, relocking := false, wide := wide } }
  (((d.setSync st).bump (pf 1 0x070) 1).put (pf 1 0x118) (int32 e).toNat).put (pf 1 0x11C) (int32 added).toNat

/-- An edge, or a row marker, at a time from the present boundary (R42 to R46): assigned to the nearest own boundary. A free-running
module and one in LOST that does not relock ignore it. A first edge of a relock that belongs to the next boundary closes the wait at the
present one, which counts SYNC_MISSING alone (R45). -/
def Dev.edge (d : Dev) (t : Int) : Dev :=
  if !d.row.running || d.syncState == 0 || (d.syncState == 3 && !d.row.relocking) then d
  else
    let len := d.rowLen
    let here := 2 * t ≤ len
    let e := if here then t else t - len
    if (d.captureNs : Int) < e.natAbs then (d.put (pf 1 0x114) (setBit (d.rg (pf 1 0x114)) 9 true)).bump (pf 1 0x074) 1
    else if (if here then d.row.edgeHere else d.row.edgeNext) then d
    else
      let waited := d.row.relocking && !here && !d.row.edgeHere
      let d := (d.acceptEdge t e).bump (pf 1 0x078) (b2n waited)
      { d with row := if here then { d.row with edgeHere := true, missed := 0 } else { d.row with edgeNext := true, edgeHere := d.row.edgeHere || waited } }

/-- The window of the boundary just past closes: a boundary without an accepted edge (R44, R45). -/
def Dev.closeWindow (d : Dev) : Dev :=
  if d.syncState == 0 then { d with row := { d.row with edgeHere := d.row.edgeNext, edgeNext := false } }
  else
    let miss := !d.row.edgeHere
    let count := miss && !d.row.relocking && d.syncState != 3
    (({ d with row := { d.row with edgeHere := d.row.edgeNext, edgeNext := false, missed := if count then d.row.missed + 1 else if miss then d.row.missed else 0 } }).bump
      (pf 1 0x078) (b2n miss))

/-- LOST entered after LOSS_ROWS boundaries without an accepted edge, the present one among them once its window has passed (R44). -/
def Dev.syncLost (d : Dev) : Dev :=
  let passed := if d.row.edgeHere then 0 else d.row.missed + 1
  if d.syncState == 0 || d.syncState == 3 || passed < bits (d.inForce (pf 1 0x10C)) 15 8 then d
  else
    let d := (({ d with row := { d.row with wide := false, missed := 0 } }).put (pf 1 0x114) (setBit (d.rg (pf 1 0x114)) 8 true)).setSync 3
    ((d.bump (pf 1 0x07C) 1).error 1 6 0x0702 0).logEvent 1 0x01 0 0 0 0x0702

/-- RELOCK written (R45): only in FOLLOW mode and LOST. -/
def Dev.relock (d : Dev) : Dev :=
  if d.syncMode == 1 && d.syncState == 3 then { d with row := { d.row with relocking := true } } else d

/-! Plans and windows -/

/-- Plan parts that missed the deadline; with none late, group 0's merge was (R509, R510). -/
def Dev.latePlans (d : Dev) (groups : List Nat) : Dev := (if groups.isEmpty then [0] else groups.eraseDups).foldl (fun d g => if g < 4 then d.bump (pf (2 + g) 0x044) 1 else d) d

/-- Firmware commits no plan: during a rewrite (R520), and during a WARM, whose rows run empty plans (R487). -/
def Dev.withheld (d : Dev) : Bool := d.power.warm || (d.row.runonCause == 2 && (d.fw.state == 2 || d.fw.state == 3))

/-- Rows of the run-on in force (R55), and the row after which it would pass 200 ms (R52). -/
def Dev.runonRows (d : Dev) : Nat := if bit (d.rg (pf 1 0x124)) 0 then d.rg (pf 1 0x124) / 256 else 0
def Dev.runonFull (d : Dev) : Bool := bit (d.rg (pf 1 0x124)) 0 && 200000 / max 1 d.period ≤ d.runonRows

/-- A plan miss: counted once for a row (R33, R49), but not for a row that begins a WARM (R52) or while an update withholds the plans. -/
def Dev.planMiss (d : Dev) : Dev :=
  if d.row.missedPlan || d.withheld then d
  else
    let counts := d.row.runonCause != 2 && !d.runonFull
    ({ d with row := { d.row with missedPlan := true, runonCause := if d.row.runonCause = 2 then 2 else 1 } }).bump (pf 1 0x068) (b2n counts)

/-- A control group with no core in service (R478). -/
def Dev.groupLost (d : Dev) : Bool := (List.range 4).any fun g => (List.range 4).all fun c => d.fault.cores.contains (4 * g + c)

/-- A control group with no core in service, or whose firmware restarts, cannot plan (R478). -/
def Dev.cannotPlan (d : Dev) : Bool := !d.fault.restarting.isEmpty || d.groupLost

/-- The plan of the next row committed, or discarded as late (R33); its slices continue the weight order (R189). -/
def Dev.planCommit (d : Dev) (late : Bool) (groups : List Nat) : Dev :=
  if !d.row.running || d.withheld || d.row.planned || d.cannotPlan then d
  else if late || d.row.missedPlan then (d.latePlans groups).planMiss
  else
    let d := (List.range 4).foldl (fun d g => d.bumpK (pf (2 + g) 0x040) 1) d
    { d.sliceAhead with row := { d.row with planned := true } }

/-- The plan deadline passes (R33, R49). -/
def Dev.planDeadline (d : Dev) (groups : List Nat) : Dev :=
  if !d.row.running || d.row.planned || d.withheld || d.row.missedPlan then d else (d.latePlans groups).planMiss

/-- Doorbell values reach control group 0 in an access window (R54, R100); in L2, where no row runs, the page access itself (log 41). -/
def Dev.window (d : Dev) : Dev :=
  if !d.row.running && !d.power.l2 then d
  else
    { d with qps := d.qps.map fun (p : Nat × Qp) => (p.1, p.2.window), row := { d.row with windows := d.row.windows + 1 } }

/-! The meanings -/

/-- ACCESS_WINDOW (R54, R100). -/
def execAccessWindow (s : State) : Host.Outcome State Fault Refusal := .next { s with dev := s.dev.window }

/-- PLAN_COMMIT (R33, R509). -/
def execPlanCommit (late : Bool) (lateGroups : List Nat) (s : State) : Host.Outcome State Fault Refusal :=
  .next { s with dev := s.dev.planCommit late lateGroups }

/-- PLAN_DEADLINE (R33, R49). -/
def execPlanDeadline (lateGroups : List Nat) (s : State) : Host.Outcome State Fault Refusal :=
  .next { s with dev := s.dev.planDeadline lateGroups }

/-- The timestamp of an edge, of a resolution of 10 ns (R42; it is rounded down: log 73). -/
def stamp10 (ns : Int) : Int := ns / 10 * 10

/-- ROWSYNC_EDGE (R42, R48): CASCADE mode ignores the ROWSYNC inputs. -/
def execRowsyncEdge (ns : Int) (s : State) : Host.Outcome State Fault Refusal :=
  .next { s with dev := if s.dev.syncMode = 1 then s.dev.edge (stamp10 ns) else s.dev }

/-- SYNC_LOSS (R44). -/
def execSyncLoss (s : State) : Host.Outcome State Fault Refusal := .next { s with dev := s.dev.syncLost }

/-- RELOCK (R45). -/
def execRelock (s : State) : Host.Outcome State Fault Refusal := .next { s with dev := s.dev.host Dev.relock }

end Sys2Proof.Machine
end

