-- ==== Sys2Proof/Machine/Faults.lean ====
section
/-! DEFINITION. Errors, quiescing, probes, stand-ins, takeovers and retirement (R277, R461 to R482, R17, R192 to R201, R205 to R207). -/

namespace Sys2Proof.Machine

/-- KIND of a location (R464): 1 ARRAY_COLUMN, 2 WORD_LINE, 3 HBM_ROW, 4 LPDDR_PAGE, 5 FLASH_BLOCK, 6 LANE, 7 FEEDER, 8 UNIT. -/
def locKind (loc : Nat) : Nat := bits loc 63 60
/-- The location of kind UNIT, with a control core's number (R464). -/
def unitLoc (core : Nat) : Nat := 8 * 2 ^ 60 + core % 16

/-- Block type of a PF page. -/
def typeOf (p : Nat) : Nat := match pageInfo p with | some (t, _) => t | none => 0
/-- Instance of a PF page. -/
def instOf (p : Nat) : Nat := match pageInfo p with | some (_, i) => i | none => 0
/-- The page is a compute unit's (R461), control cores aside. -/
def isCompute (p : Nat) : Bool := (unitType p).isSome

/-- The counter of the fault-log page that a class counts in (R481). -/
def classCounter (cls : Nat) : Option Nat :=
  match cls with
  | 1 => some 0x040
  | 2 => some 0x044
  | 3 => some 0x048
  | 4 => some 0x04C
  | 5 => some 0x04C
  | _ => none

/-- An error counted: class counters, the page's own, and the tenant that owns the unit (R197, R480, R481). -/
def Dev.countError (d : Dev) (p cls : Nat) : Dev :=
  let d := match classCounter cls with | some o => d.bump (pf 7 o) 1 | none => d
  let d := if cls = 1 then d.bump (pf p 0x02C) 1 else if cls = 2 then d.bump (pf p 0x030) 1 else d
  if capOwnable (typeOf p) then d.tenantFault (d.owner p) 0x078 1 else d

/-- A planned stitch whose unit takes no more goes to the next free unit with room, where its slot's cycles count, else it drops with FAULT (R33, R50, R280,
R468). -/
def Dev.movePlanned (d : Dev) (i : Nat) : Dev :=
  match d.row.slots[i]? with
  | none => d
  | some s =>
    let pool := match d.stitchOf s (s.members.headD 0) with | some (t, _, x) => d.stitchPool t x | none => 0
    let used (u : Nat) : Nat := sumNat ((d.row.slots.filter fun x => x.unit == u).map (·.len))
    match (d.placeable s.utype pool).find? fun u => u != s.unit && used u + s.len ≤ d.budget with
    | some u => (d.modSlot i fun s => { s with unit := u, start := 1024 + used u }).countSlot { s with unit := u }
    | none => d.modSlot i fun s => { s with faulted := true }

/-- A unit takes no further stitch (R467): those still planned on it in the row go elsewhere (R468). -/
def Dev.quiesce (d : Dev) (p : Nat) : Dev :=
  let d := d.modPage p fun x => { x with quiesced := true }
  (List.range d.row.slots.length).foldl (fun d i =>
    if d.row.slots[i]?.any fun s => s.unit == p && s.phase == 0 && !s.faulted then d.movePlanned i else d) d

/-- A location joins the probes to run, once (R466, R477). -/
def Dev.planProbe (d : Dev) (p loc core : Nat) : Dev :=
  if d.fault.probes.any (fun q => q.page == p && q.loc == loc) then d
  else { d with fault := { d.fault with probes := d.fault.probes ++ [⟨p, loc, d.row.number, false, none, core⟩] } }

/-- A Tuivy link left with the half without a lane: width 4, degraded (R432, R469). -/
def Dev.narrow (d : Dev) (p : Nat) : Dev :=
  let w := d.rg (pf p 0x104)
  if bits w 11 8 = 8 then (d.put (pf p 0x104) (setBits (setBits w 11 8 4) 1 0 3)).bump (pf p 0x050) 1 else d

/-- The firmware of a control group restarts on its other cores (R478). -/
def Dev.restartGroup (d : Dev) (g : Nat) : Dev :=
  if d.fault.restarting.contains g then d
  else
    ((({ d with fault := { d.fault with restarting := d.fault.restarting ++ [g] } }).bump (pf 7 0x078) 1).bump (pf (2 + g) 0x048) 1).logEvent
      (2 + g) 0x0B 0 0 0 0

/-- A location starts the sequence of R466: the unit, or the location alone where it is a word line of a unit's T0, is quiesced and a probe is
planned (R467, R469, R478). -/
def Dev.startProbe (d : Dev) (p loc core : Nat) : Dev :=
  if !capProbe (typeOf p) || (d.page p).fenced then d
  else
    let d := if isCompute p && locKind loc != 2 then d.quiesce p else d
    let d := if typeOf p = 0x16 && locKind loc = 6 then d.narrow p else d
    d.planProbe p loc core

/-- An error reported by a unit (R460 to R467, R477 to R480). A duplicate-comparison mismatch in the pattern sequencer, a LOGIC error of the
row-timer page, is recorded as FIRMWARE and starts a WARM reset (R479). -/
def Dev.report (d : Dev) (p cls detail loc core : Nat) : Dev :=
  if !pfPage p || cls = 0 || 8 < cls then d
  else
    let loc := if typeOf p = 0x03 then unitLoc core else loc
    let sequencer : Bool := p == 1 && cls == 3
    let cls := if sequencer then 8 else cls
    let detail := if sequencer then 1 else detail
    let d := if sequencer then d.warmSoon 3 else d
    let code := cls * 256 + detail % 256
    let d := ((d.countError p cls).error p (cls - 1) code loc).logEvent p (if cls = 6 then 0x09 else 0x01) 0 0 loc code
    let d := if cls = 6 then d.bump (pf 7 0x070) 1 else d
    let stops := isCompute p && ((1 ≤ cls && cls ≤ 3 && detail = 1) || cls = 5)
    let d := if stops then d.faultUnit p else d
    let d := if typeOf p = 0x03 && cls ≠ 6 && cls ≠ 7 then (d.restartGroup (instOf p)).planProbe p loc core else d
    if cls ≤ 5 && typeOf p ≠ 0x03 then d.startProbe p loc core else d

/-- A planned probe starts in the first planned row whose plan was built after the error (R469). -/
def Dev.probeStart (d : Dev) (p : Nat) : Dev :=
  let ready := d.row.running && !d.inRunon && !d.fault.probes.any fun q => q.page == p && (q.running || q.outcome.isSome)
  match d.fault.probes.findIdx? (fun q => q.page == p && q.row < d.row.number) with
  | none => d
  | some i =>
    if !ready then d
    else
      let probes := d.fault.probes.mapIdx fun j (q : Probe) => if j = i then { q with running := true } else q
      (({ d with fault := { d.fault with probes := probes } }).bump (pf 7 0x050) 1).modPage p fun x => { x with probing := true }

/-- Nanoseconds of the repeat window (R471). -/
def Dev.repeatWindow (d : Dev) : Nat := bits (d.inForce (pf 7 0x100)) 15 0 * 3600 * 10 ^ 9

/-- Passed probes of a location within the repeat window (R465, R471). -/
def Dev.passes (d : Dev) (p loc : Nat) : Nat :=
  (d.fault.history.filter fun h => h.1 == p && h.2.1 == loc && d.row.timeNs - h.2.2 ≤ d.repeatWindow).length

/-- The history with one more pass, the last 4,096 kept (R471). -/
def Dev.addPass (d : Dev) (p loc : Nat) : Dev :=
  let l := d.fault.history ++ [(p, loc, d.row.timeNs)]
  { d with fault := { d.fault with history := (l.reverse.take 4096).reverse } }

/-- ACTION of PG_PROBE_RESULT (R465) for an outcome at a location of a page. -/
def probeAction (p loc : Nat) (passed : Bool) : Nat :=
  if passed then 0 else if isCompute p || typeOf p = 0x03 then 2 else if locKind loc = 5 then 3 else 1

/-- A probe ends: its outcome is recorded and acts at the next boundary (R465, R470, R471). -/
def Dev.probeEnd (d : Dev) (p : Nat) (passed : Bool) : Dev :=
  match d.fault.probes.find? (fun q => q.page == p && q.running) with
  | none => d
  | some q =>
    let n := d.passes p q.loc
    let rep := passed && bits (d.inForce (pf 7 0x100)) 23 16 ≤ n + 1
    let ok := passed && !rep
    let d := if ok then d.addPass p q.loc else d
    let word := (if ok then 1 else 2) * 2 ^ 30 + probeAction p q.loc ok * 2 ^ 28 + locKind q.loc * 2 ^ 24 +
      min (d.passes p q.loc) 255 * 65536 + d.row.number % 65536
    let probes := d.fault.probes.map fun (x : Probe) => if x.page = p && x.running then { x with running := false, outcome := some ok } else x
    let d := ({ d with fault := { d.fault with probes := probes } }).modPage p fun x => { x with probing := false }
    let d := ((d.put (pf p 0x034) word).bump (pf 7 (if ok then 0x054 else 0x058)) 1).bump (pf 7 0x06C) (b2n rep)
    d.logEvent p (if ok then 0x02 else 0x03) 0 0 q.loc 0

/-- FL_CMD.PROBE (R472): a probe of kind UNIT of the selected page. -/
def Dev.flProbe (d : Dev) : Dev :=
  let p := bits (d.rg (pf 7 0x13C)) 11 0
  let x := d.page p
  if !pfPage p || !capProbe (typeOf p) || x.quiesced || x.probing || x.fenced || d.fault.probes.any (·.page == p) then d
  else if isCompute p then (d.quiesce p).planProbe p (unitLoc 0) 0 else d.planProbe p (unitLoc 0) 0

/-! Boundary effects -/

/-- Flags that report a state of sparing: no class, so no PG_ERR_FIRST code (R462, R473). -/
def Dev.spareFlag (d : Dev) (p b : Nat) : Dev := d.errFlag p b

/-- Ready spares of a unit type (R468): a spare page neither fenced nor itself quiesced. -/
def Dev.readySpares (d : Dev) (u : Nat) : List Nat :=
  (unitSlots u).filter fun p => let x := d.page p; x.spare && !x.fenced && !x.quiesced

/-- Ready spares that stand in for nobody. -/
def Dev.idleSpares (d : Dev) (u : Nat) : List Nat := (d.readySpares u).filter fun p => (d.page p).standFor.isNone

/-- The configuration-class values of a page copied to another, shadow and in force, and a pending publish's (R77, R80, R474, R477). -/
def copyKeys (m : NMap Word) (p q : Nat) : NMap Word :=
  let own := pageRegs m p
  let m := m.filter fun x => !(isConfig x.1 && keyPage x.1 == q)
  (own.filter fun x => isConfig x.1).foldl (fun m x => nset m (q * 4096 + x.1 % 4096) x.2) m

/-- Spare q takes over fenced page p in one step (R474). -/
def Dev.takeover (d : Dev) (u p q : Nat) : Dev :=
  let old := d.page p
  let pub := d.pub.map fun (x : Pub) => { x with regs := copyKeys x.regs p q }
  let d := { d with regs := copyKeys d.regs p q, act := copyKeys d.act p q, pub := pub }
  let d := ((d.put64 (pf q 0x014) (d.rg64 (pf p 0x014))).put (pf q 0x01C) (d.rg (pf p 0x01C)))
  let d := d.setPage q { d.page q with active := old.active, running := old.running, dirty := old.dirty, spare := false, standFor := none }
  let d := d.setPage p { old with active := 0xFFF, running := false, fenced := true, quiesced := false, dirty := false }
  let d := (((d.spareFlag p 9).spareFlag p 8).bump (pf 7 0x060) 1).logEvent p 0x05 0 0 0 0
  if (d.readySpares u).isEmpty then (d.spareFlag q 11).logEvent q 0x08 0 0 0 0 else d

/-- A lasting fault of a compute unit: the unit is fenced, and a spare takes its place if one is ready: its own stand-in, else the lowest
ready spare that stands in for nobody, else the lowest ready spare (R16, R473 to R475, R477; log 74). -/
def Dev.fenceUnit (d : Dev) (u p : Nat) : Dev :=
  let x := d.page p
  if x.spare then
    let d := (d.modPage p fun x => { x with fenced := true, quiesced := false, standFor := none })
    (d.spareFlag p 9).spareFlag p 8
  else
    let stand := (d.readySpares u).find? fun q => (d.page q).standFor == some p
    match (stand.or (d.idleSpares u).head?).or (d.readySpares u).head? with
    | some q => d.takeover u p q
    | none =>
      let d := d.modPage p fun x => { x with fenced := true, running := false, quiesced := false }
      ((((d.spareFlag p 9).spareFlag p 8).spareFlag p 10).bump (pf 7 0x064) 1).logEvent p 0x06 0 0 0 0

/-- Retired locations of a page (R476). -/
def Dev.retiredOn (d : Dev) (p : Nat) : Nat := (d.fault.retired.filter fun r => r.1 == p).length

/-- A location spared or retired (R473). -/
def Dev.retire (d : Dev) (p loc off : Nat) : Dev :=
  let d := { d with fault := { d.fault with retired := d.fault.retired ++ [(p, loc)] } }
  ((if off = 0 then d else d.bump (pf p off) 1).spareFlag p 8).logEvent p 0x07 0 0 loc 0

/-- The reserve of a page is spent, or a flash domain's is low: SPARE_LOW (R207, R473). -/
def Dev.spareLow (d : Dev) (p : Nat) (low : Bool) : Dev := if low then (d.spareFlag p 11).logEvent p 0x08 0 0 0 0 else d

/-- A fault beyond sparing: the unit stays in service (R479). -/
def Dev.beyond (d : Dev) (p : Nat) : Dev := (d.spareFlag p 8).spareFlag p 10

/-- A failed probe of a location (R473, R478, R479). -/
def Dev.lasting (d : Dev) (q : Probe) : Dev :=
  let p := q.page
  let n := d.retiredOn p
  match unitType p with
  | some u => d.fenceUnit u p
  | none =>
    let t := typeOf p
    let k := locKind q.loc
    if t = 0x03 then
      let g := instOf p
      let d := { d with fault := { d.fault with cores := (d.fault.cores ++ [4 * g + q.core % 4]).eraseDups } }
      let left := 4 - ((List.range 4).filter fun c => d.fault.cores.contains (4 * g + c)).length
      let d := (d.spareFlag p 9).spareFlag p 8
      if left = 1 then (d.spareFlag p 11).logEvent p 0x08 0 0 0 0 else if left = 0 then d.spareFlag p 10 else d
    else if t = 0x0C && k = 2 then
      let seg := bits q.loc 47 40
      let used := (d.fault.retired.filter fun r => r.1 == p && bits r.2 47 40 == seg).length
      if used < 8 then (d.retire p q.loc 0).spareLow p (used == 7) else d.spareFlag p 8
    else if t = 0x15 && k = 3 then
      if Config.spareUse p n < 1966 then (d.retire p q.loc 0x044).spareLow p (1966 ≤ Config.spareUse p (n + 1)) else d.spareFlag p 8
    else if t = 0x18 && k = 4 then
      if Config.spareUse p n < 8192 then (d.retire p q.loc 0x044).spareLow p (8192 ≤ Config.spareUse p (n + 1)) else d.spareFlag p 8
    else if t = 0x18 && k = 5 then
      ((d.retire p q.loc 0x04C).bump (pf 7 0x068) 1).spareLow p (Config.spareUse p (n + 1) < 50)
    else if t = 0x17 && k = 6 then (d.retire p q.loc (if n < 4 then 0x044 else 0)).spareLow p (n == 3)
    else if t = 0x16 then d.spareFlag p 8
    else d.beyond p

/-- A location returns to service (R470): a Tuivy link its full width, a unit that waits for no other probe its work. -/
def Dev.backInService (d : Dev) (q : Probe) : Dev :=
  let p := q.page
  let d := if typeOf p = 0x16 && locKind q.loc = 6 then
      let w := d.rg (pf p 0x104)
      if bits w 1 0 = 3 then d.put (pf p 0x104) (setBits (setBits w 11 8 8) 1 0 2) else d
    else d
  if d.fault.probes.any (fun x => x.page == p) then d
  else
    let d := d.modPage p fun x => { x with quiesced := false }
    match unitType p with
    | none => d
    | some u => (unitSlots u).foldl (fun d s => if (d.page s).standFor == some p then d.modPage s fun x => { x with standFor := none } else d) d

/-- Probe outcomes act at the boundary after the row in which they ended (R470). -/
def Dev.probeActs (d : Dev) : Dev :=
  let done := d.fault.probes.filter (·.outcome.isSome)
  let d := { d with fault := { d.fault with probes := d.fault.probes.filter fun (q : Probe) => q.outcome.isNone } }
  done.foldl (fun d q =>
    if q.outcome == some true then d.backInService q
    else
      let d := d.lasting q
      if isCompute q.page then { d with fault := { d.fault with probes := d.fault.probes.filter fun (x : Probe) => x.page != q.page } } else d) d

/-- Stand-ins of the row (R468, R477): those of quiesced spares end; quiesced units in active-index order take idle spares. -/
def Dev.standIns (d : Dev) : Dev :=
  (List.range 5).foldl (fun d u =>
    let d := (unitSlots u).foldl (fun d s =>
      let x := d.page s
      if x.standFor.isSome && x.quiesced then d.modPage s fun x => { x with standFor := none } else d) d
    let need := sortBy (fun a b => decide ((d.page a).active ≤ (d.page b).active)) ((unitSlots u).filter fun p =>
      let x := d.page p
      x.quiesced && x.running && !x.spare && !x.fenced && !((unitSlots u).any fun s => (d.page s).standFor == some p))
    need.foldl (fun d p =>
      match (d.idleSpares u).head? with
      | none => d
      | some s => ((d.modPage s fun x => { x with standFor := some p }).bump (pf 7 0x05C) 1).logEvent s 0x04 0 0 0 0) d) d

/-- The fault record that no reset clears brought up to date (R476). -/
def Perm.record (m : Perm) (d : Dev) : Perm :=
  { m with fenced := (m.fenced ++ (d.pages.filter fun p => p.2.fenced).map (·.1)).eraseDups
           retired := (m.retired ++ d.fault.retired).eraseDups
           cores := (m.cores ++ d.fault.cores).eraseDups }

/-! The log's selected record -/

/-- The eight dwords of a record (R482). -/
def LogRec.words (r : LogRec) : List Nat :=
  [r.row % 2 ^ 32, r.row / 2 ^ 32 % 2 ^ 32, r.type * 2 ^ 24 + r.inst * 4096 + r.event, r.strand * 65536 + r.tenant * 256,
   r.loc % 2 ^ 32, r.loc / 2 ^ 32 % 2 ^ 32, r.code, r.seq]

/-- FL_SEL: the record with that sequence number latched, zeros where there is none (R482). -/
def Dev.flSelect (d : Dev) (v : Nat) : Dev :=
  let r := d.fault.log.find? (·.seq == v)
  let ws := match r with | some r => r.words | none => []
  let d := (d.put (pf 7 0x10C) v)
  let d := (List.range 8).foldl (fun d i => d.put (pf 7 (0x110 + 4 * i)) (ws.getD i 0)) d
  match r with
  | some r => { d with fault := { d.fault with seen := (r.seq :: d.fault.seen).eraseDups } }
  | none => d

/-! The meanings -/

/-- ERROR_REPORT (R460 to R467, R478). -/
def execErrorReport (slot cls detail loc core : Nat) (s : State) : Host.Outcome State Fault Refusal :=
  .next { s with dev := s.dev.report slot cls detail loc core }

/-- PROBE_START (R469). -/
def execProbeStart (slot : Nat) (s : State) : Host.Outcome State Fault Refusal := .next { s with dev := s.dev.probeStart slot }

/-- PROBE_END (R470, R471). -/
def execProbeEnd (slot : Nat) (passed : Bool) (s : State) : Host.Outcome State Fault Refusal :=
  .next { s with dev := s.dev.probeEnd slot passed }

/-- FL_PROBE (R472). -/
def execFlProbe (s : State) : Host.Outcome State Fault Refusal := .next { s with dev := s.dev.host Dev.flProbe }

/-- FL_SEL_WRITE (R482). -/
def execFlSelWrite (value : Word) (s : State) : Host.Outcome State Fault Refusal := .next { s with dev := s.dev.host fun d => d.flSelect value.toNat }

/-- CG_RESTART_DONE (R478): the group plans again. -/
def execCgRestartDone (group : Nat) (s : State) : Host.Outcome State Fault Refusal :=
  .next { s with dev := { s.dev with fault := { s.dev.fault with restarting := s.dev.fault.restarting.filter (· != group) } } }

end Sys2Proof.Machine
end

