-- ==== Sys2Proof/Machine/Enter.lean ====
section
/-! DEFINITION. Writes that enter a shadow: loads, inserts, deletes, updates, index jobs and their results
(R148, R149, R151, R163 to R167, R183, R195, R210 to R216, R220, R229 to R234, R325 to R329, R566). -/

namespace Sys2Proof.Machine

/-! Index entries -/

/-- The entries of an input: COUNT of them, as many as the buffer holds (R213). -/
def inputEntries (count size : Nat) (inp : List Byte) : List (List Byte) :=
  (List.range (min count (inp.length / max 1 size))).map fun i => slice inp (i * size) size

/-- INDEX_INSERT applied to a content: the content and the entries applied (R163, R214). -/
def applyInsert (module count : Nat) (inp : List Byte) (c : Content) : Content × Nat :=
  let x := ixDesc c.bytes
  let r := insertAll c.bytes x module c.index (inputEntries count (ixEntrySize x) inp)
  ({ c with index := r.1 }, r.2)

/-- INDEX_DELETE applied to a content (R164, R215). -/
def applyDelete (count : Nat) (inp : List Byte) (c : Content) : Content × Nat :=
  let r := deleteAll c.index (inputEntries count 8 inp)
  ({ c with index := r.1 }, r.2)

/-! Jobs -/

/-- A graph over entries by passage number, its links those the construction gives (R220, log 9). -/
def linkGraph (x : IxDesc) (es : List IxEntry) : NMap GraphNode :=
  let pids := es.map (·.pid)
  let keyed := es.foldl (fun (m : NMap IxEntry) e => nset m (bits e.pid 43 0) e) []
  let bare : NMap GraphNode := keyed.map fun p => (p.1, ⟨p.2, Config.shardOf pids p.1 % max 1 x.shards, [], []⟩)
  let top := topLevel bare 8 1
  let links (n j : Nat) (among : List Nat) (k : Nat) := (((Config.neighbours pids n j).filter fun a => a != n && among.contains a).eraseDups).take k
  let all := bare.map (·.1)
  bare.map fun p => (p.1, { p.2 with
    nbrs := links p.1 0 all x.nbrs
    nav := (List.range' 1 top).filterMap fun j => if inLevel j p.1 then some (j, links p.1 j (levelNodes bare j) 32) else none })

/-- A merge's result in a shadow (R166, R233): the base's unhusked sprout records join the graph with the husk marks the shadow holds. -/
def mergeResult (base c : Content) : Content :=
  let n := base.index.sprout.length
  let pairs := List.zip base.index.sprout (c.index.sprout.take n)
  let folded := (pairs.filter fun p => !p.1.husked).map (·.2)
  let stay := (pairs.filter fun p => p.1.husked).map (·.2)
  let nums := folded.map fun e => bits e.pid 43 0
  let kept := (c.index.nodes.filter fun p => !nums.contains p.1).map fun p => p.2.entry
  { c with index := ⟨linkGraph (ixDesc c.bytes) (kept ++ folded), c.index.flat, stay ++ c.index.sprout.drop n⟩ }

/-- The structural fields of a build written into a descriptor (R230, R233). -/
def buildDesc (b : Bytes) (params : List Nat) : Bytes :=
  let d0 := setBits (setBits (b.le 0x40 4) 3 0 (params.getD 3 0)) 11 8 (params.getD 2 0)
  let d1 := setBits (setBits (b.le 0x44 4) 23 16 (params.getD 0 0)) 15 0 (params.getD 1 0)
  (b.writeN 0x40 (toLe 4 d0)).writeN 0x44 (toLe 4 d1)

/-- A build's result in a shadow (R229, R233): entries husked in the base or since are dropped; later sprout records stay. A build that changes the
metric to cosine stores the vectors as R214 has them stored (R209). -/
def buildResult (params : List Nat) (base c : Content) : Content :=
  let b := buildDesc c.bytes params
  let x := ixDesc b
  let n := base.index.sprout.length
  let old : IndexBody := { c.index with sprout := c.index.sprout.take n }
  let unit : Bool := x.metric == 1 && (ixDesc c.bytes).metric != 1 && x.cls != 2
  let code (e : IxEntry) : IxEntry := let v := if unit then storeNormal x (vecVals x e.vec) else e.vec; { e with vec := v, pq := pqEncode b x v }
  let es := (liveEntries old).map code
  let later := (c.index.sprout.drop n).map code
  ⟨b, if x.cls = 0 then ⟨linkGraph x es, [], later⟩ else ⟨[], es, later⟩⟩

/-- The queued or running job of an index. -/
def Dev.jobOf (d : Dev) (h : Nat) : Option Job := d.jobs.find? fun j => j.handle == h && j.state != 3

/-- The queued and running jobs of an index end without effect (R234). -/
def Dev.cancelJobs (d : Dev) (h : Nat) : Dev :=
  let n := (d.jobs.filter fun j => j.handle == h && j.state != 3).length
  ({ d with jobs := d.jobs.filter fun (j : Job) => !(j.handle == h && j.state != 3) }).bump (pf 4 0x234) n

/-- A job queued (R229). -/
def Dev.queueJob (d : Dev) (h : Nat) (build : Bool) (params : List Nat) : Dev :=
  { d with jobs := d.jobs ++ [⟨h, build, params, 1, 0, 0, 0⟩] }

/-- A queued job starts when fewer than 8 run and it is the first whose index has none running (R229). -/
def Dev.startJob (d : Dev) (h : Nat) : Dev :=
  let running (k : Nat) : Bool := d.jobs.any fun j => j.handle == k && j.state == 2
  let first := d.jobs.findIdx? fun j => j.state == 1 && !running j.handle
  match first, d.curEpoch h with
  | some i, some e =>
    if (d.jobs[i]?).any (fun j => j.handle == h) && (d.jobs.filter (·.state == 2)).length < 8 then
      { d with jobs := d.jobs.mapIdx fun k (j : Job) => if k = i then { j with state := 2, base := e.stamp } else j }
    else d
  | _, _ => d

/-- A running job finishes: its result enters the shadow, or is stale (R232, R233). A budget of 0 operations pauses every job. -/
def Dev.finishJob (d : Dev) (h : Nat) : Dev :=
  match d.jobs.find? (fun j => j.handle == h && j.state == 2) with
  | none => d
  | some j =>
    let o := d.obj h
    match o.epoch j.base with
    | none => d
    | some e =>
      if bits (d.inForce (pf 4 0x200)) 11 0 = 0 then d
      else
        let core := ((d.placeable 2 0).head?).getD 0
        let d := (d.bumpUnitK core 0x054 d.nextFree).passFree
        let stale : Bool := match o.foreign with | some r => decide (e.commitRow ≤ r) | none => false
        if stale then ({ d with jobs := d.jobs.filter fun (x : Job) => x != j }).bump (pf 4 0x230) 1
        else
          let c := if j.build then buildResult j.params e.content o.base else mergeResult e.content o.base
          let row := d.row.number
          (({ d with jobs := d.jobs.map fun (x : Job) => if x = j then { x with state := 3, progress := 100, row := row } else x }).setObj h
            { o.rewrites h row (o.enter c) [] with foreign := some row }).bump (pf 4 0x22C) 1

/-! Writing strands -/

/-- What a writing strand brings to its object: the object after, its status, COUNT, and whether it was stale (R148, R216, R329). -/
def Dev.bringWrites (d : Dev) (s : Strand) (o : Obj) : Obj × Nat × Bool × Nat × Nat :=
  let c := s.cmd
  let base := o.base
  let pin := d.content s c.object
  let enters (x : Content) : Obj := o.rewrites c.object d.row.number (o.enter x) []
  match c.opcode with
  | 0x15 =>
    if tblStruct base.bytes != tblStruct pin.bytes then (o, 0, true, 0, 0)
    else
      let key := match s.pins.find? (fun p => p.1 == c.object) with | some p => p.2 | none => 0
      let (b, applied, skipped, rows) := applyUpdate (tblDesc base.bytes) key (c.dw 9) (c.dw 10) (c.dw 8) c.inp base.bytes
      (enters { base with bytes := b }, applied, false, skipped, rows)
  | 0x20 =>
    if ixStruct base.bytes != ixStruct pin.bytes then (o, 0, true, 0, 0)
    else let (x, n) := applyInsert d.cas.index (c.dw 8) c.inp base; (enters x, n, false, 0, 0)
  | 0x21 =>
    if ixStruct base.bytes != ixStruct pin.bytes then (o, 0, true, 0, 0)
    else let (x, n) := applyDelete (c.dw 8) c.inp base; (enters x, n, false, 0, 0)
  | _ =>
    let off := c.dw 8 + 2 ^ 32 * c.dw 9
    let (x, n) := loadBytes (handleKind c.object) base off c.inp
    let covered := o.damaged.filter fun g => off < 4096 * (g + 1) && 4096 * g < off + n
    ({ o.rewrites c.object d.row.number (o.enter x) covered with foreign := some d.row.number }, n, false, 0, 0)

/-- A writing strand whose last stitch has committed: its writes enter together, or none of them (R148, R183, R230). -/
def Dev.enterWrites (d : Dev) (id : Nat) : Dev :=
  match nget d.strands id with
  | none => d
  | some s =>
    let h := s.cmd.object
    if s.state ≠ 2 || s.final.isSome || !s.steps.isEmpty || s.part.isSome || !s.cmd.writes then d
    else if s.cmd.opcode = 0x22 then
      ((d.cancelJobs h).queueJob h true [s.cmd.dw 8, bits (s.cmd.dw 9) 15 0, bits (s.cmd.dw 10) 11 8, bits (s.cmd.dw 10) 3 0]).endNormal
        id 0 0 0 0 0
    else
      let (o, n, stale, skipped, rows) := d.bringWrites s (d.obj h)
      if stale then (d.bump (pf 0xF 0x060) (b2n (s.cmd.opcode == 0x15))).endNormal id 0 0 0 0 0
      else match d.overQuota h o with
        | t :: ts => ((t :: ts).foldl (fun d t => d.bump (pf (tierPage t) 0x054) 1) d).endNormal id 0x10 0x0421 0 0 0
        | [] =>
          let d := if s.cmd.opcode = 0x15 then ((d.bump (pf 0xF 0x054) n).bump (pf 0xF 0x058) skipped).bump (pf 0xF 0x05C) rows else d
          (d.setObj h o).endNormal id 0 0 0 n 0

/-- Every strand whose writes are due enters them, in ascending strand ID (R149). -/
def Dev.enterAll (d : Dev) : Dev := (d.strands.map (·.1)).foldl (fun d id => d.enterWrites id) d

/-! The meanings -/

/-- JOB_START (R229). -/
def execJobStart (handle : Nat) (s : State) : Host.Outcome State Fault Refusal := .next { s with dev := s.dev.startJob handle }

/-- JOB_RESULT (R233). -/
def execJobResult (handle : Nat) (s : State) : Host.Outcome State Fault Refusal := .next { s with dev := s.dev.finishJob handle }

/-- IX_CMD.MERGE on the selected index (R229, R237). -/
def Dev.mergeSelected (d : Dev) : Dev :=
  let h := d.rg (pf 4 0x208)
  let c := d.curContent h
  if handleKind h == 1 && (d.curEpoch h).isSome && (ixDesc c.bytes).cls == 0 && !c.index.sprout.isEmpty && (d.jobOf h).isNone then
    d.queueJob h false []
  else d

/-- IX_CMD.CANCEL on the selected index (R234). -/
def Dev.cancelSelected (d : Dev) : Dev := d.cancelJobs (d.rg (pf 4 0x208))

/-- IX_MERGE (R229). -/
def execIxMerge (s : State) : Host.Outcome State Fault Refusal := .next { s with dev := s.dev.host Dev.mergeSelected }

/-- IX_CANCEL (R234). -/
def execIxCancel (s : State) : Host.Outcome State Fault Refusal := .next { s with dev := s.dev.host Dev.cancelSelected }

end Sys2Proof.Machine
end

