-- ==== Sys2Proof/Machine/Resets.lean ====
section
/-! DEFINITION. Released epochs and the resets: what each reset clears, ends and keeps (R11 to R13, R62, R73, R87, R154, R155, R168,
R339, R421, R439, R470, R477, R484 to R489, R502, R527). -/

namespace Sys2Proof.Machine

/-! Released epochs -/

/-- Pattern markers of a released epoch: kept while another live epoch of the model has the same pattern, else freed (R413). -/
def Dev.releaseMarkers (d : Dev) (page stamp : Nat) (e : Epoch) (rest : List Epoch) : Dev :=
  let heir := rest.find? fun x => patSection x.content == patSection e.content
  let f (m : Marker) : Marker :=
    if m.holder = .pattern page stamp then (match heir with | some x => { m with holder := .pattern page x.stamp } | none => Marker.free) else m
  { d with markers := (d.markers.map fun p => (p.1, f p.2)).filter fun p => p.2 != Marker.free }

/-- One epoch released (R155, R158, R413). -/
def Dev.releaseEpoch (d : Dev) (h : Nat) (e : Epoch) : Dev :=
  let o := d.obj h
  let rest := o.epochs.filter (·.stamp != e.stamp)
  let d := (d.setObj h { o with epochs := rest }).bump (pf 2 0x22C) 1
  let d := { d with lanes := d.lanes.filter fun l => !(l.handle == h && l.stamp == e.stamp) }
  match d.modelPage h with
  | some page => d.releaseMarkers page e.stamp e rest
  | none => d

/-- The configuration of a freed descriptor page in one map: no handle and no enable. -/
def unbindIn (p : Nat) (m : NMap Word) : NMap Word :=
  let en := match nget m (pf p 0x008) with | some v => v.toNat | none => 0
  let m := nerase m (pf p 0x100)
  if en / 2 * 2 = 0 then nerase m (pf p 0x008) else nset m (pf p 0x008) (wd (en / 2 * 2))

/-- The descriptor page of a model that is no longer resident is freed: its counters clear (R339, R354). -/
def Dev.freeModelPage (d : Dev) (h : Nat) : Dev :=
  match d.modelPage h with
  | none => d
  | some p =>
    let pub := d.pub.map fun (x : Pub) => { x with regs := unbindIn p x.regs }
    let counters := (List.range 6).map fun i => pf p (0x040 + 4 * i)
    let d := { d with
      regs := (unbindIn p d.regs).filter fun x => !counters.contains x.1
      act := unbindIn p d.act, pub := pub, part := d.part.filter fun x => !counters.contains x.1 }
    (d.modPage p fun x => { x with running := false, dirty := false }).bump (pf 0x14 0x044) 1

/-- Superseded epochs of an object that nothing pins or holds any more are released; an object with nothing left goes (R145, R155, R158). -/
def Dev.releaseObject (d : Dev) (h : Nat) : Dev :=
  let o := d.obj h
  let dead := o.epochs.filter fun e => o.cur != some e && (d.pinned h e.stamp).isEmpty && !d.jobHolds h e.stamp
  let d := dead.foldl (fun d e => d.releaseEpoch h e) d
  let o := d.obj h
  if !o.epochs.isEmpty then d
  else
    let d := if handleKind h = 4 then d.freeModelPage h else d
    if o.shadow.isSome || o.inPublish then d
    else { d with objs := nerase d.objs h, tiers := { d.tiers with lost := d.tiers.lost.filter fun x => x.2.2.1 != h } }

/-- Every epoch that nothing holds live is released (R155). -/
def Dev.releaseDead (d : Dev) : Dev := (d.objs.map (·.1)).foldl (fun d h => d.releaseObject h) d

/-! Registers -/

/-- The resets that reach registers (R484). -/
inductive Reset where
  | block | tenant | warm | cold | por
  deriving DecidableEq, Repr

/-- A survival class keeps its value through a reset (R12, R486). -/
def Surv.kept (s : Surv) (r : Reset) : Bool :=
  match s with
  | .n => false
  | .b => r == .block
  | .w => r == .block || r == .tenant || r == .warm
  | .c => r != .por
  | .k => r != .por
  | .f => true

/-- The survival class of a register: PG_CTRL is of class N on VF pages (R91). -/
def survOf (k : Nat) : Surv :=
  if 1 ≤ keyFn k && keyFn k ≤ 16 && k % 4096 == 8 then .n
  else match regDesc k with | some r => r.surv | none => .f

/-- A word of an MSI-X table or pending-bit array: BLOCK and WARM never touch it (R486). -/
def isMsix (k : Nat) : Bool := match pageInfo (keyPage k) with | some (t, _) => t == 0xF2 || t == 0xF3 | none => false

/-- A register keeps its value through a reset that reaches it. -/
def keepsReg (r : Reset) (k : Nat) : Bool := if isMsix k then r == .block || r == .warm else (survOf k).kept r

/-- The registers a reset reaches cleared under their classes, with the marks of their pairs (R9, R11, R486). -/
def Dev.clearRegs (d : Dev) (r : Reset) (reach : Nat → Bool) : Dev :=
  { d with
    regs := d.regs.filter fun p => !reach p.1 || keepsReg r p.1
    part := d.part.filter fun p => !reach p.1 || keepsReg r p.1
    hold := d.hold.filter fun p => !reach p.1 }

/-! What every wide reset ends -/

/-- Every strand ends without a completion, and its reservations are released at once (R194, R484, R487). -/
def Dev.endAll (d : Dev) : Dev :=
  let d := (d.strands.map (·.1)).foldl (fun d id => d.endSilent id) d
  { d with strands := [], lanes := [], snapStrands := [], tiers := { d.tiers with lost := d.tiers.lost.filter fun x => x.2.2.1 != 0 } }

/-- Markers of strands are freed and those of patterns return to their starting state (R421). -/
def Dev.resetMarkers (d : Dev) : Dev :=
  { d with markers := d.markers.filterMap fun p => match p.2.holder with
      | .pattern a b => some (p.1, ⟨0, 0, 0, .pattern a b⟩)
      | _ => none }

/-- Index jobs are cancelled (R234). -/
def Dev.endJobs (d : Dev) : Dev :=
  ({ d with jobs := [], snapJobs := [] }).bump (pf 4 0x234) (d.jobs.filter fun (j : Job) => j.state != 3).length

/-- Shadows of objects are discarded (R168). -/
def Dev.dropShadows (d : Dev) : Dev :=
  { d with objs := d.objs.map fun p => (p.1, { p.2 with
      shadow := none, settled := none, prior := none, stagedOld := false, stagedMid := false, stagedNew := false, inPublish := false, foreign := none, repaired := [],
      copied := none, damaged := p.2.cur.elim [] (·.damaged) }) }

/-- A command that a reset leaves without a completion is no longer fetched (R484, R527). -/
def Dev.forget (d : Dev) (q : QRef) : Dev := d.modQp q fun x => { x with outstanding := x.outstanding - 1 }

/-- A committed publish that a reset strikes never takes effect (R168). -/
def Dev.dropPub (d : Dev) : Dev :=
  match d.pub with
  | none => d
  | some p =>
    let d := { d with pub := none, cas := { d.cas with exchange := none, goSent := false, goGot := false, ready := false } }
    match p.src with | .command _ _ => d.forget ⟨0, 0⟩ | _ => d

/-- A running probe is abandoned: OUTCOME 3 (R465, R477). -/
def Dev.abandonProbes (d : Dev) : Dev :=
  (d.fault.probes.filter (·.running)).foldl (fun d q =>
    d.put (pf q.page 0x034) (3 * 2 ^ 30 + locKind q.loc * 2 ^ 24 + min (d.passes q.page q.loc) 255 * 65536 + d.row.number % 65536)) d

/-- An update that a reset meets: STAGING is discarded, and a rewrite ends with the old set in force (R527). -/
def Dev.dropUpdate (d : Dev) (rollback : Bool) : Dev :=
  if d.fw.activating then d
  else
    let back := rollback && (d.fw.state == 2 || d.fw.state == 3)
    let d := if d.fw.cmd.isSome then d.forget ⟨0, 0⟩ else d
    let d := ({ d with fw := Fw.reset }).bump (pf 0xB 0x04C) (b2n back)
    if back then d.vector 0 3 else d

/-- Enable checks that run are abandoned. -/
def Dev.dropChecks (d : Dev) (reach : Nat → Bool) : Dev :=
  (d.checks.filter fun c => reach c.page).foldl (fun d c => d.dropCheck c.page) d

/-! The rechecks of firmware (R73) -/

/-- The pages kept enabled that fail their enable check, with their codes; no lock refuses a recheck (R73, R556). -/
def Dev.failing (d : Dev) : List (Nat × Nat) :=
  let n := d.afterPeriod d.shadows
  let local_ := d.put (pf 9 0x104) 0
  (pagesOn d.shadows).filterMap fun p => (local_.pageCheck n d.objs true p).map fun c => (p, c)

/-- Enable checks rerun until the pages left pass together: a page that fails is left with EN at 0 and REFUSED set (R73). -/
def Dev.recheck (d : Dev) : Nat → Dev
  | 0 => d
  | fuel + 1 =>
    let bad := d.failing
    if bad.isEmpty then (pagesOn d.shadows).foldl (fun d p => d.pass p) d
    else Dev.recheck (bad.foldl (fun d x => (d.refuse x.1 x.2).putBits (pf x.1 0x008) 0 0 0) d) fuel

/-- Firmware brings the pages that pass into force in one publish (R73, R488). -/
def Dev.restartPublish (d : Dev) : Dev := (d.recheck 400).snapshot .firmware (d.row.number + 2)

/-- SHADOW_DIRTY of every page, from its shadow and the values in force (R65). -/
def Dev.dirtyPages (d : Dev) : Dev :=
  (changedPages d.shadows d.act).foldl (fun d p => d.modPage p fun x => { x with dirty := true }) d

/-! WARM -/

/-- A page through a WARM: its live readouts clear, the row runs on, stand-ins end (R477, R486, R487). -/
def warmPage (quiet : Bool) (p : Nat) (x : Page) : Page :=
  { x with running := x.running && p == 1, refused := false, dirty := false, checking := false, probing := false, quiesced := quiet,
           standFor := none, softReset := false }

/-- A WARM reset begins at the present boundary (R487). -/
def Dev.warm (d : Dev) (cause : Nat) : Dev :=
  let d := ((d.endAll.resetMarkers.endJobs.dropPub.dropUpdate true).abandonProbes.dropChecks fun _ => true).dropShadows.releaseDead
  let row := d.row.number
  let probes := d.fault.probes.map fun (q : Probe) => { q with row := row, running := false, outcome := none }
  let d := d.owed.foldl (fun d x => d.forget x.1.q) (d.clearRegs .warm fun _ => true)
  let d := { d with
    pages := (d.pages.filter fun (p : Nat × Page) => p.1 < 4096).map fun (p : Nat × Page) => (p.1, warmPage (isCompute p.1 && probes.any (·.page == p.1)) p.1 p.2)
    qps := d.qps.filter fun p => p.1 < 64
    aborts := d.aborts.filter fun x => x.1.q.tenant == 0
    unpicks := [], forces := [], owed := [], decided := 0, served := [], snapObjs := d.objs, snapLanes := [], cleared := [], blank := true
    tiers := { d.tiers with recoveries := [], bed := [] }
    fault := { d.fault with probes := probes, restarting := [] }
    row := { d.row with slots := [], planned := true, missedPlan := false, runonCause := 0 }
    power := { d.power with warm := true, warmCause := 0, lost := [] } }
  ((d.bump (pf 8 0x05C) 1).put (pf 8 0x124) (3 * 2 ^ 28 + cause)).restartPublish.dirtyPages

/-- A WARM requested (R485): it begins at the next boundary, or at once in L2, where no row runs. -/
def Dev.requestWarm (d : Dev) (cause : Nat) : Dev :=
  if d.power.l2 && !d.power.warm && !d.inStart && !d.power.sag then d.warm cause else d.warmSoon cause

/-! COLD and POR -/

/-- The straps sampled (R539). -/
def Dev.sampleStraps (d : Dev) : Dev := { d with mgmt := { d.mgmt with slotId := d.mgmt.pinSlot, masterLow := d.mgmt.pinMaster } }

/-- A COLD reset (R484, R486): the row stops and everything in flight ends; the start of R488 waits. -/
def Dev.cold (d : Dev) (cause : Nat) : Dev :=
  if d.power.sag || d.power.stage != 2 then d
  else
    let d := ((d.endAll.resetMarkers.endJobs.dropPub.dropUpdate false).abandonProbes).dropShadows.releaseDead
    let locked := d.rg (pf 9 0x104) != 0
    let d := (d.clearRegs .cold fun _ => true).measured (b2n locked)
    let d := { Dev.reset with
      regs := d.regs, part := d.part, objs := d.objs, snapObjs := d.objs, markers := d.markers, firsts := d.firsts, free := d.free, sent := d.sent
      tiers := { Tiers.reset with lost := d.tiers.lost }
      fault := { d.fault with probes := [], restarting := [] }
      row := { Row.reset with timeNs := d.row.timeNs }
      mgmt := { d.mgmt with session := false, handshake := false, negotiated := false }
      power := { d.power with starting := true, por := false, warm := false, warmCause := 0, standby := false, l2 := false, rebuilt := false,
                              lost := [], perst := d.power.perst || cause == 1 } }
    let d := (d.bump (pf 8 0x060) 1).put (pf 8 0x124) (2 * 2 ^ 28 + cause)
    if cause = 1 then d else d.sampleStraps

/-- Active indices given at a start (R62, R476, R488): the units of a type that are not in the fault record and pass self-test take
0 to a − 1 in ascending instance order, and the rest are spares. -/
def startType (fenced failed : List Nat) (u : Nat) (d : Dev) : Dev :=
  let active := match sparing (typeOf ((unitSlots u).headD 0)) with | some (_, a) => a | none => 0
  let good := (unitSlots u).filter fun p => !fenced.contains p && !failed.contains p
  (unitSlots u).foldl (fun d p =>
    let x := pageReset p
    let y : Page :=
      if fenced.contains p then { x with active := 0xFFF, spare := false, fenced := true }
      else match good.findIdx? (· == p) with
        | none => { x with active := 0xFFF, spare := true, quiesced := true }
        | some i => if i < active then { x with active := i, spare := false } else { x with active := 0xFFF, spare := true }
    d.setPage p y) d

/-- The pages at a start. -/
def Dev.startPages (d : Dev) (fenced failed : List Nat) : Dev := (List.range 5).foldl (fun d u => startType fenced failed u d) { d with pages := [] }

/-- Interface version and features of the firmware in CURRENT, on every VF (R92, R529). -/
def Dev.showInterface (d : Dev) (header : List Byte) : Dev :=
  if header.isEmpty then d
  else (List.range' 1 16).foldl (fun d fn =>
    (d.put (regKey fn 0x100) (2 * 65536 + leAt header 0x18 2)).put (regKey fn 0x104) (Config.firmwareFeatures header)) d

/-- The image set with a role in the seed store: 0 CURRENT, 1 PREVIOUS, 2 STAGING (R511). -/
def Perm.set (m : Perm) (role : Nat) : Option FwSet := (m.seeds[m.roles.getD role 0]?).join

/-- A descriptor page whose model the restored directory does not hold is free (R339). -/
def Dev.freeOrphan (d : Dev) (i : Nat) : Dev :=
  let h := d.rg (pf (0x50 + i) 0x100)
  if h = 0 || (nget d.objs h).isSome then d
  else
    let counters := (List.range 6).map fun j => pf (0x50 + i) (0x040 + 4 * j)
    ({ d with regs := (unbindIn (0x50 + i) d.regs).filter fun x => !counters.contains x.1 }).bump (pf 0x14 0x044) 1

/-- The markers of restored patterns, in ascending handle order (R413). -/
def Dev.restoreMarkers (d : Dev) : Dev :=
  d.objs.foldl (fun d p => match p.2.epochs.head?, boundIn d.regs p.1 with
    | some e, some i => if handleKind p.1 = 4 then d.takeMarkers (d.topMarkers (pattern e.content.bytes).markers) (.pattern (0x50 + i) e.stamp) else d
    | _, _ => d) d

/-- The newest save that verifies and is not consumed (R502). -/
def Perm.newest (m : Perm) : Option Save :=
  m.saves.foldl (fun acc s => if s.valid && !s.consumed && (acc.elim true fun (a : Save) => decide (a.number < s.number)) then some s else acc) none

/-- A POR restores from the newest valid save, or starts as new (R13, R489, R502). -/
def Dev.restore (d : Dev) (m : Perm) : Dev :=
  let bad := (m.saves.filter fun s => !s.valid && !s.consumed).length
  let blank := { Dev.reset with
    free := d.free, sent := d.sent, mgmt := { d.mgmt with session := false, handshake := false, negotiated := false }, power := { d.power with bankAt := 0 }
    fault := { Faults.reset with cores := m.cores, retired := m.retired } }
  match m.newest with
  | some v =>
    let objs : NMap Obj := v.directory.map fun (p : Nat × Epoch) =>
      let hurt := (nget v.damaged p.1).getD []
      (p.1, { Obj.blank with epochs := [{ p.2 with damaged := hurt }], current := true, damaged := hurt })
    let d := { blank with
      regs := v.regs.filter fun p => survOf p.1 == Surv.k && !isMsix p.1
      objs := objs, snapObjs := objs, fault := { blank.fault with log := v.log }, tiers := { Tiers.reset with lost := v.lost }
      power := { blank.power with lost := v.strands, restored := true } }
    let d := ((List.range 64).foldl (fun (d : Dev) i => d.freeOrphan i) d).restoreMarkers
    let d := (((d.bump (pf 8 0x040) 1).bump (pf 8 0x050) 1).bump (pf 8 0x054) bad).bump (pf 8 0x058) 1
    let d := d.put (pf 8 0x128) (2 ^ 30 + v.tenUs % 2 ^ 14 * 65536 + v.mJ % 65536)
    (d.put64 (pf 8 0x12C) v.rowNumber).put (pf 8 0x124) (2 ^ 28 + (if d.power.returned then 3 else 2))
  | none =>
    let d := (blank.bump (pf 8 0x054) bad).put (pf 8 0x128) (if bad = 0 then 0 else 2 * 2 ^ 30)
    d.put (pf 8 0x124) (2 ^ 28 + (if d.power.returned then 3 else 1))

/-- A pulse on ROWOUT (R47). -/
def Dev.pulse (d : Dev) : Dev := if bit (d.inForce (pf 1 0x10C)) 16 then d.emit (.rowout d.row.number) else d

/-- The row starts at row 0 with the publish that carries the row-timer page alone (R71). -/
def Dev.rowStart (d : Dev) : Dev :=
  let own := d.shadows.filter fun x => keyPage x.1 == 1
  let regs := own.foldl (fun m x => nset m x.1 x.2) d.act
  let p : Pub := ⟨.firmware, 0, regs, [], true, false, 0⟩
  let d := { d with row := { Row.reset with running := true, timeNs := d.row.timeNs }, cleared := [], blank := false }
  ((d.applyPub p).put64 (pf 1 0x128) 0).pulse

/-- The configuration a module starts with: MODE FREE in place of CASCADE, and no cascade page (R439). -/
def Dev.leaveCascade (d : Dev) : Dev :=
  let d := if bits (d.rg (pf 1 0x10C)) 1 0 = 2 then d.putBits (pf 1 0x10C) 1 0 0 else d
  d.putBits (pf 0xD 0x008) 0 0 0

/-- The start after COLD or POR (R488): self-test, restore, the row, and the publish of firmware. -/
def Dev.start (d : Dev) (m : Perm) (failed : List Nat) : Dev :=
  if !d.power.starting || d.power.perst || d.power.stage != 2 || !d.power.pwrgd then d
  else
    let d := if d.power.por then d.restore m else d
    let d := d.showInterface (match m.set 0 with | some f => f.header | none => [])
    let d := (d.startPages m.fenced failed).leaveCascade
    let d := d.putBits (pf 0xA 0x118) 7 4 (min 10 (bits (d.rg (pf 0xA 0x118)) 3 0))
    let d := { d with power := { d.power with starting := false, por := false, returned := false, l3 := false } }
    let d := d.putBits (pf 1 0x008) 0 0 1
    match d.pageCheck (d.afterPeriod d.shadows) d.objs true 1 with
    | some code => (d.putBits (pf 1 0x008) 0 0 0).refuse 1 code
    | none => (d.pass 1).rowStart.restartPublish.dirtyPages

/-- A WARM or COLD that runs absorbs a TENANT, BLOCK or STRAND reset (R485). -/
def Dev.absorbs (d : Dev) : Bool := d.power.warm || d.power.starting

/-! TENANT -/

/-- A TENANT reset (R11, R87, R485): the tenant's strands end, and the pages of its virtual function start afresh. -/
def Dev.tenantReset (d : Dev) (t : Nat) : Dev :=
  if t = 0 || 16 < t || d.absorbs then d
  else
    let ids := (d.strands.filter fun p => p.2.cmd.q.tenant == t && p.2.part.isNone).map (·.1)
    let d := ids.foldl (fun d id => d.endSilent id) d
    let d := (d.dropChecks fun p => p / 4096 == t).clearRegs .tenant fun k => keyFn k == t
    { d with
      pages := d.pages.filter fun p => p.1 / 4096 != t
      qps := d.qps.filter fun p => p.1 / 64 != t
      aborts := d.aborts.filter fun x => x.1.q.tenant != t
      unpicks := d.unpicks.filter fun x => x.1.q.tenant != t
      power := { d.power with lost := d.power.lost.filter fun x => x.q.tenant != t } }

end Sys2Proof.Machine
end

