-- ==== Sys2Proof/Machine/Boundary.lean ====
section
/-! DEFINITION. The row boundary: what ends with a row, what its head does, and what begins with the next (R29, R33, R41, R43, R49 to R52,
R54, R75, R107, R113 to R117, R120, R131, R137, R150, R155, R345, R423, R424, R440, R470, R487, R491, R503, R522, R523, R565). -/

namespace Sys2Proof.Machine

/-! The firmware set that starts at a boundary (R516, R522, R523, R526, R529) -/

/-- Offset of manifest entry i (R512). -/
def fwEntry (i : Nat) : Nat := 0x40 + 128 * i
/-- The index of a part's manifest entry. -/
def fwIndex (h : List Byte) (part : Nat) : Option Nat := (List.range 7).find? fun i => leAt h (fwEntry i) 1 == part
/-- VERSION of a part in a header; 0 when there is none (R513). -/
def fwVersion (h : List Byte) (part : Nat) : Nat := match fwIndex h part with | some i => leAt h (fwEntry i + 4) 4 | none => 0
/-- DIGEST of a part in a header (R513). -/
def fwDigest (h : List Byte) (part : Nat) : List Byte := match fwIndex h part with | some i => slice h (fwEntry i + 0x20) 48 | none => []
/-- Bytes received, counted once per position (R516). -/
def Fw.received (f : Fw) : Nat := sumNat (f.got.map fun r => r.2 - r.1)
/-- FW_STATE (R530). -/
def Fw.word (f : Fw) : Nat := f.path * 2 ^ 30 + f.state
/-- The status block (R516). -/
def Fw.status (f : Fw) (part reason : Nat) : List Byte :=
  toLe 4 f.word ++ toLe 4 (part * 65536 + reason) ++ toLe 8 f.received ++ toLe 8 (leAt f.header 0x10 8) ++
    ((List.range' 1 7).map fun p => toLe 4 (fwVersion f.header p)).flatten ++ List.replicate 12 0

/-- A refused phase counted, with its reason and part (R530). -/
def Dev.fwRefused (d : Dev) (part reason : Nat) : Dev :=
  if reason = 0 then d else (d.bump (pf 0xB 0x044) 1).put (pf 0xB 0x104) (part * 65536 + reason)

/-- A COMMIT or REVERT completes with its status block (R109, R515, R516). -/
def Dev.fwDone (d : Dev) (c : Cmd) (part reason extra : Nat) : Dev :=
  ((d.writeOut c [(0, (d.fw.status part reason).take c.outLen)]).fwRefused part reason).finishNoStrand c (if reason = 0 then 0 else 0x10) reason 0 extra

/-- A phase that completes in the next row (R515, R516). -/
def Dev.fwOwe (d : Dev) (c : Cmd) (part reason : Nat) : Dev :=
  let d := d.fwRefused part reason
  { d with owed := d.owed ++ [(c, reason, (d.fw.status part reason).take c.outLen)] }

/-- The phases of the row before complete (R515). -/
def Dev.postOwed (d : Dev) : Dev :=
  d.owed.foldl (fun d x => (d.writeOut x.1 [(0, x.2.2)]).finishNoStrand x.1 (if x.2.1 = 0 then 0 else 0x10) x.2.1 0 0) { d with owed := [] }

/-- Every control group restarts its firmware, and so do the local control cores of the Zorber dies (R207, R522). -/
def Dev.restartGroups (d : Dev) : Dev :=
  let d := (d.bump (pf 0x0B7 0x044) 1).bump (pf 0x0BF 0x044) 1
  (List.range 4).foldl (fun d g => d.bump (pf (2 + g) 0x048) 1) { d with fault := { d.fault with restarting := [0, 1, 2, 3] } }

/-- The new set, or the restored one, starts at the present boundary. -/
def Dev.activate (m : Perm) (d : Dev) : Perm × Dev :=
  if !d.fw.activating then (m, d)
  else
    let f := d.fw
    let idle := { Fw.reset with header := f.header, got := f.got }
    let d := (({ d with fw := idle }).restartGroups).vector 0 3
    if f.restoring then
      let d := d.bump (pf 0xB 0x04C) 1
      let d := match f.cmd with | some c => d.fwDone c f.failed 0x0803 0 | none => d
      (m, { d with fw := Fw.reset })
    else
      let header := match m.set 0 with | some s => s.header | none => []
      let floor := if bit (leAt header 0x08 4) 24 then max m.floor (leAt header 0x0C 4) else m.floor
      let d := ((d.bump (pf 0xB 0x048) 1).bump (pf 0xB 0x050) (b2n f.revert)).put64 (pf 0xB 0x148) d.row.number
      let d := d.showInterface header
      let d := match f.cmd with | some c => d.fwDone c 0 0 (d.row.number % 2 ^ 32) | none => d
      let old := match m.set 1 with | some s => s.header | none => []
      let digests := (List.range' 1 7).filter fun p => fwDigest old p != fwDigest header p
      let d := d.measured (digests.length + b2n (floor != m.floor || leAt old 0x0C 4 != leAt header 0x0C 4))
      ({ m with floor := floor }, { d with fw := Fw.reset })

/-! The end of a row -/

/-- Every slot that has not committed ends with its row (R34). -/
def Dev.endSlots (d : Dev) : Dev := (List.range d.row.slots.length).foldl (fun d i => d.endSlot i) d

/-- Admission decides no command with a class (R41, R50, R120, R478, R492). -/
def Dev.admHeld (d : Dev) : Bool := d.groupLost || d.inRunon || d.shorterWaits || !d.on 6 || (d.power.standby && d.power.standbyRow < d.row.number) || d.power.l2

/-- Undecided commands of every queue. -/
def Dev.undecided (d : Dev) : List Cmd := (d.qps.map fun p => p.2.waiting).flatten

/-- The master decides no spanning command (R438). -/
def Dev.spanHeld (d : Dev) : Bool := d.servingMaster && (d.cas.members.any fun m => m.index != 0 && !m.locked)

/-- Commands that control group 3 gave the local control cores of the Zorber dies in the row: a free number (R207; log 4). -/
def Dev.countLocal (d : Dev) : Dev :=
  { d with regs := ((d.bump (pf 0x0B7 0x040) d.nextFree).bump (pf 0x0BF 0x040) d.passFree.nextFree).regs, free := d.free + 2 }

/-- Counters of the row that ends (R117, R120, R207, R438, R444). -/
def Dev.countRow (d : Dev) : Dev :=
  let d := d.bump (pf 6 0x06C) (b2n d.admHeld)
  let d := if d.admHeld then d else d.bump (pf 6 0x070) (if 512 ≤ d.decided then d.undecided.length else 0)
  let d := d.bump (pf 0xD 0x05C) (b2n (d.spanHeld && d.undecided.any fun c => d.spansFor c))
  match d.cas.exchange with
  | some n => d.bump (pf 0xD 0x048) (b2n (d.mgmt.masterLow && n + 4 ≤ d.row.number))
  | none => d

/-- Writes that entered in a row settle with it (R150, R443). -/
def Dev.settle (d : Dev) : Dev :=
  { d with objs := d.objs.map fun p =>
      (p.1, { p.2 with stagedOld := p.2.stagedOld || p.2.stagedMid, stagedMid := p.2.stagedNew, stagedNew := false,
                       prior := p.2.settled, settled := p.2.shadow }) }

/-- The row timer moves to the next row (R29, R43, R54, R55). -/
def Dev.nextRow (d : Dev) : Dev :=
  let d := d.closeWindow
  let time := ((d.row.timeNs : Int) + d.rowLen).toNat
  let d := { d with decided := 0, served := [], cleared := [], blank := false, row := { d.row with number := d.row.number + 1, timeNs := time, corr := 0, windows := 0 } }
  d.put64 (pf 1 0x128) d.row.number

/-! Reservations -/

/-- Strands that entered ENDING in an earlier row release everything (R114, R115, R413). -/
def Dev.releaseStrands (d : Dev) : Dev :=
  let gone := (d.strands.filter fun p => p.2.state == 3).map (·.1)
  { d with
    strands := d.strands.filter fun p => p.2.state != 3
    tiers := { d.tiers with lost := d.tiers.lost.filter fun x => x.2.2.1 != 0 || !gone.contains x.2.2.2 }
    markers := d.markers.filter fun p => match p.2.holder with | .strand id _ => !gone.contains id | _ => true }

/-- Types of work a strand reserved cycles of. -/
def Foot.classes (f : Foot) : Nat := b2n (f.l.any (· != 0)) + b2n (f.d.any (· != 0)) + b2n (f.p.any (· != 0))

/-- Pins, KV pages and cycles that a strand in flight gives back at the boundary (R125, R131, R155). -/
def Strand.shrink (s : Strand) : Strand :=
  let g := s.work.gen
  let many := 1 < s.foot.classes
  let moreL := s.steps.any (·.cls == 0)
  let moreP := s.steps.any (fun st => st.kind == .prefill) || g.chunks == 0 || g.rounds + 1 < g.chunks
  { s with pins := s.pins.filter fun p => !s.unpin.contains p.1, unpin := [], kv := s.kvNext
           holdL := s.holdL && (!many || moreL), holdP := s.holdP && (!many || moreP) }

/-- Lagging lanes without a strand close, and a decoder epoch without a generation gives back its passes (R345, R346). -/
def Dev.closeLanes (d : Dev) : Dev :=
  let members (l : Lanes) : List Strand :=
    (d.strands.map (·.2)).filter fun s => s.isGen && s.cmd.object == l.handle && s.pins.contains (l.handle, l.stamp)
  { d with lanes := (d.lanes.filter fun l => !(members l).isEmpty).map fun l =>
      { l with lagging := l.lagging.filter fun off => (members l).any (·.lane == off) } }

/-! Posted completions -/

/-- A strand that reaches its final completion in the row that begins (R115). -/
def Dev.postFinal (d : Dev) (id : Nat) (s : Strand) (f : Final) : Dev :=
  let d := (d.writeOut s.cmd s.work.out).finishStrand id s f.status f.reason f.flags f.count f.extra
  ((d.countEnd s.cmd.q.tenant f.status).endParts id s).toEnding id

/-- Output released in the row before is written, with its stream completion (R95, R115, R385). -/
def Dev.postStream (d : Dev) (id : Nat) (s : Strand) : Dev :=
  let d := d.writeOut s.cmd s.work.out
  let d := if s.work.stream && !d.draining s.cmd.q then
      d.stream s.cmd ⟨s.cmd.cid, 0, 1, 0, 0, id, s.work.released, s.admitRow, s.drops, d.row.number - s.admitRow, 0, s.counter⟩
    else d
  d.modStrand id fun s => { s with work := { s.work with out := [], stream := false } }

/-- What each strand posts in the row that begins; strands admitted in the row before begin to run (R114, R115). -/
def Dev.postRow (d : Dev) : Dev :=
  d.strands.foldl (fun d p =>
    match p.2.final with
    | some f => if f.row ≤ d.row.number && p.2.state = 2 then d.postFinal p.1 p.2 f else d
    | none => (d.postStream p.1 p.2).modStrand p.1 fun s => if s.state = 1 then { s with state := 2 } else s) d

/-! Aborts and unpicks -/

/-- The strand that an abort names, if it is in flight and the sender may abort it (R107, R138). -/
def Dev.abortee (d : Dev) (x : Cmd × Option Nat × Option (QRef × Nat)) : Option Nat :=
  match x.2.1, x.2.2 with
  | some id, _ =>
    match nget d.strands id with
    | some s => if s.state ≠ 3 && (x.1.q.tenant = 0 || (s.cmd.q.tenant = x.1.q.tenant && s.part.isNone)) then some id else none
    | none => none
  | none, some (q, cid) =>
    (d.strands.find? fun p => p.2.state != 3 && p.2.part.isNone && p.2.cmd.q == q && p.2.cmd.cid == cid).map (·.1)
  | none, none => none

/-- A strand that another end reaches in the row of its abort (R137): it stands at the stitch limit, or its pin age has passed. -/
def Dev.endsOtherwise (d : Dev) (id : Nat) : Bool :=
  match nget d.strands id with | some s => s.part.isNone && ((s.state == 2 && d.atLimit s) || d.pinDue s) | none => false

/-- An abort acts (R107): a strand, else a fetched command not yet decided; COUNT tells whether it ended its target. An end that goes before
ABORTED leaves the abort without effect (R137; log 76). -/
def Dev.abortOne (d : Dev) (x : Cmd × Option Nat × Option (QRef × Nat)) : Dev :=
  match d.abortee x with
  | some id => if d.endsOtherwise id then (d.expireNow id).finishNoStrand x.1 0 0 0 0 else (d.abortStrand id).finishNoStrand x.1 0 0 1 0
  | none =>
    match x.2.2.bind fun t => ((d.qp t.1).waiting.find? fun c => c.cid == t.2).map fun c => (t.1, c) with
    | some (q, c) =>
      let d := d.modQp q fun y => { y with waiting := y.waiting.erase c }
      (d.finishNoStrand c 0x14 0 0 0).finishNoStrand x.1 0 0 1 0
    | none => d.finishNoStrand x.1 0 0 0 0

/-- The aborts fetched in the row before, in their order. -/
def Dev.abortAll (d : Dev) : Dev := d.aborts.foldl (fun d x => d.abortOne x) { d with aborts := [] }

/-- A marker set by hand (R423, R424). -/
def Dev.setByHand (d : Dev) (i value last : Nat) : Dev :=
  ((d.setMarker i { d.marker i with value := value % 2 ^ 32, last := last }).bumpMarker i 0x050 1).wake i

/-- An unpick of a tenant (R423): only on a marker that a strand of the tenant holds. -/
def Dev.unpick (d : Dev) (x : Cmd × Nat × Nat) : Dev :=
  match (d.marker x.2.1).holder with
  | .strand _ t =>
    if t = x.1.q.tenant then (d.setByHand x.2.1 x.2.2 (markLast 9 t 0)).finishNoStrand x.1 0 0 1 0
    else (d.bumpMarker x.2.1 0x054 1).finishNoStrand x.1 0 0 0 0
  | _ => (d.bumpMarker x.2.1 0x054 1).finishNoStrand x.1 0 0 0 0

/-- An unpick of the PF (R424): no effect on a free marker. -/
def Dev.force (d : Dev) (x : Nat × Nat) : Dev :=
  if (d.marker x.1).holder = .free then d.bumpMarker x.1 0x054 1 else d.setByHand x.1 x.2 (markLast 10 0 0)

/-- The unpicks of the row before, at the end of the head. -/
def Dev.unpickAll (d : Dev) : Dev :=
  let us := d.unpicks
  let fs := d.forces
  let d := us.foldl (fun d x => d.unpick x) { d with unpicks := [], forces := [] }
  fs.foldl (fun d x => d.force x) d

/-! The row that begins -/

/-- RT_RUNON of the row that begins (R49, R51, R52, R55): CAUSE is kept while a run-on lasts. -/
def Dev.runonRow (d : Dev) : Dev :=
  let k := pf 1 0x124
  let was := bit (d.rg k) 0
  let rows := if was then d.rg k / 256 else 0
  if d.row.planned || d.power.warm then
    let d := if was && bits (d.rg k) 2 1 = 2 then d.put (pf 0xB 0x150) (rows * d.period) else d
    { d.put k 0 with row := { d.row with planned := false, missedPlan := false, runonCause := 0 } }
  else
    let cause := if was then bits (d.rg k) 2 1 else if d.row.runonCause = 2 then 2 else 1
    let d := (d.put k ((rows + 1) * 256 + cause * 2 + 1)).bump (pf 1 0x06C) 1
    { d with row := { d.row with missedPlan := false, runonCause := if cause = 2 then 2 else 0 } }

/-- Idle rows of a round pass with their row (R343). -/
def Dev.passIdle (d : Dev) : Dev :=
  d.strands.foldl (fun d p =>
    match p.2.steps.head? with
    | some st => if d.runnable p.2 && st.kind = .idle then d.putStrand p.1 (d.keepRound p.2.advance) else d
    | none => d) d

/-- No stitch is planned on any unit: the row counts as L0i (R491). -/
def Dev.idleRow (d : Dev) : Bool := d.row.slots.all (·.unit == 0)

/-- Progress of a running job, by the row; a budget of 0 pauses every job (R229, R232, R237; log 4). -/
def Dev.jobProgress (d : Dev) : Dev :=
  if bits (d.inForce (pf 4 0x200)) 11 0 = 0 then d else
  d.jobs.foldl (fun d j =>
    if j.state = 2 then
      let n := d.nextFree % 101
      ({ d with jobs := d.jobs.map fun (x : Job) => if x = j then { x with progress := max x.progress n } else x }).passFree
    else d) d

/-- What a read of the row returns (R141, R565). -/
def Dev.readouts (d : Dev) : Dev :=
  { d with snapStrands := d.strands, snapObjs := d.objs, snapJobs := d.jobs, snapLanes := d.lanes }

/-- Rows since the last message from the master, or from each member (R442, R456). -/
def Dev.casRow (d : Dev) : Dev :=
  { d with cas := { d.cas with
      silent := if d.casMember then d.cas.silent + 1 else d.cas.silent
      members := d.cas.members.map fun (m : Member) => { m with silent := m.silent + 1 } } }

/-- A member enters ISOLATED (R442): its parts end, and a pending cascade publish is discarded. -/
def Dev.isolate (d : Dev) : Dev :=
  let parts := (d.strands.filter fun p => p.2.part.isSome).map (·.1)
  let d := parts.foldl (fun d id => d.endSilent id) d
  let d := match d.pub with
    | some p => ((({ d with pub := none }.restage p).pubBit 0 false).pubBit 2 false).pubDone p.src 0x10 0x0905 0
    | none => d
  (({ d with cas := { d.cas with state := 3, ready := false, goGot := false, exchange := none } }).bump (pf 0xD 0x060) 1).vector 0 4

/-- A member that holds READY and has received neither GO nor ABANDON (R445). -/
def Dev.readyAlone (d : Dev) : Dev :=
  match d.pub with
  | some p => if d.cas.ready && !d.cas.goGot && d.cas.prepared + 3 ≤ d.row.number && p.due == untilGo then d.isolate else d
  | none => d

/-- The master's row marker: its row and the cascade swatch, with a PREPARE at the boundary after a COMMIT (R440, R443, R448). -/
def Dev.marker_ (d : Dev) : Dev :=
  if d.servingMaster || (d.mgmt.masterLow && d.cas.state == 1) then
    let n := d.emit (.cascade 1 255 [d.row.number, d.rg64 (pf 0xD 0x134)])
    if n.cas.exchange.any fun e => e + 1 == n.row.number then n.emit (.cascade 2 255 [n.row.number]) else n
  else d

/-- Lost lines of objects that are lost no longer: those of granules that a publish rewrote or that an epoch held alone and released. A deleted
object's lines stay until its last epoch goes (R194, R195). -/
def Dev.trimLost (d : Dev) : Dev :=
  let keep (x : Nat × Nat × Nat × Nat) : Bool :=
    let o := d.obj x.2.2.1
    x.2.2.1 == 0 || o.cur.isNone || o.damaged.contains x.2.2.2 || o.epochs.any fun e => e.damaged.contains x.2.2.2
  { d with tiers := { d.tiers with lost := d.tiers.lost.filter keep } }

/-- Working data of a strand whose step committed in the row that ends: the step may have written a lost line (R194; log 4). -/
def Dev.rewriteLost (d : Dev) : Dev :=
  d.tiers.lost.foldl (fun d x =>
    if x.2.2.1 = 0 && (nget d.strands x.2.2.2).any (fun s => s.fate == 2) then
      let d' := d.passFree
      if d.nextFree % 2 = 1 then { d' with tiers := { d'.tiers with lost := d'.tiers.lost.erase x } } else d'
    else d) d

/-- A publish at the boundary, and what waits for it: the end of a WARM (R487), a member that leaves its cascade (R442), a restored save
that is consumed (R503). -/
def Dev.publishRow (d : Dev) : Dev :=
  let n := d.boundaryPub
  if n.counter = d.counter then n
  else
    let n := if n.cas.state == 3 && !n.enAct 0xD then { n with cas := n.cas.left } else n
    let n := if n.power.warm then
        ((List.range' 1 16).filter fun t => n.on (tenantPage t)).foldl (fun (n : Dev) t => n.event t 0) { n with power := { n.power with warm := false } }
      else n
    { n with power := { n.power with restored := false } }

/-- What strands give back at the boundary, and the outcomes of probes (R115, R131, R468, R470). -/
def Dev.headRelease (d : Dev) : Dev :=
  let r := d.releaseStrands
  ({ r with strands := r.strands.map fun (p : Nat × Strand) => (p.1, p.2.shrink) }).probeActs.standIns

/-- A WARM begins, or a publish takes effect and strands post what they owe (R115, R487). -/
def Dev.headEffects (d : Dev) : Dev :=
  let n := if d.power.warmCause = 0 then d.readyAlone.publishRow.releaseDead.trimLost.closeLanes.postRow.postOwed else d.warm d.power.warmCause
  n.abortAll.unpickAll

/-- The plan of the row that begins and what its reads return. -/
def Dev.headPlan (d : Dev) : Dev :=
  let n := d.runonRow.buildPlan.passIdle
  (n.bumpK (pf 8 0x06C) (b2n n.idleRow)).jobProgress.readouts.casRow.marker_.pulse

/-- The head of the row and its plan, on a device whose row has just begun. -/
def Dev.head (d : Dev) : Dev := d.headRelease.headEffects.headPlan

/-- The end of a row and the head of the next (R29). -/
def Dev.boundary (m : Perm) (d : Dev) : Perm × Dev :=
  if !d.row.running then (m, d)
  else
    let d := d.endSlots.rewriteLost.expireMarked.enterAll.casDeadline.recheckHeld
    let d := if d.row.planned || d.power.warm then d else d.planMiss
    let r := Dev.activate m (d.countRow.settle.nextRow)
    let n := r.2.head.countLocal
    let saves := if d.power.restored && !n.power.restored then
        r.1.saves.map fun (v : Save) => if r.1.newest = some v then { v with consumed := true } else v
      else r.1.saves
    (({ r.1 with saves := saves }).record n, n)

/-- ROW_BOUNDARY (R29). -/
def execRowBoundary (s : State) : Host.Outcome State Fault Refusal :=
  let r := s.dev.boundary s.perm
  .next { s with dev := r.2, perm := r.1 }

/-- Run-on would pass 200 ms: a WARM begins at the next boundary in its place (R52). -/
def Dev.runonExpiry (d : Dev) : Dev :=
  if !d.row.running || !d.runonFull || d.row.planned || d.power.warm || d.power.warmCause != 0 then d
  else (((d.error 1 7 0x0801 0).logEvent 1 0x0A 0 0 0 0x0801).bump (pf 7 0x074) 1).warmSoon 2

/-- RUNON_EXPIRY (R52). -/
def execRunonExpiry (s : State) : Host.Outcome State Fault Refusal := .next { s with dev := s.dev.runonExpiry }

end Sys2Proof.Machine
end

