-- ==== Sys2Proof/Machine/Views.lean ====
section
/-! DEFINITION. What a read of a register returns: stored values, and the live readouts computed from the state of the present row
(R61, R91 to R93, R112, R141, R143, R144, R173, R202 to R207, R236, R237, R259, R279, R332, R353, R354, R386, R426, R427, R457, R481,
R505, R510, R530, R557, R558, R565). -/

namespace Sys2Proof.Machine

/-- The device as the reads of the present row show it (R565). -/
def Dev.shown (d : Dev) : Dev := { d with strands := d.snapStrands, objs := d.snapObjs, jobs := d.snapJobs, lanes := d.snapLanes }

/-- A sum over a list rounded up to whole units. -/
def roundUp (n unit : Nat) : Nat := ceilDiv n unit

/-! Admission and tenants -/

/-- The registers of the admission page from 0x108 (R141). -/
def Dev.viewAdmission (d : Dev) (off : Nat) : Option Nat :=
  let s := d.shown
  let sel := d.rg (pf 6 0x10C)
  let t := bits sel 20 16
  let pool := bits sel 8 4
  let u := bits sel 2 0
  let res (cls : Nat) : Nat := if t = 0 then s.held cls u pool else if pool = 0 then s.heldBy t cls u else if pool = t then s.held cls u pool else 0
  let slots := if t = 0 then s.slotsHeld pool else s.tenantSum t fun x => if x.pool 2 == pool then x.foot.slots else 0
  let typed (v : Nat) := some (if 5 ≤ u then 0 else v)
  match off with
  | 0x108 => some (s.genCount * 65536 + s.strands.length)
  | 0x110 => typed (s.capacity u pool)
  | 0x114 => typed (s.worst u)
  | 0x118 => typed (res 0)
  | 0x11C => typed (res 1)
  | 0x120 => typed (res 2)
  | 0x124 => typed (s.poolUnits u pool).length
  | 0x128 => some (s.t0Pool s.objs)
  | 0x12C => some s.t0Res
  | 0x130 => some (s.pool 1)
  | 0x134 => some s.kvRes
  | 0x138 => some (s.pool 2)
  | 0x13C => some s.t2Res
  | 0x140 => some (slots * 65536 + s.slotsOffered pool)
  | 0x144 => some (s.strandMarkers * 65536 + (4096 - s.patternMarkers))
  | _ => none

/-- What a tenant has reserved (R143). -/
def Dev.viewTenant (d : Dev) (t off : Nat) : Option Nat :=
  let s := d.shown
  match off with
  | 0x11C => some (s.tenantSum t (fun x => b2n x.isGen) * 65536 + s.tenantSum t fun _ => 1)
  | 0x120 => some (s.tenantSum t (·.foot.t0))
  | 0x124 => some (s.tenantSum t (·.kv) + sumNat (s.lanes.map fun l => if l.tenant == t then l.kv else 0))
  | 0x128 => some (s.tenantSum t (·.foot.t2))
  | 0x12C => some (s.tenantSum t (·.foot.markers) * 65536 + s.tenantSum t fun x => if x.pool 2 == 0 then x.foot.slots else 0)
  | _ => none

/-- One 16-bit entry of STW_STATE (R144). -/
def Dev.strandWord (d : Dev) (id : Nat) : Nat :=
  match nget d.snapStrands id with
  | none => 0
  | some s =>
    let cls := match s.steps.head? with | some st => st.cls | none => 3
    s.state * 2 ^ 13 + s.cmd.q.tenant * 256 + cls * 64 + b2n s.isGen * 32 + min s.consec 31

/-- The strand selected on a strand window page (R144). -/
def Dev.viewStrand (d : Dev) (w off : Nat) : Option Nat :=
  let id := w * 1024 + d.rg (pf (0x040 + w) 0x900)
  if 0x100 ≤ off && off < 0x900 then
    let j := w * 1024 + (off - 0x100) / 4 * 2
    some (d.strandWord j + 65536 * d.strandWord (j + 1))
  else if off < 0x904 || 0x920 < off then none
  else match nget d.snapStrands id with
    | none => some 0
    | some s => some (match off with
      | 0x904 => s.admitRow % 2 ^ 32
      | 0x908 => s.admitRow / 2 ^ 32
      | 0x90C => (s.admitRow + s.foot.n) % 2 ^ 32
      | 0x910 => b2n (s.cmd.q.tenant == 0) * 2 ^ 31 + s.cmd.q.qp * 2 ^ 24 + s.cmd.cid
      | 0x914 => s.counter % 2 ^ 32
      | 0x918 => s.drops % 65536
      | 0x91C => s.kv
      | _ => sumNat ((List.range 5).map fun u => b2n (s.owned.getD u false) * 2 ^ u))

/-! Objects -/

/-- The older of two stamps, compared modulo 2^32 (R146). -/
def olderStamp (a b : Nat) : Nat := if (b + 2 ^ 32 - a) % 2 ^ 32 < 2 ^ 31 then a else b

/-- The epoch views (R173). -/
def Dev.viewEpochs (d : Dev) (off : Nat) : Option Nat :=
  let s := d.shown
  let h := d.rg (pf 2 0x208)
  let o := (nget s.objs h).getD Obj.blank
  let cur := o.cur
  let pins : List (List (Nat × Nat)) := s.strands.map fun p => p.2.pins
  let here := (pins.flatten.filter fun p => p.1 == h)
  let count : Nat × Nat := match cur with
    | some e => ((pins.filter fun l => l.contains (h, e.stamp)).length, (pins.filter fun l => l.any fun (p : Nat × Nat) => p.1 == h && p.2 != e.stamp).length)
    | none => (0, (pins.filter fun l => l.any fun (p : Nat × Nat) => p.1 == h).length)
  match off with
  | 0x204 => some (match pins.flatten with | [] => 0 | p :: l => l.foldl (fun m x => olderStamp m x.2) p.2)
  | 0x20C => some (b2n cur.isSome * 2 ^ 31 + b2n (!o.current && !o.epochs.isEmpty) * 2 ^ 30 +
      b2n (o.stagedOld || o.stagedMid || o.stagedNew) * 2 ^ 29 + b2n o.inPublish * 2 ^ 28 + o.epochs.length * 65536)
  | 0x210 => some (cur.elim 0 (·.stamp))
  | 0x214 => some (match o.epochs.head? with | some e => e.stamp | none => 0)
  | 0x218 => some (if here.isEmpty then 0 else count.1 * 65536 + count.2)
  | 0x21C => some (cur.elim 0 (·.tag) % 2 ^ 32)
  | 0x220 => some (cur.elim 0 (·.tag) / 2 ^ 32 % 2 ^ 32)
  | _ => none

/-- Every entry of an index: graph nodes, the scanned array and the sprout. -/
def allEntries (ix : IndexBody) : List IxEntry := ix.nodes.map (·.2.entry) ++ ix.flat ++ ix.sprout

/-- The index-job views (R237). -/
def Dev.viewIndex (d : Dev) (off : Nat) : Option Nat :=
  let s := d.shown
  let h := d.rg (pf 4 0x208)
  let known := handleKind h == 1 && (nget s.objs h).isSome
  let job := (s.jobs.find? fun j => j.handle == h && j.state != 3).or (s.jobs.find? fun j => j.handle == h)
  let es := allEntries (s.curContent h).index
  let live := (es.filter fun e => !e.husked).length
  let husked := (es.filter (·.husked)).length
  let v (n : Nat) := some (if known then n else 0)
  match off with
  | 0x20C => v (match job with | some j => j.state * 2 ^ 30 + b2n j.build * 2 ^ 29 + j.progress | none => 0)
  | 0x210 => v (match job with | some j => j.base | none => 0)
  | 0x214 => v (s.curContent h).index.sprout.length
  | 0x218 => v (live % 2 ^ 32)
  | 0x21C => v (live / 2 ^ 32)
  | 0x220 => v (husked % 2 ^ 32)
  | 0x224 => v (husked / 2 ^ 32)
  | _ => none

/-- The table views (R332). -/
def Dev.viewTable (d : Dev) (off : Nat) : Option Nat :=
  let h := d.rg (pf 0xF 0x10C)
  match (if handleKind h = 3 then d.shown.curEpoch h else none) with
  | none => if 0x110 ≤ off && off ≤ 0x11C then some 0 else none
  | some e =>
    let t := tblDesc e.content.bytes
    let place := if replica h e.content != 0 then 1 else if e.t1 = t.rows then 2 else 3
    match off with
    | 0x110 => some (2 ^ 31 + place * 2 ^ 28 + t.fmt * 65536 + t.dim)
    | 0x114 => some t.rows
    | 0x118 => some e.t1
    | 0x11C => some (tblStride t)
    | _ => none

/-! Models -/

/-- Bytes of the pattern store that distinct patterns of some contents take. -/
def patternBytes (l : List Content) : Nat := sumNat (l.map fun c => (modelDesc c.bytes).patLen)

/-- The model-serving views (R353); the loader's planned time is the sum of the row's loads, rounded up to 1 µs (log 22). -/
def Dev.viewServing (d : Dev) (off : Nat) : Option Nat :=
  let s := d.shown
  match off with
  | 0x104 => some (roundUp (patternBytes (residentPatterns s.objs)) (2 ^ 20))
  | 0x108 => some (s.lanes.length * 65536 + (s.objs.filter fun p => handleKind p.1 == 4 && !p.2.epochs.isEmpty).length)
  | 0x10C => some (ceilDiv (2 * d.row.loadTime) 3000 % 65536)
  | _ => none

/-- The views of a model-descriptor page (R354). -/
def Dev.viewModel (d : Dev) (i off : Nat) : Option Nat :=
  let s := d.shown
  let h := d.inForce (pf (0x50 + i) 0x100)
  let e := s.curEpoch h
  let c := match e with | some x => x.content | none => Content.empty
  let p := pattern c.bytes
  let m := modelDesc c.bytes
  let lanes := e.bind fun x => s.lanesOf h x.stamp
  let have_ := h != 0 && e.isSome
  let period (j : Nat) : Nat := match p.recs[j]? with | some r => r.period | none => 0
  let v (n : Nat) := some (if have_ then n else 0)
  let main : List (Nat × Strand) := s.strands.filter fun x => x.2.isGen && x.2.cmd.object == h && x.2.lane == 0 && (e.any fun y => x.2.pins.contains (h, y.stamp))
  match off with
  | 0x104 => some (b2n (h != 0) * 2 ^ 31 + b2n lanes.isSome * 2 ^ 30 +
      (if have_ then sumNat ((List.range 5).map fun u => b2n ((patternTypes p).getD u false) * 2 ^ (8 + u)) + m.tier * 16 + m.role else 0))
  | 0x108 => v (period 1 * 65536 + period 0)
  | 0x10C => v (period 3 * 65536 + period 2)
  | 0x110 => v ((match lanes with | some l => if l.origin ≤ d.row.number then (d.row.number - l.origin) % max 1 p.roundRows else 0 | none => 0) * 256 + p.roundRows)
  | 0x114 => v (main.length * 65536 + (match lanes with | some l => l.lagging.length | none => 0))
  | 0x11C => some (sumNat (s.strands.map fun x => if h != 0 && x.2.isGen && x.2.cmd.object == h then x.2.kv else 0))
  | 0x120 => some (if h = 0 then 0 else roundUp (patternBytes (residentPatterns (s.objs.filter fun x => x.1 == h))) 1024)
  | _ => none

/-! Tiers and units -/

/-- Bytes of an object's copies in T2 or T3 before compression: 4 KiB for every page that the tier holds (R202). -/
def logicalUse (h tier : Nat) (o : Obj) : Nat :=
  4096 * sumNat ((o.regions h tier).map fun rs => let (a, b) := distinct (granulePages tier) rs; a.length + b)

/-- The views of a tier page (R202); the copies in T0 are charged to no owner (R182). -/
def Dev.viewTier (d : Dev) (t off : Nat) : Option Nat :=
  let s := d.shown
  let owner := d.rg (pf (tierPage t) 0x114)
  let mine := s.objs.filter fun p => handleOwner p.1 == owner
  let raw := d.tiers.raw
  let stored := sumNat (mine.map fun p => objUse raw p.1 t p.2)
  match off with
  | 0x108 => if t = 0 then some (128 + roundUp (s.t0Held s.objs) 256) else none
  | 0x10C => some (if t = 0 then s.t0Pool s.objs / 256 else if t = 3 then 0 else poolMib s s.inForce t)
  | 0x110 => some (roundUp (if t = 0 then s.t0Copies s.objs else sumNat ((List.range 17).map fun o => ownerUse raw s.objs o t)) (perMib t))
  | 0x118 => some (if t = 0 || 16 < owner then 0 else roundUp (ownerUse raw s.objs owner t) (perMib t))
  | 0x11C => some (if 16 < owner then 0 else if t < 2 || stored = 0 then 0x100
      else sumNat (mine.map fun p => logicalUse p.1 t p.2) * 256 / stored % 65536)
  | _ => if t = 0 && 0x180 ≤ off && off < 0x1C4 then some 0 else none

/-- The needle bed (R204). -/
def Dev.viewBed (d : Dev) (off : Nat) : Option Nat :=
  if off = 0x104 then
    some (sumNat (d.tiers.bed.map fun x => if x.phase = 0 then 0 else x.segments) * 256 + min 3 ((d.tiers.bed.drop 1).filter (·.phase == 2)).length)
  else none

/-- State of a memory controller or Zorber function: off, starting, running, self-refresh or low power (R205, R207, R492). -/
def Dev.memState (d : Dev) : Nat := if d.power.stage != 2 then 0 else if d.power.starting then 1 else if d.power.l2 then 3 else 2

/-- Spare capacity that the retired locations of a page take (R205, R207). -/
def Dev.spareUsed (d : Dev) (p : Nat) : Nat := if d.retiredOn p = 0 then 0 else Config.spareUse p (d.retiredOn p)

/-- The two readouts of a Zorber function (R207); what no rule measures is free (log 4). -/
def Dev.viewZorber (d : Dev) (m : Perm) (z off : Nat) : Option Nat :=
  let p := 0x0B0 + z
  let f := z % 8
  match off with
  | 0x104 => some d.memState
  | 0x108 => some (if f < 4 then d.spareUsed p * 65536 + 8192 else if f < 6 then d.retiredOn p * 65536 + Config.spareUse p (d.retiredOn p) % 65536
      else if f = 6 then d.nextFree % 65536 else 0)
  | 0x10C => some (if f < 4 then (if d.memState = 2 then 0xFF else 0) else if f < 6 then d.nextFree % 65536 else 0)
  | 0x110 => some (if f = 7 then (match m.set 0 with | some x => fwVersion x.header 3 | none => 0) else 0)
  | _ => none

/-- A die-to-die link (R206). -/
def Dev.viewD2d (d : Dev) (p off : Nat) : Option Nat :=
  let n := d.retiredOn p
  match off with
  | 0x100 => some ((4 - n) * 65536 + (64 - (n - 4)) * 256 + 68)
  | 0x104 => some (if d.power.stage != 2 then 0 else if d.power.starting then 1 else if 4 ≤ n then 3 else 2)
  | _ => none

/-- State of a unit: idle, serving, quiesced or spare; a spare that stands in serves (R236, R259, R279, R386, R468). -/
def Dev.unitState (d : Dev) (p : Nat) : Nat :=
  let x := d.page p
  if x.standFor.isSome then 1 else if x.quiesced then 2 else if x.spare then 3 else if d.row.slots.any (fun s => s.unit == p && s.phase < 2) then 1 else 0

/-- KiB that table copies and pattern-fixed T0 take in each active matrix core (R182, R274, R276). -/
def coreHeld (objs : NMap Obj) : Nat := sumNat ((residentPatterns objs).map fun c => (pattern c.bytes).t0Fixed) + 4 * replicas objs

/-- MC_STATE.FOREGROUND: while a stitch whose arrays make their foreground load runs on a core, whether the load is over is free (R268, R279;
log 4). -/
def Dev.foreground (d : Dev) (p : Nat) : Nat :=
  if d.row.slots.any (fun s => s.unit == p && s.phase == 1) && ((nget d.cores p).getD []).any (·.loading) then d.nextFree % 2 * 256 else 0

/-- The views of a compute unit (R236, R259, R279, R386); a ready spare holds the copies of an active unit (R475). -/
def Dev.viewUnit (d : Dev) (u p off : Nat) : Option Nat :=
  let s := d.shown
  let active := (d.page p).active != 0xFFF || (d.readySpares u).contains p
  match u, off with
  | 2, 0x108 => some (min 32 (sumNat ((d.row.slots.filter fun x => x.unit == p).map fun x =>
      sumNat (x.members.map fun id => match nget s.strands id with | some y => y.foot.slots | none => 0))))
  | 2, 0x10C => some (d.unitState p)
  | 3, 0x108 => some (if active then roundUp (vocabBytes s.objs) 1024 * 65536 + 4 * workingCopies s.objs else 0)
  | 3, 0x10C => some (if active then (vocabs s.objs).length else 0)
  | 3, 0x110 => some (d.unitState p)
  | 4, 0x108 => some (d.unitState p)
  | 0, 0x108 => some ((if active then coreHeld s.objs else 0) * 65536 + 3072)
  | 1, 0x108 => some ((if active then coreHeld s.objs else 0) * 65536 + 3072)
  | 0, 0x10C => some (d.unitState p + d.foreground p)
  | 1, 0x10C => some (d.unitState p + d.foreground p)
  | _, _ => none

/-! Faults, power, management, firmware and the cascade -/

/-- Ready spares and control cores in service (R481). -/
def Dev.viewFaults (d : Dev) (off : Nat) : Option Nat :=
  match off with
  | 0x130 => some (sumNat ((List.range 5).map fun u => (d.readySpares u).length * 2 ^ ([24, 16, 8, 4, 0].getD u 0)))
  | 0x134 => some (sumNat ((List.range 16).map fun c => b2n (!d.fault.cores.contains c) * 2 ^ c))
  | _ => none

/-- A control group's own registers (R510); its load is free (log 4). -/
def Dev.viewGroup (d : Dev) (m : Perm) (g off : Nat) : Option Nat :=
  let cores := (List.range 4).filter fun c => !d.fault.cores.contains (4 * g + c)
  match off with
  | 0x100 => some ((if d.fault.restarting.contains g then 0 else cores.length) * 256 + sumNat (cores.map (2 ^ ·)))
  | 0x104 => some (match m.set 0 with | some x => fwVersion x.header 1 | none => 0)
  | 0x108 => some (d.nextFree % 256)
  | _ => none

/-- Hours since the last bank check, saturating (R500, R505). -/
def Dev.bankHours (d : Dev) : Nat :=
  min 65535 (bits (d.rg (pf 8 0x118)) 31 16 + (d.row.timeNs - d.power.bankAt) / (3600 * 10 ^ 9))

/-- Measured bank C, and the alarms it sets (R500, R501). -/
def Dev.bankUf (d : Dev) : Nat := bits (d.rg (pf 8 0x118)) 15 0
def Dev.bankAlarm (d : Dev) : Bool := d.bankUf != 0 && d.bankUf < bits (d.inForce (pf 8 0x11C)) 15 0
def Dev.bankUnfit (d : Dev) : Bool := d.bankUf != 0 && d.bankUf < 3100

/-- The power page (R505): PW_STATE, STANDBY, the bank, the restore and the lost reports. -/
def Dev.viewPower (d : Dev) (off : Nat) : Option Nat :=
  let w := d.power
  match off with
  | 0x100 => some (b2n (w.bankReady || w.measuring) * 2 ^ 31 + b2n d.bankAlarm * 2 ^ 30 + b2n d.bankUnfit * 2 ^ 29 +
      b2n (w.feedOk.getD 0 false) * 2 ^ 28 + b2n (w.feedOk.getD 1 false) * 2 ^ 27 + d.rg (pf 8 0x100) +
      (if w.l2 then 3 else if w.standby then 2 else if d.row.running && d.idleRow then 1 else 0))
  | 0x104 => some (b2n w.standby)
  | 0x118 => some (d.bankHours * 65536 + d.bankUf)
  | 0x134 => some (if w.rebuilt || w.starting then 0 else 2 ^ 31 + d.nextFree % 101)
  | 0x138 => some w.lost.length
  | _ => none

/-- The header in force: PREVIOUS between the last report of a rewrite and its boundary, else CURRENT (R522). -/
def Dev.inForceSet (d : Dev) (m : Perm) : Option FwSet := if d.fw.activating && !d.fw.restoring then m.set 1 else m.set 0

/-- The firmware page (R530). -/
def Dev.viewFirmware (d : Dev) (m : Perm) (off : Nat) : Option Nat :=
  let ver (s : Option FwSet) (i : Nat) := match s with | some x => fwVersion x.header i | none => 0
  if off = 0x100 then some d.fw.word
  else if off = 0x108 then some m.floor
  else if off = 0x10C then some (b2n (m.set 1).isSome * 2 ^ 12 + m.roles.getD 0 0 * 256 + m.roles.getD 1 0 * 16 + m.roles.getD 2 0)
  else if 0x110 ≤ off && off < 0x12C then some (ver (d.inForceSet m) ((off - 0x110) / 4 + 1))
  else if 0x12C ≤ off && off < 0x148 then some (ver (m.set 1) ((off - 0x12C) / 4 + 1))
  else none

/-- The ports that a topology uses (R457): ports 0 and 1 for TOPOLOGY 0, all four otherwise. -/
def Dev.portsUsed (d : Dev) : List Nat := if bits (d.inForce (pf 0xD 0x100)) 1 0 = 0 then [0, 1] else [0, 1, 2, 3]

/-- A link of the cascade that once trained is down or narrow (R435). -/
def Dev.degraded (d : Dev) : Bool :=
  d.cas.state != 0 && d.portsUsed.any fun p => d.cas.lostPorts.contains p || bits (d.rg (pf (0xA0 + p) 0x104)) 1 0 == 3

/-- The cascade page's state (R457). -/
def Dev.viewCascade (d : Dev) (off : Nat) : Option Nat :=
  let c := d.cas
  let others := c.members.filter fun m => m.index != 0
  match off with
  | 0x11C => some (c.state * 2 ^ 30 + b2n d.mgmt.masterLow * 2 ^ 29 + b2n d.degraded * 2 ^ 28 +
      b2n (d.servingMaster && others.all (·.locked)) * 2 ^ 27 + c.index * 65536 + c.modules * 256)
  | 0x120 => some (if d.servingMaster then
      sumNat (others.map fun m => b2n m.lost * 2 ^ (16 + m.index % 16)) + sumNat (others.map fun m => b2n (!m.lost) * 2 ^ (m.index % 16)) + 1 else 0)
  | _ => none

/-! Queues and markers -/

/-- A queue's status, fetch position and completion position (R93, R112); no completion slot is shown before the first opening (R95). -/
def Dev.viewQueue (d : Dev) (q : QRef) (off : Nat) : Option Nat :=
  let x := d.qp q
  match off with
  | 0x128 => some (x.outstanding % 65536 * 65536 + d.rg (queueStat q))
  | 0x12C => if q.tenant = 0 then none else some x.head
  | 0x130 => if q.tenant = 0 then none else some (if (nget d.qps (queueKey q)).isNone then 0 else b2n x.phase * 65536 + x.cqTail)
  | _ => none

/-- PCIE_VF: what the host has written to the SR-IOV capability in PCIe configuration space, which no command writes; free while the link is up
(R112; log 77). -/
def Dev.vfState (d : Dev) : Nat := if d.rg (pf 0xC 0x100) = 0 then 0 else d.nextFree % 2 * 256 + d.nextFree / 2 % 17

/-- Four bytes of the wait map (R427). -/
def Dev.waitMap (d : Dev) (first : Nat) : Nat := sumNat ((List.range 4).map fun i => min 255 (d.marker (first + i)).waiters * 256 ^ i)

/-- A register of the error and status header that is computed (R61, R91). -/
def Dev.viewHeader (d : Dev) (p off : Nat) : Option Nat :=
  if off = 0x00C then some (pgStat (d.page p))
  else if off = 0x008 then
    some (d.rg (p * 4096 + 8) + b2n (d.page p).softReset * 2 + (if 4096 ≤ p then p / 4096 * 256 else 0))
  else none

/-- A computed register of a page; none reads what is stored. -/
def Dev.viewPage (d : Dev) (m : Perm) (p off : Nat) : Option Nat :=
  match pageInfo p with
  | none => none
  | some (type, inst) =>
    match type with
    | 0x03 => if off < 0x200 then d.viewGroup m inst off
        else if inst = 0 then d.viewEpochs off else if inst = 2 then d.viewIndex off else none
    | 0x04 => d.viewAdmission off
    | 0x05 => d.viewFaults off
    | 0x06 => d.viewPower off
    | 0x07 => if off = 0x100 then some (b2n (d.power.stage == 2) * 2 ^ 31 + 3 * 2 ^ 29 + b2n d.mgmt.session * 2 ^ 28) else none
    | 0x08 => if off = 0x100 then some (b2n d.mgmt.masterLow * 256 + d.mgmt.slotId) else none
    | 0x09 => d.viewFirmware m off
    | 0x0A => if off = 0x104 then some d.vfState else d.viewQueue ⟨0, 0⟩ off
    | 0x0B => d.viewCascade off
    | 0x0C => d.viewBed off
    | 0x0D => d.viewTable off
    | 0x0E => d.viewTier inst off
    | 0x0F => d.viewServing off
    | 0x10 => d.viewTenant inst off
    | 0x11 => if off = 0x118 then some (b2n (d.forces.any fun f => f.1 / 1024 == inst) * 2) else none
    | 0x12 => if 0x400 ≤ off && off < 0x800 then some (d.waitMap (inst * 1024 + (off - 0x400))) else none
    | 0x13 => d.viewStrand inst off
    | 0x14 => d.viewModel inst off
    | 0x15 => if off = 0x100 then some (d.spareUsed p * 65536 + 1966) else if off = 0x108 then some d.memState else none
    | 0x17 => d.viewD2d p off
    | 0x18 => d.viewZorber m inst off
    | 0x30 => if off = 0x108 then some (bits (d.rg (regKey (p / 4096) 0x108)) 8 8 * 256 + p / 4096)
        else if off = 0x114 then some (d.counter % 2 ^ 32) else if off = 0x118 then some (d.counter / 2 ^ 32) else none
    | 0x31 => match pageQueue p with | some q => d.viewQueue q off | none => none
    | _ => match unitType p with | some u => d.viewUnit u p off | none => none

/-- A live readout that a reset has cleared reads its reset value until the next boundary writes it again (R486): after COLD and POR that is
the first boundary of the start. -/
def Dev.readsReset (d : Dev) (k : Nat) : Bool :=
  let s := survOf k
  let n : Bool := s == .n
  d.power.starting && s != .f && s != .k && s != .c || d.blank && (n || s == .b) || d.cleared.contains (keyPage k) && n

/-- The value a read returns, before any side effect of the read (R6, R10, R58). -/
def Dev.regRead (d : Dev) (m : Perm) (k : Nat) : Nat :=
  let p := keyPage k
  let off := k % 4096
  match regDesc k with
  | none => 0
  | some _ =>
    if 0x040 ≤ off && d.readsReset k && (d.viewPage m p off).isSome then resetOf k
    else match (if off < 0x040 then (match pageInfo p with | some (t, _) => if hasHeader t then d.viewHeader p off else none | none => none)
      else d.viewPage m p off) with
    | some v => v % 2 ^ 32
    | none => d.rg k

end Sys2Proof.Machine
end

