-- ==== Sys2Proof/Machine/Registers.lean ====
section
/-! DEFINITION. Register reads with their side effects, PG_CTRL, enable checks as they end, soft resets, and the enables and drains of
queues (R6 to R10, R57, R58, R61, R63, R65 to R73, R86, R91, R94, R95, R112, R204, R281, R459, R477, R510). -/

namespace Sys2Proof.Machine

/-! Reads -/

/-- The key of a register by function and byte offset in its BAR; an offset beyond a BAR names no register (R58, R86). -/
def busKey (fn off : Nat) : Nat := if off < 2 ^ 24 then regKey fn off else regKey fn 0xFFFFFC

/-- The register is the _LO of a 64-bit pair (R9). -/
def pairLo (k : Nat) : Bool :=
  match pageInfo (keyPage k) with
  | none => false
  | some (type, inst) =>
    let off := k % 4096
    (hasHeader type && (off == 0x014 || off == 0x038)) ||
      (match type with
        | 0x01 => [0x110, 0x118, 0x120].contains off
        | 0x02 => off == 0x128
        | 0x03 => (inst == 0 && off == 0x21C) || (inst == 2 && (off == 0x218 || off == 0x220))
        | 0x06 => off == 0x12C
        | 0x08 => off == 0x120
        | 0x09 => off == 0x148
        | 0x0A => off == 0x108 || off == 0x110
        | 0x0B => [0x124, 0x12C, 0x134].contains off
        | 0x13 => off == 0x904
        | 0x30 => off == 0x114
        | 0x31 => off == 0x100 || off == 0x108
        | _ => false)

/-- The register is an RC counter. -/
def isRc (k : Nat) : Bool := match regDesc k with | some r => r.acc == .rc | none => false

/-- What a read returns: a pending copy for the _HI of a pair, else the value (R9). A pending-bit array holds no descriptor. -/
def Dev.readValue (d : Dev) (m : Perm) (k : Nat) : Word :=
  match (if pairLo (k - 4) then nget d.hold k else none) with
  | some v => v
  | none => wd (if isMsix k && (regDesc k).isNone then d.rg k else d.regRead m k)

/-- What a read changes: a _LO latches its _HI, a _HI clears the mark, an RC counter clears (R6, R8, R9). A readout that is free takes
one free value (log 4). -/
def Dev.readEffect (d : Dev) (m : Perm) (k : Nat) : Dev :=
  let d := if pairLo k then { d with hold := nset d.hold (k + 4) (wd (d.regRead m (k + 4))) } else d
  let d := if pairLo (k - 4) then { d with hold := nerase d.hold k } else d
  (if isRc k then d.put k 0 else d).passFree

/-- A read by the host; nothing answers while the module is off, in reset or halted by a sag. -/
def Dev.read (d : Dev) (m : Perm) (fn off : Nat) : Dev :=
  if d.up then
    let k := busKey fn off
    (d.readEffect m k).emit (.value fn off (d.readValue m k))
  else d

/-! Enables -/

/-- Any page other than the row timer's is enabled, or a strand is in flight (R57). -/
def Dev.rowInUse (d : Dev) : Bool :=
  !d.strands.isEmpty || (pagesOn d.shadows ++ pagesOn d.act).any (· != 1) || d.pages.any fun p => 4096 ≤ p.1 && p.2.running

/-- A page is dirty: a configuration-class value of it waits for a publish (R65). -/
def Dev.dirty (d : Dev) (p : Nat) : Dev := if p < 4096 then d.modPage p fun x => { x with dirty := true } else d

/-- A queue pair disabled (R95): it drains. -/
def Dev.drain (d : Dev) (q : QRef) : Dev :=
  let cs := (d.qp q).waiting
  let d := (d.modQp q fun x => { x with waiting := [] }).setQueueBit q 1 true
  cs.foldl (fun d c => d.finishNoStrand c 0x14 0 0 0) d

/-- EN written from 1 to 0 (R72, R91, R95): a PF page's shadow, a queue pair's drain, any other VF page at once. -/
def Dev.clearEn (d : Dev) (p : Nat) : Dev :=
  let n := d.putBits (p * 4096 + 8) 0 0 0
  if p < 4096 then n.dirty p
  else match pageQueue p with
    | some q => if (d.page p).running then n.drain q else n
    | none => n.modPage p fun x => { x with running := false }

/-- A drain ends after the last final completion (R95). -/
def Dev.drainDone (d : Dev) (q : QRef) : Dev :=
  if d.draining q && (d.qp q).outstanding == 0 then (d.setQueueBit q 1 false).modPage (queuePage q) fun x => { x with running := false } else d

/-- The enable check of a page ends (R63, R67 to R71, R91). -/
def Dev.checkEnd (d : Dev) (p : Nat) : Dev :=
  match d.checks.find? (·.page == p) with
  | none => d
  | some c =>
    if d.power.starting || d.checkWaits c then d
    else
      let d := d.dropCheck p
      match d.judgeCheck c with
      | some code => (d.refuse p code).countLock code
      | none =>
        let d := (d.pass p).putBits (p * 4096 + 8) 0 0 1
        if p = 1 then (if d.row.running then d.dirty 1 else (d.dirty 1).rowStart) else if p < 4096 then d.dirty p else d.vfStart c

/-! Soft resets -/

/-- Types whose PG_CTRL.SOFT_RESET has no effect. -/
def noSoftReset (type : Nat) : Bool :=
  [0x03, 0x04, 0x05, 0x06, 0x07, 0x08, 0x09, 0x0B, 0x0D, 0x0F, 0x11, 0x12, 0x13, 0x14].contains type

/-- A queue pair reset: its strands end without completions and its page starts afresh (R95). -/
def Dev.resetQueue (d : Dev) (q : QRef) : Dev :=
  let ids := (d.strands.filter fun x => x.2.cmd.q == q && x.2.part.isNone).map (·.1)
  let d := ids.foldl (fun d id => d.endSilent id) d
  { d with
    pages := d.pages.filter fun x => x.1 != queuePage q
    qps := nerase d.qps (queueKey q)
    aborts := d.aborts.filter fun x => x.1.q != q
    unpicks := d.unpicks.filter fun x => x.1.q != q }

/-- A Tuivy port retrains; the transfers planned over it are late (R459). -/
def Dev.retrain (d : Dev) (p : Nat) : Dev :=
  let d := (d.put (pf p 0x104) (setBits (d.rg (pf p 0x104)) 1 0 1)).bump (pf p 0x04C) 1
  { d with row := { d.row with slots := d.row.slots.map fun s =>
      if s.utype = 5 && s.phase < 2 then { s with inputs := s.inputs ++ [⟨none, .link⟩] } else s } }

/-- A BLOCK reset of a page (R11, R73, R95, R281, R459, R486). -/
def Dev.blockReset (d : Dev) (p : Nat) : Dev :=
  let n := ({ d with cleared := p :: d.cleared }).clearRegs .block fun k => keyPage k == p
  let n := n.modPage p fun x => { x with refused := false, softReset := false }
  let n := if p = 0 && n.pub.isSome then (n.pubBit 0 true).pubBit 2 (n.casPub || n.pub.any (·.held)) else n
  let n := if isCompute p then n.faultUnit p else n
  let n := if typeOf p = 0x16 then n.retrain p else n
  match pageQueue p with
  | some q => n.resetQueue q
  | none => if 4096 ≤ p then n.modPage p fun x => { x with running := false } else n

/-- A weighted stitch, one that reads a slice of the needle bed, is planned (R188, R204). -/
def Dev.weightsPlanned (d : Dev) : Bool :=
  d.row.slots.zipIdx.any fun p => p.1.phase < 2 && d.tiers.bed.any fun x => x.users.contains p.2

/-- A write of 1 to PG_CTRL.SOFT_RESET (R61, R73, R204, R477, R485): it abandons a running check, and waits for a probe or resets the page;
REFUSED stays as it is when a check is abandoned. -/
def Dev.softReset (d : Dev) (p : Nat) : Dev :=
  let x := d.page p
  let t := match pageInfo p with | some (t, _) => t | none => 0
  if !hasHeader t then d
  else
    let d := if x.checking && !(t == 0x0C && d.weightsPlanned) then d.dropCheck p else d
    if noSoftReset t || d.absorbs || (t == 0x0C && d.weightsPlanned) then d
    else if x.quiesced || x.probing || d.fault.probes.any (·.page == p) then d.modPage p fun x => { x with softReset := true }
    else
      let n := d.blockReset p
      if x.checking then n.modPage p fun y => { y with refused := x.refused } else n

/-- A soft reset that waited: its probe has ended and the outcome has acted (R477). -/
def Dev.softResetDone (d : Dev) (p : Nat) : Dev :=
  let x := d.page p
  if x.softReset && !x.quiesced && !x.probing && !d.fault.probes.any (·.page == p) then d.blockReset p else d

/-! PG_CTRL -/

/-- TENANT_OWNER written to a page's shadow, which makes the page dirty; VF pages and the row timer's keep theirs (R57, R61, R65, R91). A 1
written to EN while EN or CHECKING reads 1, with the owner unchanged, writes nothing (R67). -/
def Dev.putOwner (d : Dev) (p v : Nat) : Dev :=
  let old := d.rg (pf p 8)
  if 4096 ≤ p || p = 1 || (bits old 15 8 = bits v 15 8 && bit v 0 && (bit old 0 || (d.page p).checking)) then d
  else (d.putBits (pf p 8) 15 8 (bits v 15 8)).dirty p

/-- A write to PG_CTRL (R57, R61, R65 to R68, R72, R73, R91, R95, R339). DESIGN CHOICE (log 72, point 4): a write that sets both SOFT_RESET
and EN resets the page and starts no check; the spec gives no order between the two bits. -/
def Dev.ctrlWrite (d : Dev) (p v : Nat) : Dev :=
  let k := p * 4096 + 8
  match pageInfo p with
  | none => d
  | some (type, _) =>
    if !hasHeader type then d
    else
      let en := bit (d.rg k) 0
      if p = 1 && (bit v 1 || (en && !bit v 0)) && d.rowInUse then d.put (pf 1 0x010) 0x0312
      else
        let d := d.putOwner p v
        let d := if bit v 1 then d.softReset p else d
        if type = 0x14 then d else if bit v 0 && !bit v 1 then d.startCheck p else if !bit v 0 && en then d.clearEn p else d

/-! The admin queue -/

/-- ADM_CTRL.EN (R94, R112): in force at once when the ring fields pass; the version is granted as R90 gives. -/
def Dev.admCtrl (d : Dev) (v : Nat) : Dev :=
  let size := d.rg (pf 0xC 0x118)
  if !bit v 0 then d.put (pf 0xC 0x11C) 0
  else if bit (d.rg (pf 0xC 0x11C)) 0 then d
  else if isPow2In (bits size 15 0) 16 256 && isPow2In (bits size 31 16) 16 256 then
    let minor := bits (d.rg (regKey 1 0x100)) 15 0
    ((((d.put (pf 0xC 0x11C) ((0x200 + minor % 256) * 65536 + 1)).pass 0xC).openQueue ⟨0, 0⟩)).postLost ⟨0, 0⟩
  else d.refuse 0xC 0x0101

/-! The meanings -/

/-- The function exists (R84, R86). -/
def onFn (fn : Nat) (s : State) (d : Dev) : Host.Outcome State Fault Refusal :=
  if fn < fnCount then .next { s with dev := d } else .fault .noSuchFunction

/-- RC_READ (R6, R8). -/
def execRcRead (fn off : Nat) (s : State) : Host.Outcome State Fault Refusal := onFn fn s (s.dev.read s.perm fn off)

/-- PAIR_LO_READ (R9). -/
def execPairLoRead (fn off : Nat) (s : State) : Host.Outcome State Fault Refusal := onFn fn s (s.dev.read s.perm fn off)

/-- PAIR_HI_READ (R9). -/
def execPairHiRead (fn off : Nat) (s : State) : Host.Outcome State Fault Refusal := onFn fn s (s.dev.read s.perm fn off)

/-- ENABLE_REQUEST (R67). -/
def execEnableRequest (fn slot : Nat) (value : Word) (s : State) : Host.Outcome State Fault Refusal :=
  onFn fn s (s.dev.host fun d => d.ctrlWrite (pageKey fn (slot % 4096)) value.toNat)

/-- ENABLE_CHECK_DONE (R67 to R71). -/
def execEnableCheckDone (fn slot : Nat) (s : State) : Host.Outcome State Fault Refusal :=
  onFn fn s (s.dev.checkEnd (pageKey fn (slot % 4096)))

/-- DISABLE_WRITE (R72): a write to PG_CTRL of a PF page. -/
def execDisableWrite (slot : Nat) (value : Word) (s : State) : Host.Outcome State Fault Refusal :=
  .next { s with dev := s.dev.host fun d => d.ctrlWrite (slot % 4096) value.toNat }

/-- QP_DISABLE (R95). -/
def execQpDisable (q : QRef) (s : State) : Host.Outcome State Fault Refusal :=
  .next { s with dev := s.dev.host fun d => if q.tenant = 0 then d else d.ctrlWrite (queuePage q) 0 }

/-- QP_DRAIN_DONE (R95). -/
def execQpDrainDone (q : QRef) (s : State) : Host.Outcome State Fault Refusal := .next { s with dev := s.dev.drainDone q }

/-- SOFT_RESET (R61, R73). -/
def execSoftReset (fn slot : Nat) (s : State) : Host.Outcome State Fault Refusal :=
  let p := pageKey fn (slot % 4096)
  onFn fn s (s.dev.host fun d => if p = 1 && d.rowInUse then d.put (pf 1 0x010) 0x0312 else d.softReset p)

/-- BLOCK_RESET_DONE (R477). -/
def execBlockResetDone (fn slot : Nat) (s : State) : Host.Outcome State Fault Refusal :=
  onFn fn s (s.dev.softResetDone (pageKey fn (slot % 4096)))

/-- ADM_CTRL_ENABLE (R112). -/
def execAdmCtrlEnable (value : Word) (s : State) : Host.Outcome State Fault Refusal :=
  .next { s with dev := s.dev.host fun d => d.admCtrl value.toNat }

/-- SQ_DOORBELL (R96, R99, R100). -/
def execSqDoorbell (q : QRef) (tail : Nat) (s : State) : Host.Outcome State Fault Refusal :=
  .next { s with dev := s.dev.host fun d => d.sqDoorbell q (tail % 65536) }

/-- CQ_DOORBELL (R96, R99). -/
def execCqDoorbell (q : QRef) (head : Nat) (s : State) : Host.Outcome State Fault Refusal :=
  .next { s with dev := s.dev.host fun d => d.cqDoorbell q (head % 65536) }

end Sys2Proof.Machine
end

