-- ==== Sys2Proof/Machine/Power.lean ====
section
/-! DEFINITION. The resets as commands, power-up and power states, feeds, sag, saves, the hold-up bank and the temperatures
(R87 to R89, R484 to R505, R537 to R544, R552). -/

namespace Sys2Proof.Machine

/-! Resets -/

/-- PERST_N asserted (R484, R485, R498, R537): a COLD held while it stays low; a POR not yet started just waits. -/
def Dev.perstLow (d : Dev) : Dev :=
  if d.power.stage != 2 || d.power.sag then d
  else if d.power.starting && d.power.por then { d with power := { d.power with perst := true } }
  else d.cold 1

/-- PERST_N deasserted (R539, R542): the straps are sampled when a POR or a COLD waits for it. -/
def Dev.perstHigh (d : Dev) : Dev :=
  if d.power.stage != 2 || d.power.sag || !d.power.pwrgd then d
  else
    let d := if d.power.starting then d.sampleStraps else d
    { d with power := { d.power with perst := false } }

/-- An FLR of the PF (R89); a POR that has not started absorbs it. -/
def Dev.pfReset (d : Dev) : Dev := if d.power.perst || (d.power.starting && d.power.por) then d else d.cold 2

/-- A strap changes outside its sampling point (R539). -/
def Dev.strapChange (d : Dev) (slotId : Nat) (master : Bool) : Dev :=
  let m := d.mgmt
  let changed := m.pinSlot != slotId % 16 || m.pinMaster != master
  let d := { d with mgmt := { m with pinSlot := slotId % 16, pinMaster := master } }
  if d.power.stage = 0 then d else d.bump (pf 0xA 0x050) (b2n changed)

/-! Power -/

/-- Everything volatile is lost; only what the outside drives stays. -/
def Dev.powerDown (d : Dev) : Dev :=
  { Dev.reset with
    free := d.free, sent := d.sent, mgmt := { Mgmt.reset with pinSlot := d.mgmt.pinSlot, pinMaster := d.mgmt.pinMaster, lineLow := d.mgmt.lineLow }
    power := { Power.reset with stage := 0, pwrgd := false, starting := false, por := false, feedOk := d.power.feedOk, connected := d.power.connected,
                                dark := d.power.dark } }

/-- The main rails come up and PWRGD is released: POR waits for PERST_N, which the host holds low (R542). -/
def Power.rise (w : Power) : Power := { w with stage := 2, pwrgd := true, perst := true, starting := true, por := true }

/-- Turn-on (R540, R542, R543): a loader that fails verification leaves the standby rails alone. -/
def Dev.turnOn (d : Dev) (feedB loadersOk : Bool) : Dev :=
  let i := b2n feedB
  if d.power.stage != 0 || d.power.l3 || !d.power.connected.getD i false then d
  else
    let w := { d.power with feedOk := d.power.feedOk.set i true, dark := false }
    { d with power := if loadersOk then w.rise else { w with stage := 1 } }

/-- The admission page runs once the upper tiers are rebuilt and the bank has been ready (R489). -/
def Dev.openAdmission (d : Dev) : Dev :=
  if d.row.running && d.power.rebuilt && d.power.bankReady && d.enAct 6 && !d.power.warm then d.modPage 6 fun x => { x with running := true } else d

/-- Step 5 of R488 ends (R489). -/
def Dev.rebuildDone (d : Dev) : Dev :=
  if d.row.running && !d.power.starting then ({ d with power := { d.power with rebuilt := true } }).openAdmission else d

/-- The bank reaches 54 V (R489, R499). -/
def Dev.bankCharged (d : Dev) : Dev :=
  if d.power.stage = 0 || d.power.sag then d
  else (({ d with power := { d.power with bankReady := true } }).put (pf 8 0x114) 5400).openAdmission

/-- Every lost-strand report discarded (R504). -/
def Dev.dropLost (d : Dev) : Dev := { d with power := { d.power with lost := [] } }

/-! Feeds -/

/-- An ENVIRONMENT error of a page (R460, R462, R482). -/
def Dev.environment (d : Dev) (p : Nat) : Dev := (d.error p 6 0x0701 0).logEvent p 0x01 0 0 0 0x0701

/-- The power-manager firmware is stopped by a rewrite: its readings hold (R507). -/
def Dev.managerStopped (d : Dev) : Bool := d.partStopped 6

/-- One sample of both feeds (R494, R505). -/
def Dev.feedSample (d : Dev) (av bv aa ba : Nat) : Dev :=
  if d.power.stage = 0 then d
  else
    let w := d.power
    let low (v : Nat) : Bool := v < 42000
    let next (i v : Nat) : Nat := if low v then w.lowUs.getD i 0 + 1 else 0
    let both : Bool := low av && low bv
    let glitch : Bool := !both && 0 < w.bothLowUs && w.bothLowUs < 20
    let d := if d.managerStopped then d
      else ((d.put (pf 8 0x108) (min 65535 (aa / 10) * 65536 + min 65535 (av / 10))).put (pf 8 0x10C)
        (min 65535 (ba / 10) * 65536 + min 65535 (bv / 10))).put (pf 8 0x110) (min 65535 ((av * aa + bv * ba) / 10 ^ 6))
    let d := { d with power := { w with
      feedOk := [!low av, !low bv], lowUs := [next 0 av, next 1 bv], bothLowUs := if both then w.bothLowUs + 1 else 0
      dark := w.dark && av < 20000 && bv < 20000 } }
    d.bump (pf 8 0x044) (b2n glitch)

/-- One feed alone has been low for 20 µs (R494): counted once for each time it falls. -/
def Dev.feedLow (d : Dev) (feedB : Bool) : Dev :=
  let i := b2n feedB
  let n := d.power.lowUs.getD i 0
  if d.power.stage = 0 || n < 20 || 2 ^ 32 ≤ n || d.power.lowUs.getD (1 - i) 0 != 0 then d
  else (({ d with power := { d.power with lowUs := d.power.lowUs.set i (2 ^ 32) } }).bump (pf 8 (if feedB then 0x04C else 0x048)) 1).environment 8

/-- A feed above 64 V is disconnected (R541). -/
def Dev.overvoltage (d : Dev) (feedB : Bool) : Dev :=
  let d := { d with power := { d.power with connected := d.power.connected.set (b2n feedB) false } }
  if d.power.stage = 0 then d else d.environment 8

/-- A disconnected feed is connected again (R541). -/
def Dev.reconnect (d : Dev) (feedB : Bool) : Dev := { d with power := { d.power with connected := d.power.connected.set (b2n feedB) true } }

/-! Sag and save -/

/-- The halt of a sag or a thermal trip (R485, R495, R552): the row stops and nothing more is posted. Before admission has started after
a POR or COLD, power goes without a save. -/
def Dev.halt (d : Dev) (trip : Bool) : Dev :=
  if d.inStart then let n := d.powerDown; { n with power := { n.power with l3 := !d.power.dark } }
  else
    ({ d with
      row := { d.row with running := false, slots := [] }
      power := { d.power with sag := true, trip := trip, pwrgd := false, saving := true, returned := false, warmCause := 0 } }).alert

/-- A sag declared after 20 µs of both feeds below 42 V (R494, R495). -/
def Dev.sagDeclare (d : Dev) : Dev := if d.power.stage != 2 || d.power.sag || d.power.bothLowUs < 20 then d else d.halt false

/-- A strand as the save keeps it (R496). -/
def lostOf (id : Nat) (s : Strand) : Lost := ⟨s.cmd.q, id, s.cmd.cid, s.admitRow % 2 ^ 32, s.drops, s.counter % 2 ^ 32⟩

/-- The save (R496, R502): ADMITTED and RUNNING strands, current epochs, class K registers, log and row; TRIPPED stays only after a trip
(R557), and the hours since the last bank check are kept (R500). -/
def Dev.saveOf (d : Dev) (m : Perm) (ok : Bool) (tenUs mJ : Nat) : Save :=
  let d := d.put (pf 8 0x118) (d.bankHours * 65536 + d.bankUf)
  let d := if d.power.trip then d else d.putBits (pf 0xA 0x114) 8 8 0
  { number := maxNat (m.saves.map (·.number)) + 1, valid := ok, consumed := false, tenUs := tenUs, mJ := mJ
    strands := (d.strands.filter fun p => p.2.state != 3 && p.2.part.isNone).map fun p => lostOf p.1 p.2
    directory := d.objs.filterMap fun p => p.2.cur.map fun e => (p.1, e)
    regs := d.regs.filter fun p => survOf p.1 == Surv.k && !isMsix p.1
    log := d.fault.log, rowNumber := d.row.number
    lost := d.tiers.lost.filter fun x => x.2.2.1 != 0
    damaged := d.objs.filterMap fun p => p.2.cur.bind fun e => if e.damaged.isEmpty then none else some (p.1, e.damaged) }

/-- The slot that does not hold the newest valid save is written (R496). -/
def Perm.addSave (m : Perm) (v : Save) : Perm :=
  let newest := maxNat ((m.saves.filter (·.valid)).map (·.number))
  { m with saves := (m.saves.filter fun s => s.valid && s.number == newest) ++ [v] }

/-- The closing record is written: L3, or the POR of R498 when the feeds have returned (R495, R498). -/
def Dev.saveDone (d : Dev) : Dev :=
  let n := d.powerDown
  if d.power.returned then { n with power := { n.power.rise with returned := true } } else { n with power := { n.power with l3 := !d.power.dark } }

/-- The feeds return while the save is written (R498). -/
def Dev.feedsReturn (d : Dev) : Dev :=
  if d.power.sag && d.power.saving then { d with power := { d.power with returned := true, dark := false, feedOk := [true, true] } } else d

/-- Both feeds below 20 V: every rail is off, except that a save in progress completes on the bank (R495, R543). -/
def Dev.feedsOff (d : Dev) : Dev :=
  let d := { d with power := { d.power with feedOk := [false, false], dark := true } }
  if d.power.sag && d.power.saving then { d with power := { d.power with returned := false } } else d.powerDown

/-! The bank -/

/-- A health check starts (R499, R500). -/
def Dev.bankCheck (d : Dev) : Dev := if d.power.stage = 0 || d.power.sag then d else { d with power := { d.power with measuring := true } }

/-- A health check ends (R500, R501); it waits while the power-manager firmware is stopped (R507). -/
def Dev.bankDone (d : Dev) (uF : Nat) : Dev :=
  if !d.power.measuring || d.managerStopped then d
  else
    let d := (({ d with power := { d.power with measuring := false, bankAt := d.row.timeNs } }).put (pf 8 0x118) (uF % 65536)).bump (pf 8 0x064) 1
    let d := d.put (pf 8 0x114) 5600
    if d.bankAlarm then (d.environment 8).spareLow 8 true else d

/-! L2 -/

/-- L2 requested (R492): refused on a module that forms or serves in a cascade. -/
def Dev.standbySet (d : Dev) : Dev :=
  if d.cas.state = 1 || d.cas.state = 2 then d.put (pf 8 0x100) (2 ^ 26)
  else if d.power.standby then d
  else { d with power := { d.power with standby := true, standbyRow := d.row.number } }

/-- The boundary at which no strand is in flight: the row stops (R492). -/
def Dev.l2Enter (d : Dev) : Dev :=
  if !d.power.standby || d.power.l2 || !d.row.running || d.strands.any (·.2.state != 3) then d
  else
    let n := d.endSlots.enterAll.countRow.settle.releaseStrands
    ({ n with row := { n.row with running := false, slots := [] }, power := { n.power with l2 := true }, snapStrands := [] }).bump (pf 8 0x068) 1

/-- L2 ends (R493): the row restarts with the row after the one before L2; a waiting publish takes effect at the boundary after. -/
def Dev.standbyClear (m : Perm) (d : Dev) : Perm × Dev :=
  if !d.power.l2 then (m, { d with power := { d.power with standby := false } })
  else
    let d := { d with row := { d.row with running := true, planned := true }, power := { d.power with standby := false, l2 := false } }
    let due := d.row.number + 2
    let d := { d with pub := d.pub.map fun (p : Pub) => if p.due < untilGo then { p with due := due } else p }
    let r := Dev.activate m d.nextRow
    (r.1, r.2.head)

/-- PW_CTRL written (R492, R493). -/
def Dev.standbyWrite (m : Perm) (d : Dev) (v : Nat) : Perm × Dev := if bit v 0 then (m, d.standbySet) else d.standbyClear m

/-! Temperatures -/

/-- The register field of a sensor (R205, R557): 0 Heldor junction, 1 and 2 the Zorber dies, 3 coolant outlet, 4 to 15 the HBM4 stacks. -/
def Dev.putTemp (d : Dev) (sensor v : Nat) : Dev :=
  match sensor with
  | 0 => d.putBits (pf 0xA 0x108) 27 16 v
  | 1 => d.putBits (pf 0xA 0x10C) 27 16 v
  | 2 => d.putBits (pf 0xA 0x10C) 11 0 v
  | 3 => d.putBits (pf 0xA 0x110) 27 16 v
  | _ => if sensor < 16 then d.putBits (pf (0x090 + sensor - 4) 0x104) 11 0 v else d

/-- Warning and trip thresholds in 0.125 °C (R552); the outlet has no trip. -/
def warnAt (sensor : Nat) : Nat := if sensor < 3 then 800 else if sensor = 3 then 520 else 760
def tripAt (sensor : Nat) : Option Nat := if sensor < 3 then some 880 else if sensor = 3 then none else if sensor < 16 then some 840 else none
/-- The page that reports a sensor. -/
def sensorPage (sensor : Nat) : Nat := if sensor < 4 then 0xA else 0x090 + sensor - 4

/-- MG_THERM.WARNING. -/
def Dev.setWarning (d : Dev) : Dev := d.putBits (pf 0xA 0x114) 0 0 (b2n !d.mgmt.warm.isEmpty)

/-- A sensor reaches its warning threshold (R544, R552). -/
def Dev.thermalWarning (d : Dev) (sensor v : Nat) : Dev :=
  if d.power.stage = 0 || 16 ≤ sensor then d
  else
    let d := d.putTemp sensor v
    if v < warnAt sensor || d.mgmt.warm.contains sensor then d.alert
    else ((({ d with mgmt := { d.mgmt with warm := d.mgmt.warm ++ [sensor] } }).setWarning.environment (sensorPage sensor)).bump (pf 0xA 0x04C) 1).alert

/-- A warning clears 5 °C below its threshold (R552). -/
def Dev.thermalClear (d : Dev) (sensor v : Nat) : Dev :=
  if d.power.stage = 0 || 16 ≤ sensor then d
  else
    let d := d.putTemp sensor v
    if v + 40 ≤ warnAt sensor then ({ d with mgmt := { d.mgmt with warm := d.mgmt.warm.filter (· != sensor) } }).setWarning.alert else d.alert

/-- A sensor at its trip threshold (R552): the trip is recorded, and the sag sequence runs from its halt. -/
def Dev.thermalTrip (d : Dev) (sensor v : Nat) : Dev :=
  if d.power.stage = 0 || 16 ≤ sensor then d
  else
    let d := d.putTemp sensor v
    if (tripAt sensor).elim true (fun t => decide (v < t)) || d.power.stage != 2 || d.power.sag then d.alert
    else
      let d := (d.putBits (pf 0xA 0x114) 8 8 1).put64 (pf 0xA 0x120) d.row.number
      (d.logEvent (sensorPage sensor) 0x01 0 0 0 0x0701).halt true

/-! The meanings -/

/-- VF_FLR (R87): a TENANT reset, absorbed by a wider one (R485). -/
def execVfFlr (vf : Nat) (s : State) : Host.Outcome State Fault Refusal :=
  .next { s with dev := s.dev.host fun d => d.tenantReset vf }

/-- VF_BME_CLEAR (R88). -/
def execVfBmeClear (vf : Nat) (s : State) : Host.Outcome State Fault Refusal :=
  .next { s with dev := s.dev.host fun d => d.tenantReset vf }

/-- PF_FLR (R89). -/
def execPfFlr (s : State) : Host.Outcome State Fault Refusal := .next { s with dev := s.dev.pfReset }

/-- PERST_N_ASSERT (R537). -/
def execPerstAssert (s : State) : Host.Outcome State Fault Refusal := .next { s with dev := s.dev.perstLow }

/-- PERST_N_DEASSERT (R539). -/
def execPerstDeassert (s : State) : Host.Outcome State Fault Refusal := .next { s with dev := s.dev.perstHigh }

/-- STRAP_CHANGE (R539). -/
def execStrapChange (slotId : Nat) (masterLow : Bool) (s : State) : Host.Outcome State Fault Refusal :=
  .next { s with dev := s.dev.strapChange slotId masterLow }

/-- POWER_TURN_ON (R540, R542). -/
def execPowerTurnOn (feedB loadersOk : Bool) (s : State) : Host.Outcome State Fault Refusal :=
  .next { s with dev := s.dev.turnOn feedB loadersOk }

/-- POWER_ON_RESET (R488): the start of POR or COLD, with the PF slots that fail self-test. -/
def execPowerOnReset (failed : List Nat) (s : State) : Host.Outcome State Fault Refusal :=
  .next { s with dev := s.dev.start s.perm failed }

/-- REBUILD_DONE (R489). -/
def execRebuildDone (s : State) : Host.Outcome State Fault Refusal := .next { s with dev := s.dev.rebuildDone }

/-- BANK_CHARGED (R489, R499). -/
def execBankCharged (s : State) : Host.Outcome State Fault Refusal := .next { s with dev := s.dev.bankCharged }

/-- DROP_LOST (R504). -/
def execDropLost (s : State) : Host.Outcome State Fault Refusal := .next { s with dev := s.dev.host fun d => d.dropLost }

/-- FEED_SAMPLE (R494). -/
def execFeedSample (aMv bMv aMa bMa : Nat) (s : State) : Host.Outcome State Fault Refusal :=
  .next { s with dev := s.dev.feedSample aMv bMv aMa bMa }

/-- FEED_LOW (R494). -/
def execFeedLow (feedB : Bool) (s : State) : Host.Outcome State Fault Refusal := .next { s with dev := s.dev.feedLow feedB }

/-- SAG_DECLARE (R495). -/
def execSagDeclare (s : State) : Host.Outcome State Fault Refusal :=
  .next { s with dev := s.dev.sagDeclare, perm := s.perm.record s.dev }

/-- SAVE_DONE (R495, R496, R498). -/
def execSaveDone (ok : Bool) (tenUs mJ : Nat) (s : State) : Host.Outcome State Fault Refusal :=
  if s.dev.power.sag && s.dev.power.saving then
    .next { s with dev := s.dev.saveDone, perm := (s.perm.record s.dev).addSave (s.dev.saveOf s.perm ok tenUs mJ) }
  else .next s

/-- FEEDS_RETURN (R498). -/
def execFeedsReturn (s : State) : Host.Outcome State Fault Refusal := .next { s with dev := s.dev.feedsReturn }

/-- FEEDS_OFF (R543). -/
def execFeedsOff (s : State) : Host.Outcome State Fault Refusal :=
  .next { s with dev := s.dev.feedsOff, perm := s.perm.record s.dev }

/-- FEED_OVERVOLTAGE (R541). -/
def execFeedOvervoltage (feedB : Bool) (s : State) : Host.Outcome State Fault Refusal := .next { s with dev := s.dev.overvoltage feedB }

/-- FEED_RECONNECT (R541). -/
def execFeedReconnect (feedB : Bool) (s : State) : Host.Outcome State Fault Refusal := .next { s with dev := s.dev.reconnect feedB }

/-- FEED_TRANSFER (R541): no effect on the module. -/
def execFeedTransfer (s : State) : Host.Outcome State Fault Refusal := .next s

/-- BANK_CHECK (R500). -/
def execBankCheck (s : State) : Host.Outcome State Fault Refusal := .next { s with dev := s.dev.host fun d => d.bankCheck }

/-- BANK_CHECK_DUE (R500). -/
def execBankCheckDue (s : State) : Host.Outcome State Fault Refusal := .next { s with dev := s.dev.bankCheck }

/-- BANK_CHECK_DONE (R500, R501). -/
def execBankCheckDone (uF : Nat) (s : State) : Host.Outcome State Fault Refusal := .next { s with dev := s.dev.bankDone uF }

/-- STANDBY_SET (R492). -/
def execStandbySet (s : State) : Host.Outcome State Fault Refusal := .next { s with dev := s.dev.host fun d => d.standbySet }

/-- L2_ENTER (R492). -/
def execL2Enter (s : State) : Host.Outcome State Fault Refusal := .next { s with dev := s.dev.l2Enter }

/-- STANDBY_CLEAR (R493). -/
def execStandbyClear (s : State) : Host.Outcome State Fault Refusal :=
  let r := if s.dev.up then s.dev.standbyClear s.perm else (s.perm, s.dev)
  .next { s with dev := r.2, perm := r.1 }

/-- THERMAL_WARNING (R552). -/
def execThermalWarning (sensor eighths : Nat) (s : State) : Host.Outcome State Fault Refusal :=
  .next { s with dev := s.dev.thermalWarning sensor eighths }

/-- THERMAL_WARNING_CLEAR (R552). -/
def execThermalWarningClear (sensor eighths : Nat) (s : State) : Host.Outcome State Fault Refusal :=
  .next { s with dev := s.dev.thermalClear sensor eighths }

/-- THERMAL_TRIP (R552). -/
def execThermalTrip (sensor eighths : Nat) (s : State) : Host.Outcome State Fault Refusal :=
  .next { s with dev := s.dev.thermalTrip sensor eighths, perm := s.perm.record s.dev }

end Sys2Proof.Machine
end

