-- ==== Sys2Proof/Machine/Firmware.lean ====
section
/-! DEFINITION. Firmware updates: the phases of FW_TRANSFER, the header checks, digests, the rewrite and its reports, rollback, revert and
the PLDM path (R506 to R530). -/

namespace Sys2Proof.Machine

/-! The package header -/

/-- Header bytes of a package of seven parts (R512). -/
def hdrLen : Nat := 1056
/-- SEC_VERSION and BODY_LEN of a header (R512). -/
def fwSec (h : List Byte) : Nat := leAt h 0x0C 4
def fwBodyLen (h : List Byte) : Nat := leAt h 0x10 8
/-- OFFSET and LENGTH of manifest entry i (R513). -/
def fwOff (h : List Byte) (i : Nat) : Nat := leAt h (fwEntry i + 0x10) 8
def fwLen (h : List Byte) (i : Nat) : Nat := leAt h (fwEntry i + 0x18) 8

/-- Largest image of a part (R507). -/
def partMax (p : Nat) : Nat :=
  match p with
  | 1 => 16 * 2 ^ 20
  | 2 => 4 * 2 ^ 20
  | 3 => 2 * 2 ^ 20
  | 4 => 4 * 2 ^ 20
  | 5 => 2 ^ 20
  | 6 => 512 * 2 ^ 10
  | 7 => 2 ^ 20
  | _ => 0

/-- All of some bytes are 0. -/
def zeroAt (h : List Byte) (off n : Nat) : Bool := leAt h off n == 0

/-- A reserved bit of the header or of an entry is set (R512, R513). -/
def fwReserved (h : List Byte) : Bool :=
  bits (leAt h 0x08 4) 31 25 != 0 || !zeroAt h 0x20 32 || (List.range 7).any fun i =>
    let e := fwEntry i
    !zeroAt h (e + 1) 3 || !zeroAt h (e + 8) 8 || !zeroAt h (e + 0x72) 2 || !zeroAt h (e + 0x74) 12 ||
      (List.range 4).any fun k => !zeroAt h (e + 0x50 + 8 * k + 1) 3

/-- A LENGTH is out of range, or images overlap or lie beyond BODY_LEN (R517). -/
def fwImagesBad (h : List Byte) : Bool :=
  let all := List.range 7
  all.any (fun i => fwLen h i == 0 || partMax (leAt h (fwEntry i) 1) < fwLen h i || fwBodyLen h < fwOff h i + fwLen h i) ||
    all.any fun i => all.any fun j => i != j && fwOff h i < fwOff h j + fwLen h j && fwOff h j < fwOff h i + fwLen h i

/-- Order 1 of R517. -/
def fwManifestBad (h : List Byte) : Bool :=
  h.length < hdrLen || leAt h 0 4 != 0x474B504B || leAt h 4 2 != 1 || leAt h 6 2 != hdrLen || bits (leAt h 0x08 4) 23 16 != 7 ||
    (List.range' 1 7).any (fun p => (fwIndex h p).isNone) || fwReserved h || fwImagesBad h

/-- Order 3 of R517. -/
def fwTargetBad (h : List Byte) : Bool :=
  leAt h 0x08 2 != 0xB102 || leAt h 0x1A 2 != 2 || (List.range 7).any fun i => leAt h (fwEntry i + 0x70) 2 != 0xB102

/-- A dependency names a part whose VERSION in the package is lower (R517). -/
def fwDepsBad (h : List Byte) : Bool :=
  (List.range 7).any fun i => (List.range 4).any fun k =>
    let o := fwEntry i + 0x50 + 8 * k
    leAt h o 1 != 0 && fwVersion h (leAt h o 1) < leAt h (o + 4) 4

/-- The minor granted to a running queue pair, the admin queue's among them, is above a minor (R517). -/
def Dev.minorHeld (d : Dev) (minor : Nat) : Bool :=
  (d.pages.any fun p => p.2.running && match pageQueue p.1 with | some q => minor < bits (d.rg (queueReg q 0x120 0)) 15 0 | none => false) ||
    (d.queueOn ⟨0, 0⟩ && minor < bits (d.rg (pf 0xC 0x11C)) 23 16)

/-- Order 5 of R517. -/
def Dev.fwDependency (d : Dev) (h : List Byte) : Bool :=
  fwDepsBad h || d.minorHeld (leAt h 0x18 2) ||
    (residentPatterns d.objs).any fun c => let f := (pattern c.bytes).format; f < leAt h 0x1C 2 || leAt h 0x1E 2 < f

/-- The checks of R517 on a header: the code of the first failure. -/
def Dev.headerCheck (d : Dev) (m : Perm) (h : List Byte) : Option Nat :=
  if fwManifestBad h then some 0x0A01
  else if !Config.verifies (h.take hdrLen) then some 0x0802
  else if fwTargetBad h then some 0x0A03
  else if fwSec h < m.floor then some 0x0804
  else if d.fwDependency h then some 0x0A02
  else none

/-! Receiving -/

/-- A header accepted on a path (R515, R530). -/
def Dev.receive (d : Dev) (h : List Byte) (path : Nat) : Dev :=
  ({ d with fw := { Fw.reset with state := 1, path := path, header := h.take hdrLen } }).bump (pf 0xB 0x040) 1

/-- A range of bytes joined to those received: the ranges stay apart and each byte counts once (R516, R518). -/
def addRange (lo hi : Nat) (l : List (Nat × Nat)) : List (Nat × Nat) :=
  let touch := l.filter fun r => r.1 ≤ hi && lo ≤ r.2
  let apart := l.filter fun r => !(r.1 ≤ hi && lo ≤ r.2)
  insertBy (fun a b => decide (a.1 ≤ b.1)) (touch.foldl (fun m r => min m r.1) lo, touch.foldl (fun m r => max m r.2) hi) apart

/-- Bytes written into STAGING (R518). -/
def Fw.store (f : Fw) (off : Nat) (bs : List Byte) : Fw :=
  if bs.isEmpty then f else { f with body := f.body.writeN off bs, got := addRange off (off + bs.length) f.got }

/-- The bytes of an image have all been received. -/
def Fw.hasImage (f : Fw) (i : Nat) : Bool := f.got.any fun r => r.1 ≤ fwOff f.header i && fwOff f.header i + fwLen f.header i ≤ r.2

/-- SHA-384 of a staged image (log 10). -/
def Fw.digest (f : Fw) (i : Nat) : List Byte :=
  let data := f.body.readN (fwOff f.header i) (fwLen f.header i)
  (List.range 48).map (Config.cipherByte 0 data)

/-- The manifest entries by ascending part ID. -/
def fwParts (h : List Byte) : List (Nat × Nat) := (List.range' 1 7).filterMap fun p => (fwIndex h p).map fun i => (p, i)

/-- The checks of R519: the failing part and the code. -/
def Dev.commitCheck (d : Dev) (f : Fw) : Option (Nat × Nat) :=
  match (fwParts f.header).find? (fun x => !f.hasImage x.2) with
  | some x => some (x.1, 0x0A01)
  | none => match (fwParts f.header).find? (fun x => f.digest x.2 != slice f.header (fwEntry x.2 + 0x20) 48) with
    | some x => some (x.1, 0x0803)
    | none => if d.fwDependency f.header then some (0, 0x0A02) else none

/-! The rewrite -/

/-- The directory once every part matches (R522, R525). -/
def Perm.rotate (m : Perm) (f : Fw) : Perm :=
  let c := m.roles.getD 0 0
  let p := m.roles.getD 1 1
  let s := m.roles.getD 2 2
  if f.revert then { m with roles := [p, c, s], seeds := m.seeds.set s none }
  else { m with roles := [s, c, p], seeds := m.seeds.set s (some ⟨f.header, f.body.readN 0 (fwBodyLen f.header)⟩) }

/-- The new set starts at the next boundary (R522); on the PLDM path once ActivateFirmware asks for it (R528). -/
def Fw.applied (f : Fw) : Bool := f.state == 2 && !f.ready && f.waiting.isEmpty && !f.activating

/-- Every part has reported a match (R521, R522, R528). -/
def Dev.fwMatched (m : Perm) (d : Dev) : Perm × Dev :=
  if d.fw.path = 2 then (m, d.emit (.mctp 1 5 [0x18, 0]))
  else (m.rotate d.fw, { d with fw := { d.fw with activating := true } })

/-- The rewrite fails: every part written is written again from CURRENT (R523). -/
def Dev.fwFail (d : Dev) (part : Nat) : Dev :=
  { d with fw := { d.fw with state := 3, failed := part, waiting := sortBy (fun a b => decide (a ≤ b)) (d.fw.waiting ++ d.fw.rewritten), rewritten := [], attempts := [] } }

/-- The rewrite starts: the next plan is withheld, and parts whose image is the one in force are skipped (R508, R520). -/
def Dev.rewriteStart (m : Perm) (d : Dev) : Perm × Dev :=
  if d.fw.state != 2 || !d.fw.ready || !d.row.running then (m, d)
  else
    let old := match m.set 0 with | some s => s.header | none => []
    let all := List.range' 1 7
    let skip := all.filter fun p => !old.isEmpty && fwDigest old p == fwDigest d.fw.header p
    let write := all.filter fun p => !skip.contains p
    let d := ({ d with
      fw := { d.fw with ready := false, waiting := write, rewritten := [] }
      row := { d.row with planned := false, runonCause := 2 } }).bump (pf 0xB 0x054) skip.length
    if write.isEmpty then d.fwMatched m else (m, d)

/-- A rolled-back image fails its check for the third time (R524). -/
def Dev.fwStuck (d : Dev) : Dev := ((d.error 0xB 7 0x0801 0).logEvent 0xB 0x0A 0 0 0 0x0801).warmSoon 2

/-- A loader reports (R521 to R524). -/
def Dev.loaderReport (m : Perm) (d : Dev) (part : Nat) (ok : Bool) : Perm × Dev :=
  let f := d.fw
  if !f.waiting.contains part || f.activating || !d.inRunon then (m, d)
  else if f.state = 2 then
    if !ok then (m, d.fwFail part)
    else
      let d := { d with fw := { f with waiting := f.waiting.erase part, rewritten := f.rewritten ++ [part] } }
      if d.fw.waiting.isEmpty then d.fwMatched m else (m, d)
  else if ok then
    let left := f.waiting.erase part
    (m, { d with fw := { f with waiting := left, rewritten := f.rewritten ++ [part], activating := left.isEmpty, restoring := left.isEmpty } })
  else
    let d := { d with fw := { f with attempts := f.attempts ++ [part] } }
    (m, if (d.fw.attempts.filter (· == part)).length < 3 then d else d.fwStuck)

/-- 60 ms of run-on pass without every report (R521). -/
def Dev.rewriteTimeout (d : Dev) : Dev :=
  let f := d.fw
  if f.state != 2 || f.ready || f.waiting.isEmpty || d.runonRows * d.period < 60000 then d else d.fwFail (f.waiting.headD 0)

/-! The phases of FW_TRANSFER (R515) -/

/-- HEADER (R515, R517). -/
def Dev.fwHeader (m : Perm) (d : Dev) (c : Cmd) : Dev :=
  if d.fw.state != 0 then d.fwOwe c 0 0x0A04
  else match d.headerCheck m c.inp with
    | some code => d.fwOwe c 0 code
    | none => (d.receive c.inp 1).fwOwe c 0 0

/-- The code of a BODY or COMMIT in a state other than RECEIVING (R515). -/
def Fw.notReceiving (f : Fw) : Option Nat := if f.state = 0 then some 0x0A01 else if f.state = 1 then none else some 0x0A04

/-- BODY (R515, R518). -/
def Dev.fwBody (d : Dev) (c : Cmd) : Dev :=
  let off := c.dw 9 + 2 ^ 32 * c.dw 10
  match d.fw.notReceiving with
  | some code => d.fwOwe c 0 code
  | none =>
    if fwBodyLen d.fw.header < off + c.inLen then d.fwOwe c 0 0x0A01
    else ({ d with fw := d.fw.store off c.inp }).fwOwe c 0 0

/-- COMMIT (R515, R519): the digests are computed first. -/
def Dev.fwCommit (d : Dev) (c : Cmd) : Dev :=
  match d.fw.notReceiving with
  | some code => d.fwOwe c 0 code
  | none => if d.fw.hashing then d.fwOwe c 0 0x0A04 else { d with fw := { d.fw with hashing := true, cmd := some c } }

/-- CANCEL (R515): a COMMIT whose digests are being computed is refused; in IDLE it has no effect. -/
def Dev.fwCancel (d : Dev) (c : Cmd) : Dev :=
  if 2 ≤ d.fw.state then d.fwOwe c 0 0x0A04
  else if d.fw.state = 0 then d.fwOwe c 0 0
  else
    let cmd := d.fw.cmd
    let d := { d with fw := Fw.reset }
    let d := match cmd with | some x => d.fwOwe x 0 0x0A01 | none => d
    d.fwOwe c 0 0

/-- An image of a set fails its stored digest (R525). -/
def FwSet.bad (s : FwSet) : Bool :=
  (fwParts s.header).any fun x =>
    (List.range 48).map (Config.cipherByte 0 (slice s.body (fwOff s.header x.2) (fwLen s.header x.2))) != slice s.header (fwEntry x.2 + 0x20) 48

/-- REVERT (R515, R525). -/
def Dev.fwRevert (m : Perm) (d : Dev) (c : Cmd) : Dev :=
  if d.fw.state != 0 then d.fwOwe c 0 0x0A04
  else match m.set 1 with
    | none => d.fwOwe c 0 0x0A05
    | some s =>
      if s.bad then d.fwOwe c 0 0x0A05
      else if fwSec s.header < m.floor then d.fwOwe c 0 0x0804
      else if d.fwDependency s.header then d.fwOwe c 0 0x0A02
      else { d with fw := { Fw.reset with state := 2, path := 1, header := s.header, cmd := some c, revert := true, ready := true } }

/-- The digests have been computed (R519). -/
def Dev.digestDone (d : Dev) : Dev :=
  let f := d.fw
  if f.state != 1 || !f.hashing then d
  else
    match d.commitCheck f with
    | some (part, code) =>
      let n := { d with fw := { f with hashing := false, cmd := none } }
      (match f.cmd with | some c => n.fwDone c part code 0 | none => n.fwRefused part code)
    | none => { d with fw := { f with state := 2, hashing := false, ready := true } }

/-- One phase of FW_TRANSFER. -/
def Dev.fwPhase (m : Perm) (d : Dev) (c : Cmd) : Dev :=
  match c.dw 8 with
  | 0 => d.fwHeader m c
  | 1 => d.fwBody c
  | 2 => d.fwCommit c
  | 3 => d.fwCancel c
  | _ => d.fwRevert m c

/-! MCTP and PLDM for Firmware Update (R528, R553) -/

/-- The management block answers: from the standby rails up, outside a sag (R542, R553). -/
def Dev.managed (d : Dev) : Bool := d.power.stage != 0 && !d.power.sag

/-- An MCTP message received and its answer sent (R557). -/
def Dev.mctp (d : Dev) (type code : Nat) (data : List Nat) : Dev :=
  if d.managed then ((d.bump (pf 0xA 0x040) 1).bump (pf 0xA 0x044) 1).emit (.mctp type code data) else d

/-- A PLDM request answered, by PLDM type (R553, R557). -/
def Dev.pldm (d : Dev) (type : Nat) (data : List Nat) : Dev :=
  if d.managed then (d.mctp 1 type data).bump (pf 0xA 0x048) 1 else d

/-- RequestUpdate with its first transfer (R517, R527, R528). -/
def Dev.pldmRequest (m : Perm) (d : Dev) (h : List Byte) : Dev :=
  if !d.managed then d
  else match (if d.fw.state != 0 then some 0x0A04 else d.headerCheck m h) with
    | some code => (d.fwRefused 0 code).pldm 5 [0x10, code]
    | none => (d.receive h 2).pldm 5 [0x10, 0]

/-- TransferComplete and VerifyComplete (R519, R528). -/
def Dev.pldmVerify (d : Dev) (body : List Byte) : Dev :=
  if !d.managed || d.fw.path != 2 || d.fw.state != 1 then d
  else
    let f := d.fw.store 0 (body.take (fwBodyLen d.fw.header))
    match d.commitCheck f with
    | some (part, code) => (({ d with fw := f }).fwRefused part code).pldm 5 [0x16, code, part]
    | none => ({ d with fw := { f with state := 2, ready := true } }).pldm 5 [0x16, 0, 0]

/-- ActivateFirmware with self-contained activation (R522, R528). -/
def Dev.pldmActivate (m : Perm) (d : Dev) : Perm × Dev :=
  if !d.managed then (m, d)
  else if d.fw.path = 2 && d.fw.applied then (m.rotate d.fw, ({ d with fw := { d.fw with activating := true } }).pldm 5 [0x1A, 0])
  else (m, d.pldm 5 [0x1A, 0x0A01])

/-! The meanings -/

/-- DIGEST_DONE (R519). -/
def execDigestDone (s : State) : Host.Outcome State Fault Refusal := .next { s with dev := s.dev.digestDone }

/-- REWRITE_START (R520). -/
def execRewriteStart (s : State) : Host.Outcome State Fault Refusal :=
  let r := s.dev.rewriteStart s.perm
  .next { s with dev := r.2, perm := r.1 }

/-- LOADER_REPORT (R521 to R524). -/
def execLoaderReport (part : Nat) (ok : Bool) (s : State) : Host.Outcome State Fault Refusal :=
  let r := s.dev.loaderReport s.perm part ok
  .next { s with dev := r.2, perm := r.1 }

/-- REWRITE_TIMEOUT (R521). -/
def execRewriteTimeout (s : State) : Host.Outcome State Fault Refusal := .next { s with dev := s.dev.rewriteTimeout }

/-- PLDM_REQUEST_UPDATE (R528). -/
def execPldmRequestUpdate (header : List Byte) (s : State) : Host.Outcome State Fault Refusal :=
  .next { s with dev := s.dev.pldmRequest s.perm header }

/-- PLDM_TRANSFER_COMPLETE (R528). -/
def execPldmTransferComplete (body : List Byte) (s : State) : Host.Outcome State Fault Refusal :=
  .next { s with dev := s.dev.pldmVerify body }

/-- ACTIVATE_FIRMWARE (R528). -/
def execActivateFirmware (s : State) : Host.Outcome State Fault Refusal :=
  let r := s.dev.pldmActivate s.perm
  .next { s with dev := r.2, perm := r.1 }

end Sys2Proof.Machine
end

