-- ==== Sys2Proof/Machine/Decide.lean ====
section
/-! DEFINITION. The commands of the queues: fetching, the order of decisions, the effect of every opcode, the interrupt delay and host
DMA errors (R97, R100 to R108, R111, R117 to R122, R136 to R138, R423, R515). -/

namespace Sys2Proof.Machine

/-! Which command may be decided -/

/-- A command with a class whose decision is not a no-op waits while admission is held (R106, R120). -/
def Dev.heldCmd (d : Dev) (c : Cmd) : Bool := c.makesStrand && d.admHeld && !(c.isNoop && (d.validate c).isNone)

/-- A fence holds the oldest command of its queue until every earlier one has its final completion (R119). -/
def Qp.fenced (x : Qp) (c : Cmd) : Bool := c.fence && x.outstanding != x.waiting.length

/-- The oldest undecided command of a queue, when it may be decided now (R119, R120, R438). DESIGN CHOICE (log 72, point 6): ring order binds
no-ops too, so one behind a held or fenced command of its queue waits for it beyond the row that R106 names. -/
def Dev.ready (d : Dev) (x : Qp) : Option Cmd :=
  match x.waiting with
  | [] => none
  | c :: _ => if x.fenced c || d.heldCmd c || (d.spanHeld && d.spansFor c) then none else some c

/-- The place of a queue in the rounds of row n: the admin queue, then tenants from (n mod 16) + 1, then queue pairs (R118). -/
def turn (n key : Nat) : Nat :=
  if key < 64 then 0 else 64 * (1 + (key / 64 + 15 - n % 16) % 16) + key % 64

/-- Commands fetched in earlier rows, when there are any, come ahead of those fetched in the present one (R117; which carried commands: log 72,
point 13). -/
def Dev.carriedFirst (d : Dev) (l : List (Nat × Cmd)) : List (Nat × Cmd) :=
  let old := l.filter fun x => x.2.row != d.row.number
  if old.isEmpty then l else old

/-- Queues whose oldest command may be decided, in the order of a round (R117, R118). -/
def Dev.queuesReady (d : Dev) : List (Nat × Cmd) :=
  d.carriedFirst (sortBy (fun (a b : Nat × Cmd) => decide (turn d.row.number a.1 ≤ turn d.row.number b.1))
    (d.qps.filterMap fun p => (d.ready p.2).map fun c => (p.1, c)))

/-! The effect of a decision -/

/-- An abort by its operands: ABORT_ANY by strand, ABORT by strand or by queue pair and CID of its own tenant (R105, R107, R138). -/
def Cmd.abortOf (c : Cmd) : Cmd × Option Nat × Option (QRef × Nat) :=
  if c.opcode = 0x04 then (c, some (bits (c.dw 8) 13 0), none)
  else if bit (c.dw 8) 24 then (c, some (bits (c.dw 9) 13 0), none)
  else (c, none, some (⟨c.q.tenant, bits (c.dw 8) 21 16⟩, bits (c.dw 8) 15 0))

/-- RESET: it posts no completion (R105, R484). -/
def Dev.doReset (d : Dev) (c : Cmd) : Dev := if c.dw 8 = 0 then (d.forget c.q).requestWarm 1 else (d.forget c.q).cold 3

/-- A valid command takes effect by its opcode (R105). DESIGN CHOICE (log 72, point 5): an abort acts at the boundary after its decision, which
is the boundary after its fetch unless the command waits undecided past its row. -/
def Dev.perform (m : Perm) (d : Dev) (c : Cmd) : Dev :=
  match c.opcode with
  | 0x01 => d.commit (.command c.cid c.noIrq)
  | 0x02 => d.doReset c
  | 0x03 => d.fwPhase m c
  | 0x04 => { d with aborts := d.aborts ++ [c.abortOf] }
  | 0x28 => { d with aborts := d.aborts ++ [c.abortOf] }
  | 0x29 => { d with unpicks := d.unpicks ++ [(c, bits (c.dw 8) 11 0, c.dw 9)] }
  | _ => d.decideWork c

/-- A command decided: validated, then refused or performed (R103, R117). -/
def Dev.decideOne (m : Perm) (d : Dev) (key : Nat) (c : Cmd) : Dev :=
  let d := d.modQp c.q fun x => { x with waiting := x.waiting.tail }
  let d := { d with decided := d.decided + 1, served := d.served ++ [key] }
  match d.validate c with
  | some code => d.refuseCmd c code 0
  | none => d.perform m c

/-- The next decision of the row, in the order of its rounds, up to 512 in a row (R117, R118). -/
def Dev.decideNext (m : Perm) (d : Dev) : Dev :=
  if !d.up || 512 ≤ d.decided then d
  else
    let all := d.queuesReady
    match all.find? fun x => !d.served.contains x.1 with
    | some x => d.decideOne m x.1 x.2
    | none => match all with
      | x :: _ => ({ d with served := [] }).decideOne m x.1 x.2
      | [] => d

/-- A command fetched, and decided at once when no other command waits for a decision (R97, R117, log 42). -/
def Dev.take (m : Perm) (d : Dev) (c : Cmd) : Dev :=
  if !d.up || !d.canFetch c.q then d
  else
    let alone := d.undecided.isEmpty
    let d := d.fetch c
    if alone then d.decideNext m else d

/-- A command of the table taken from its queue: entry, opcode and per-command dwords. -/
def takeCmd (e : Entry) (opcode : Nat) (f : List Nat) (s : State) : Host.Outcome State Fault Refusal :=
  .next { s with dev := s.dev.take s.perm (s.dev.cmdOfEntry e opcode f) }

/-! Fetching and decisions -/

/-- ENTRY_FETCH (R97, R98, R100): the next entry of a queue with its input buffer. -/
def execEntryFetch (q : QRef) (entry input : List Byte) (s : State) : Host.Outcome State Fault Refusal :=
  .next { s with dev := if s.dev.up && s.dev.canFetch q then s.dev.fetch (s.dev.cmdOf q entry input) else s.dev }

/-- COMMAND_DECISION (R117, R118). -/
def execCommandDecision (s : State) : Host.Outcome State Fault Refusal := .next { s with dev := s.dev.decideNext s.perm }

/-- The delay of a queue's oldest pending entry has ended, and its vector is sent (R111). -/
def Dev.irqDelay (d : Dev) (q : QRef) : Dev :=
  let x := d.qp q
  let (_, rows, en, _) := d.irq q
  if d.up && en && 0 < x.irqPending && x.irqRow + rows < d.row.number then d.sendIrq q else d

/-- IRQ_DELAY_EXPIRY (R111). -/
def execIrqDelayExpiry (q : QRef) (s : State) : Host.Outcome State Fault Refusal := .next { s with dev := s.dev.irqDelay q }

/-! The commands of R105 -/

/-- PUBLISH (R74, R105). -/
def execPublish (e : Entry) (s : State) : Host.Outcome State Fault Refusal := takeCmd e 0x01 [] s
/-- RESET (R105, R484). -/
def execReset (e : Entry) (kind : Nat) (s : State) : Host.Outcome State Fault Refusal := takeCmd e 0x02 [kind] s
/-- ABORT_ANY (R107, R138). -/
def execAbortAny (e : Entry) (strand : Nat) (s : State) : Host.Outcome State Fault Refusal := takeCmd e 0x04 [strand] s
/-- OBJECT_LOAD_SHARED (R105, R151). -/
def execObjectLoadShared (e : Entry) (offset : Nat) (s : State) : Host.Outcome State Fault Refusal :=
  takeCmd e 0x05 [offset % 2 ^ 32, offset / 2 ^ 32] s
/-- EMBED (R105). -/
def execEmbed (e : Entry) (inputTokens : Bool) (outFmt : Nat) (s : State) : Host.Outcome State Fault Refusal :=
  takeCmd e 0x10 [b2n inputTokens, outFmt] s
/-- SEARCH (R105). -/
def execSearch (e : Entry) (f : SearchF) (s : State) : Host.Outcome State Fault Refusal := takeCmd e 0x11 (searchDw f) s
/-- RETRIEVE_RANK (R105). -/
def execRetrieveRank (e : Entry) (f : RetrieveF) (s : State) : Host.Outcome State Fault Refusal := takeCmd e 0x12 (retrieveDw f) s
/-- RANK (R105). -/
def execRank (e : Entry) (batch itemLen : Nat) (s : State) : Host.Outcome State Fault Refusal := takeCmd e 0x13 [batch, itemLen] s
/-- EMBED_LOOKUP (R105). -/
def execEmbedLookup (e : Entry) (bags lookups pool outFmt : Nat) (s : State) : Host.Outcome State Fault Refusal :=
  takeCmd e 0x14 [bags, lookups, pool, outFmt] s
/-- EMBED_UPDATE (R105). -/
def execEmbedUpdate (e : Entry) (rowsIn optimiser rate : Nat) (s : State) : Host.Outcome State Fault Refusal :=
  takeCmd e 0x15 [rowsIn, optimiser, rate] s
/-- GENERATE (R105). -/
def execGenerate (e : Entry) (f : GenF) (s : State) : Host.Outcome State Fault Refusal := takeCmd e 0x18 (genDw f 0) s
/-- RETRIEVE_GENERATE (R105). -/
def execRetrieveGenerate (e : Entry) (f : GenF) (retrieveOff : Nat) (s : State) : Host.Outcome State Fault Refusal :=
  takeCmd e 0x19 (genDw f retrieveOff) s
/-- INDEX_INSERT (R105). -/
def execIndexInsert (e : Entry) (count : Nat) (s : State) : Host.Outcome State Fault Refusal := takeCmd e 0x20 [count] s
/-- INDEX_DELETE (R105). -/
def execIndexDelete (e : Entry) (count : Nat) (s : State) : Host.Outcome State Fault Refusal := takeCmd e 0x21 [count] s
/-- INDEX_BUILD (R105). -/
def execIndexBuild (e : Entry) (neighbours dim metric indexClass : Nat) (s : State) : Host.Outcome State Fault Refusal :=
  takeCmd e 0x22 [neighbours, dim, metric % 16 * 256 + indexClass % 16] s
/-- OBJECT_LOAD (R105, R151). -/
def execObjectLoad (e : Entry) (offset : Nat) (s : State) : Host.Outcome State Fault Refusal :=
  takeCmd e 0x23 [offset % 2 ^ 32, offset / 2 ^ 32] s
/-- ABORT (R107). -/
def execAbort (e : Entry) (byStrand : Bool) (targetQp targetCid strand : Nat) (s : State) : Host.Outcome State Fault Refusal :=
  takeCmd e 0x28 [b2n byStrand * 2 ^ 24 + targetQp % 64 * 65536 + targetCid % 65536, strand] s
/-- MARKER_UNPICK (R105, R423). -/
def execMarkerUnpick (e : Entry) (marker value : Nat) (s : State) : Host.Outcome State Fault Refusal := takeCmd e 0x29 [marker, value] s

/-! The phases of FW_TRANSFER (R515) -/

/-- FW_HEADER: PHASE 0. -/
def execFwHeader (e : Entry) (s : State) : Host.Outcome State Fault Refusal := takeCmd e 0x03 [0] s
/-- FW_BODY: PHASE 1 with its offset in the body. -/
def execFwBody (e : Entry) (offset : Nat) (s : State) : Host.Outcome State Fault Refusal :=
  takeCmd e 0x03 [1, offset % 2 ^ 32, offset / 2 ^ 32] s
/-- FW_COMMIT: PHASE 2. -/
def execFwCommit (e : Entry) (s : State) : Host.Outcome State Fault Refusal := takeCmd e 0x03 [2] s
/-- FW_CANCEL: PHASE 3. -/
def execFwCancel (e : Entry) (s : State) : Host.Outcome State Fault Refusal := takeCmd e 0x03 [3] s
/-- FW_REVERT: PHASE 4. -/
def execFwRevert (e : Entry) (s : State) : Host.Outcome State Fault Refusal := takeCmd e 0x03 [4] s

/-! Host DMA errors (R108) -/

/-- DMA_ERR of a queue and of its tenant (R92, R108). -/
def Dev.dmaError (d : Dev) (q : QRef) : Dev :=
  let d := d.setQueueBit q 3 true
  if q.tenant = 0 then d else (d.bump (regKey q.tenant 0x044) 1).event q.tenant 1

/-- A read of a command's input buffer fails: it completes HOST_DMA_ERR (R108, R109). -/
def Dev.readError (d : Dev) (q : QRef) (cid : Nat) : Dev :=
  match d.strands.find? fun p => p.2.state != 3 && p.2.part.isNone && p.2.cmd.q == q && p.2.cmd.cid == cid with
  | some p => (d.dmaError q).endNow p.1 0x15 0 0
  | none => match (d.qp q).waiting.find? fun c => c.cid == cid with
    | some c => ((d.modQp q fun x => { x with waiting := x.waiting.erase c }).dmaError q).finishNoStrand c 0x15 0 0 0
    | none => d

/-- HOST_DMA_READ_ERROR (R108). -/
def execHostDmaReadError (q : QRef) (cid : Nat) (s : State) : Host.Outcome State Fault Refusal :=
  .next { s with dev := s.dev.host fun d => d.readError q cid }

/-- A write is refused by the host: the queue stops, and its commands end without completions (R108, R141). DESIGN CHOICE (log 72, point 7): an
ABORT or MARKER_UNPICK of the queue that has been decided already acts at the next boundary and posts its completion there. -/
def Dev.stopQueue (d : Dev) (q : QRef) : Dev :=
  if !d.queueOn q then d
  else
    let d := d.setQueueBit q 0 true
    let d := if q.tenant = 0 then d else (d.bump (regKey q.tenant 0x040) 1).event q.tenant 0
    let ids := (d.strands.filter fun p => p.2.cmd.q == q && p.2.part.isNone).map (·.1)
    let d := ids.foldl (fun d id => d.endSilent id) d
    d.modQp q fun x => { x with waiting := [], outstanding := x.outstanding - x.waiting.length }

/-- HOST_WRITE_REFUSED (R108). -/
def execHostWriteRefused (q : QRef) (s : State) : Host.Outcome State Fault Refusal :=
  .next { s with dev := s.dev.host fun d => d.stopQueue q }

end Sys2Proof.Machine
end

