-- ==== Sys2Proof/Machine/Tiers.lean ====
section
/-! DEFINITION. The line code and the tiers: reads that return, recovery, lost lines and damaged granules, write verification and scrub
(R185, R192 to R201, R202, R205, R207). -/

namespace Sys2Proof.Machine

/-! The line code (R198) -/

/-- Multiplication by α in GF(2¹⁶) with the field polynomial x¹⁶ + x¹² + x³ + x + 1. -/
def gfX (a : Nat) : Nat := if 2 ^ 15 ≤ a then ((a * 2) % 2 ^ 16) ^^^ 0x100B else a * 2

/-- The product of two symbols. -/
def gfMul (a b : Nat) : Nat := (List.range 16).foldl (fun acc i => let s := gfX acc; if bit b (15 - i) then s ^^^ a else s) 0

/-- α to a power. -/
def gfPow (n : Nat) : Nat := (List.range n).foldl (fun a _ => gfX a) 1

/-- The product of a polynomial, highest power first, and x − r. -/
def gfTimesRoot (p : List Nat) (r : Nat) : List Nat := (p ++ [0]).zipWith (fun a b => a ^^^ b) (0 :: p.map fun c => gfMul c r)

/-- The generator g(x), highest power first. -/
def lineGen : List Nat := (List.range 6).foldl (fun g i => gfTimesRoot g (gfPow i)) [1]

/-- One step of the division by g: the remainder after one more data symbol. -/
def lineStep (r : List Nat) (d : Nat) : List Nat :=
  let f := (r.headD 0) ^^^ d
  (r.tail ++ [0]).zipWith (fun a g => a ^^^ gfMul f g) lineGen.tail

/-- The six check symbols of 32 data symbols, check symbol 0 first. -/
def lineCheck (data : List Nat) : List Nat := data.foldl lineStep [0, 0, 0, 0, 0, 0]

/-- The data symbols of a 64-byte line: symbol j is bytes 2j and 2j + 1, low first. -/
def lineSymbols (line : List Byte) : List Nat := (List.range 32).map fun j => leAt line (2 * j) 2

/-- A line as it is stored and carried: its bytes, then the check symbols as 12 bytes, check symbol 0 first, each least significant byte first. -/
def lineCoded (line : List Byte) : List Byte := line ++ (lineCheck (lineSymbols line)).flatMap (toLe 2)

/-- The syndromes of a 38-symbol word: its value at each root of g. -/
def syndromes (word : List Nat) : List Nat :=
  (List.range 6).map fun i => word.foldl (fun acc c => gfMul acc (gfPow i) ^^^ c) 0

/-- The outcome of a decode (R199). -/
inductive LineOutcome where
  | clean | corrected | uncorrectable
  deriving DecidableEq, Repr

/-- Symbols of a 38-symbol line that an error pattern changes. -/
def symbolErrors (errors : List (Nat × Nat)) : Nat :=
  ((List.range 38).filter fun p => ((errors.filter (·.1 == p)).foldl (fun a (e : Nat × Nat) => a ^^^ e.2) 0) % 65536 != 0).length

/-- What the decoder reports for an error pattern (R199); nothing is claimed above four symbols (log 11). -/
def lineOutcome (errors : List (Nat × Nat)) : LineOutcome :=
  let n := symbolErrors errors
  if n = 0 then .clean else if n ≤ 2 then .corrected else if n ≤ 4 then .uncorrectable
  else match Config.decodeBeyond errors with
    | none => .uncorrectable
    | some 0 => .clean
    | some _ => .corrected

/-! Where an error lies -/

/-- The fields of a location below KIND, as the kind lists them (R464). -/
def locMask (kind : Nat) : Nat :=
  match kind with
  | 2 => 0xFFFFFF000000
  | 3 => 0x1FFF00000000 * 256 + 0xFFFFFFFF
  | 4 => 0x7F00000000000 + 0xFFFFFFFF
  | 5 => 0xFFFC000000000 + 0xFFFFFFFF
  | 6 => 0xFF0000000000
  | _ => 0

/-- The kind of location of a line that a unit serves: SRAM, HBM, LPDDR, flash, lane (R464). -/
def serverKind (p : Nat) : Nat :=
  match typeOf p with
  | 0x15 => 3
  | 0x18 => if instOf p % 8 < 4 then 4 else if instOf p % 8 < 6 then 5 else 8
  | 0x16 => 6
  | 0x17 => 6
  | 0x0C => 2
  | _ => 8

/-- The location of a line in the unit that serves it (R464; log 26). -/
def lineLoc (p line : Nat) : Nat := serverKind p * 2 ^ 60 + Nat.land (Config.lineLocation p line) (locMask (serverKind p))

/-! Reads (R192 to R196) -/

/-- The late counter of the controller, link or Zorber function that served a read (R192, R205 to R207). -/
def lateCounter (p : Nat) : Option Nat :=
  match typeOf p with
  | 0x15 => some 0x040
  | 0x17 => some 0x048
  | 0x18 => if instOf p % 8 < 6 then some 0x040 else none
  | _ => none

/-- The compression engine of a Zorber die (R59, R207). -/
def engineOf (die : Nat) : Nat := 0x0B0 + 8 * (die % 2) + 6

/-- A page is an LPDDR group or a flash domain of a Zorber die (R207). -/
def zorberMemory (p : Nat) : Bool := typeOf p == 0x18 && instOf p % 8 < 6

/-- A read from a Zorber die: its engine decompresses the frame unless it is a raw one, which no rule shows (R200, R207; log 4). -/
def Dev.countFrame (d : Dev) (server : Nat) : Dev :=
  if zorberMemory server then (d.bumpK (pf (engineOf (instOf server / 8)) 0x044) (d.nextFree % 2)).passFree else d

/-- A late read of a flash domain: whether it needed read-retry, one cause of lateness, is free (R193, R207; log 4). -/
def Dev.countRetry (d : Dev) (server : Nat) : Dev :=
  if zorberMemory server && 4 ≤ instOf server % 8 then (d.bump (pf server 0x044) (d.nextFree % 2)).passFree else d

/-- A read served in a tier, and late when it returns after its planned latency (R192, R202). -/
def Dev.countRead (d : Dev) (tier server : Nat) (late : Bool) : Dev :=
  let d := (d.bumpK (pf (0x010 + tier) 0x040) 1).countFrame server
  if late then
    let d := (d.bump (pf (0x010 + tier) 0x044) 1).countRetry server
    match lateCounter server with | some o => d.bump (pf server o) 1 | none => d
  else d

/-- The source of a stitch input that a tier delivers; T0 delivers within the stitch. -/
def tierSrc (tier : Nat) : Option Src := match tier with | 1 => some .t1 | 2 => some .t2 | 3 => some .t3 | _ => none

/-- A read that a cut stitch left outstanding returns: its data stays in the strand's T0 scratch (R32). -/
def Strand.readBack (s : Strand) (src : Src) : Strand :=
  if s.reading.contains src then { s with reading := s.reading.erase src, scratch := s.scratch ++ [src] } else s

/-- A read has returned: an outstanding input of a running stitch, or one that a cut stitch left to its members (R32). -/
def Dev.delivered (d : Dev) (slot : Nat) (member : Option Nat) (tier : Nat) : Dev :=
  match tierSrc tier, d.row.slots[slot]? with
  | some src, some s =>
    if s.phase = 1 && s.inputs.contains ⟨member, src⟩ then
      d.modSlot slot fun s => { s with inputs := s.inputs.erase ⟨member, src⟩, got := s.got ++ [⟨member, src⟩] }
    else (match member with | some id => [id] | none => s.members).foldl (fun d id => d.modStrand id fun x => x.readBack src) d
  | _, _ => d

/-- The read of a stitch waits for a line, or returned it poisoned: its step drops with TIER_ERR unless recovery ends first (R193, R194). -/
def Dev.lineWaits (d : Dev) (slot : Nat) (member : Option Nat) : Dev := d.modSlot slot fun s => { s with tierErr := s.tierErr ++ [member] }

/-- The tenants of the strands that a read of a stitch serves. -/
def Dev.readers (d : Dev) (slot : Nat) (member : Option Nat) : List Nat :=
  let ids := match member with | some id => [id] | none => (d.row.slots[slot]?).elim [] (·.members)
  (ids.filterMap fun id => (nget d.strands id).map fun (s : Strand) => s.cmd.q.tenant).eraseDups

/-- A poisoned line reaches a stitch, which counts once for each of its tenants (R194, R480). -/
def Dev.poison (d : Dev) (slot : Nat) (member : Option Nat) : Dev :=
  let known := (d.row.slots[slot]?).elim [] (·.poisoned)
  let ts := (d.readers slot member).filter fun t => !known.contains t
  (ts.foldl (fun d t => d.tenantFault t 0x070 1) d).modSlot slot fun s => { s with poisoned := s.poisoned ++ ts }

/-- The line is in the lost-line map of a tier (R194). -/
def Dev.isLost (d : Dev) (tier line : Nat) : Bool := d.tiers.lost.any fun x => x.1 == tier && x.2.1 == line

/-- The epoch of an object that a reading stitch pins: of the member it reads for, or of its first one (R153). -/
def Dev.readerStamp (d : Dev) (slot : Nat) (member : Option Nat) (handle : Nat) : Nat :=
  let id := member.or (d.row.slots[slot]?.bind fun s => s.members.head?)
  match id.bind fun i => (nget d.strands i).bind fun s => s.pins.find? fun p => p.1 == handle with
  | some p => p.2
  | none => ((d.obj handle).cur.elim 0 (·.stamp))

/-- A tier read returns its line (R192 to R194, R197, R199). -/
def Dev.tierRead (d : Dev) (tier server slot : Nat) (member : Option Nat) (late : Bool) (errors : List (Nat × Nat)) (line handle granule : Nat) :
    Dev :=
  if !d.up || 3 < tier then d
  else
    let d := (d.countRead tier server late).delivered slot member tier
    if d.isLost tier line then (d.poison slot member).lineWaits slot member
    else match lineOutcome errors with
      | .clean => d
      | .corrected => d.report server 1 2 (lineLoc server line) 0
      | .uncorrectable =>
        let r : Recovery := ⟨line, tier, server, handle, granule, d.readerStamp slot member handle, slot, member, d.row.number⟩
        let d := (d.lineWaits slot member).report server 2 2 (lineLoc server line) 0
        { d with tiers := { d.tiers with recoveries := d.tiers.recoveries ++ [r] } }

/-! Recovery (R193 to R196) -/

/-- The counter of rebuilt lines of the unit that served a read (R205, R207). -/
def Dev.countRebuilt (d : Dev) (r : Recovery) : Dev :=
  let d := d.bump (pf (0x010 + r.tier) 0x048) 1
  match typeOf r.server with
  | 0x15 => d.bump (pf r.server 0x048) 1
  | 0x18 => if instOf r.server % 8 < 6 then d.bump (pf r.server 0x048) 1 else d
  | _ => d

/-- The stitches that waited for a recovered line go on. -/
def Dev.recovered (d : Dev) (r : Recovery) : Dev :=
  if r.row = d.row.number then d.modSlot r.slot fun s => { s with tierErr := s.tierErr.erase r.member } else d

/-- A granule of an object marked as damaged in every epoch, and in a shadow, that shares the copy a content has of it (R195). A shadow that has
its own copy has rewritten the granule already. -/
def Obj.damage (o : Obj) (h row g : Nat) (bad : Content) : Obj :=
  let shares (c : Content) : Bool := homeImage h c g == homeImage h bad g
  let apart (c : Option Content) : Bool := c.any fun x => !shares x
  let o := { o with epochs := o.epochs.map fun (e : Epoch) => if shares e.content then { e with damaged := (e.damaged ++ [g]).eraseDups } else e }
  if o.cur.any (fun e => shares e.content) || o.shadow.any shares then
    { o with damaged := (o.damaged ++ [g]).eraseDups
             repaired := (o.repaired.filter fun r => r.1 != g) ++ (if apart o.shadow then [(g, if apart o.settled then 0 else row)] else []) }
  else o

/-- The content whose granule a reader of an epoch reads. -/
def Obj.read (o : Obj) (stamp : Nat) : Content := (o.epoch stamp).elim o.base (·.content)

/-- A granule of the epoch that a reader pins is damaged (R195). -/
def Obj.isDamaged (o : Obj) (stamp g : Nat) : Bool := (match o.epoch stamp with | some e => e.damaged | none => o.damaged).contains g

/-- A lost home line marks its granule as damaged, which counts for the tenant whose object it is (R195, R480). -/
def Dev.damage (d : Dev) (handle stamp granule : Nat) : Dev :=
  match nget d.objs handle with
  | none => d
  | some o =>
    if o.isDamaged stamp granule then d
    else
      (((d.setObj handle (o.damage handle d.row.number granule (o.read stamp))).bump (pf 0x013 0x050) 1).put (pf 0x013 0x120) handle).tenantFault
        (handleOwner handle) 0x074 1

/-- A line declared lost (R194): working data in its tier, an object's line in its home tier T3. -/
def Dev.loseLine (d : Dev) (r : Recovery) : Dev :=
  let tier := if r.handle = 0 then r.tier else 3
  let d := if d.isLost tier r.line then d
    else ({ d with tiers := { d.tiers with lost := d.tiers.lost ++ [(tier, r.line, r.handle, r.granule)] } }).bump (pf (0x010 + tier) 0x04C) 1
  if r.handle = 0 then d else d.damage r.handle r.stamp r.granule

/-- The recovery of a line of a tier ends (R193 to R196): one recovery serves every reader. A line of T1 or T2 that came right when it was read
again was not rebuilt; working data has no home to rebuild from; a rebuilt line of a damaged granule is poisoned. -/
def Dev.recoveryDone (d : Dev) (tier line : Nat) (rebuilt reread : Bool) : Dev :=
  match d.tiers.recoveries.filter (fun r => r.tier == tier && r.line == line) with
  | [] => d
  | r :: rest =>
    let d := { d with tiers := { d.tiers with recoveries := d.tiers.recoveries.filter fun x => !(x.tier == tier && x.line == line) } }
    if reread && (tier == 1 || tier == 2) then (r :: rest).foldl (fun d x => d.recovered x) d
    else if !rebuilt || r.handle == 0 then d.loseLine r
    else if (d.obj r.handle).isDamaged r.stamp r.granule then
      (r :: rest).foldl (fun d x => if x.row = d.row.number then d.poison x.slot x.member else d) d
    else (r :: rest).foldl (fun d x => d.recovered x) (d.countRebuilt r)

/-! Writes and scrub -/

/-- A page compressed and verified before it is acknowledged (R184, R185): after a second mismatch it is stored raw, as is a page that would
not shrink. -/
def Dev.compressed (d : Dev) (die mismatches : Nat) (page : List Nat) : Dev :=
  if !d.up then d
  else
    let p := engineOf die
    let forced : Bool := decide (2 ≤ mismatches)
    let others := d.tiers.raw.filter (· != page)
    let d := { d with tiers := { d.tiers with raw := if forced then others ++ [page] else others } }
    let raw : Bool := storedBytes d.tiers.raw page == 76 * 64
    ((d.bump (pf p 0x048) (min mismatches 2)).bump (pf p 0x04C) (b2n raw)).bumpK (pf p 0x040) (b2n !raw)

/-- The counter of lines that a scrub corrects (R205, R207); flash domains count none. -/
def scrubCounter (p : Nat) : Option Nat :=
  match typeOf p with
  | 0x15 => some 0x04C
  | 0x18 => if instOf p % 8 < 4 then some 0x04C else none
  | _ => none

/-- Scrub of a Zorber memory waits while the firmware of its die or of its flash is rewritten (R507). -/
def Dev.scrubWaits (d : Dev) (p : Nat) : Bool := typeOf p == 0x18 && (d.partStopped 3 || d.partStopped 4)

/-- A scrub pass (R197, R201): corrected lines are written back, counted, and each starts the sequence of R466. -/
def Dev.scrub (d : Dev) (p corrected : Nat) : Dev :=
  if !d.up || d.scrubWaits p || !(typeOf p == 0x15 || (typeOf p == 0x18 && instOf p % 8 < 6)) then d
  else
    let d := match scrubCounter p with | some o => d.bump (pf p o) corrected | none => d
    (List.range corrected).foldl (fun d _ => (d.report p 1 3 (lineLoc p d.nextFree) 0).passFree) d

/-! The meanings -/

/-- TIER_READ_RETURN (R192 to R197). -/
def execTierReadReturn (tier server slot : Nat) (member : Option Nat) (late : Bool) (errors : List (Nat × Nat)) (line handle granule : Nat)
    (s : State) : Host.Outcome State Fault Refusal :=
  .next { s with dev := s.dev.tierRead tier server slot member late errors line handle granule }

/-- RECOVERY_DONE (R193 to R196). -/
def execRecoveryDone (line : TierLine) (rebuilt : LineEnd) (s : State) : Host.Outcome State Fault Refusal :=
  .next { s with dev := s.dev.recoveryDone line.tier line.line rebuilt.rebuilt rebuilt.reread }

/-- COMPRESSED_WRITE (R184, R185). -/
def execCompressedWrite (die : Nat) (mismatches : PageWrite) (s : State) : Host.Outcome State Fault Refusal :=
  .next { s with dev := s.dev.compressed die mismatches.mismatches mismatches.page }

/-- SCRUB_PASS (R201): blocks rewritten by a flash domain change no state that the spec names. -/
def execScrubPass (slot corrected _rewritten : Nat) (s : State) : Host.Outcome State Fault Refusal :=
  .next { s with dev := s.dev.scrub slot corrected }

end Sys2Proof.Machine
end

