-- ==== Sys2Proof/Machine/Markers.lean ====
section
/-! DEFINITION. The registers of the marker and view pages (R424, R426 to R428). -/

namespace Sys2Proof.Machine

/-- MK_HOLDER (R426). -/
def holderWord (h : Holder) : Nat :=
  match h with
  | .free => 0
  | .strand id tenant => 2 ^ 30 + tenant % 32 * 2 ^ 21 + id % 65536
  | .pattern page _ => 2 * 2 ^ 30 + (page - 0x50) % 65536

/-- The marker that a selection of a page names (R426). -/
def selectedMarker (p sel : Nat) : Nat := instOf p * 1024 + sel % 1024

/-- A write of MK_SEL latches the selected marker (R426). -/
def Dev.selectMarker (d : Dev) (p v : Nat) : Dev :=
  if typeOf p != 0x11 then d
  else
    let m := d.marker (selectedMarker p v)
    ((((d.put (pf p 0x100) (v % 1024)).put (pf p 0x104) m.value).put (pf p 0x108) (m.waiters % 65536)).put (pf p 0x10C) m.last).put (pf p 0x110)
      (holderWord m.holder)

/-- A write of MV_INDEX latches the selected marker in the view (R427). -/
def Dev.indexMarker (d : Dev) (p v : Nat) : Dev :=
  if typeOf p != 0x12 then d
  else
    let m := d.marker (selectedMarker p v)
    (((d.put (pf p 0x100) (v % 1024)).put (pf p 0x104) m.value).put (pf p 0x108) (m.waiters % 65536)).put (pf p 0x10C) m.last

/-- A write of MV_VALUE changes no marker and counts on the matching marker page (R428). -/
def Dev.viewWrite (d : Dev) (p : Nat) : Dev := if typeOf p != 0x12 then d else d.bump (pf (0x030 + instOf p) 0x054) 1

/-- A write of 1 to MK_FORCE.GO (R424): the unpick of the page's selected marker with its value; one that still waits is replaced, marker and value (log 43). -/
def Dev.forceGo (d : Dev) (p : Nat) : Dev :=
  if typeOf p != 0x11 then d
  else
    let go := (selectedMarker p (d.rg (pf p 0x100)), d.rg (pf p 0x114))
    { d with forces := (d.forces.filter fun (f : Nat × Nat) => f.1 / 1024 != instOf p) ++ [go] }

/-- MK_SEL_WRITE (R426). -/
def execMkSelWrite (page : Nat) (value : Word) (s : State) : Host.Outcome State Fault Refusal :=
  .next { s with dev := s.dev.host fun d => d.selectMarker page value.toNat }

/-- MV_INDEX_WRITE (R427). -/
def execMvIndexWrite (page : Nat) (value : Word) (s : State) : Host.Outcome State Fault Refusal :=
  .next { s with dev := s.dev.host fun d => d.indexMarker page value.toNat }

/-- MV_VALUE_WRITE (R428): the value written is ignored. -/
def execMvValueWrite (page : Nat) (_value : Word) (s : State) : Host.Outcome State Fault Refusal :=
  .next { s with dev := s.dev.host fun d => d.viewWrite page }

/-- MK_FORCE_GO (R424). -/
def execMkForceGo (page : Nat) (s : State) : Host.Outcome State Fault Refusal := .next { s with dev := s.dev.host fun d => d.forceGo page }

end Sys2Proof.Machine
end

