-- ==== Sys2Proof/Machine/Manage.lean ====
section
/-! DEFINITION. Management and security: locks, MCTP and PLDM, SPDM and its measurements, the ALERT_N line, the PCIe link and the I3C
address (R83, R507, R539, R544, R553 to R558). -/

namespace Sys2Proof.Machine

/-! SEC_LOCK -/

/-- A write of SEC_LOCK sets lock bits (R556, R558); a change of measurement block 11 counts (R555). -/
def Dev.secLock (d : Dev) (v : Nat) : Dev :=
  let k := pf 9 0x104
  let n := Nat.lor (d.rg k) (Nat.land v 0x3F)
  (d.put k n).measured (b2n (n != d.rg k))

/-! MCTP and PLDM (R553; the codes of messages: log 44) -/

/-- Set Endpoint ID on a binding: I3C answers from the standby rails, PCIe VDM while the link is up (R553, R557). -/
def Dev.setEid (d : Dev) (i3c : Bool) (eid : Nat) : Dev :=
  if !d.managed || (!i3c && !d.up) then d
  else (if i3c then d.putBits (pf 0xA 0x104) 7 0 eid else d.putBits (pf 0xA 0x104) 15 8 eid).mctp 0 1 [eid % 256]

/-- A PLDM base request: the types carried, or a version, which the spec does not give (R553, log 4). -/
def Dev.pldmBase (d : Dev) (code : Nat) : Dev :=
  if code = 4 then d.pldm 0 [4, 0, 2, 4, 5] else (d.pldm 0 [code, d.nextFree]).passFree

/-- The registers that show the sensors, with the bits of the reading: the temperatures of R552, feeds, input power, bank voltage and
bank C; number 24 is the state sensor of the power state (R553; their numbers: log 44). -/
def sensorField (n : Nat) : Option (Nat × Nat × Nat) :=
  match n with
  | 0 => some (pf 0xA 0x108, 27, 16)
  | 1 => some (pf 0xA 0x108, 11, 0)
  | 2 => some (pf 0xA 0x10C, 27, 16)
  | 3 => some (pf 0xA 0x10C, 11, 0)
  | 4 => some (pf 0xA 0x110, 27, 16)
  | 5 => some (pf 0xA 0x110, 11, 0)
  | 18 => some (pf 8 0x108, 15, 0)
  | 19 => some (pf 8 0x108, 31, 16)
  | 20 => some (pf 8 0x10C, 15, 0)
  | 21 => some (pf 8 0x10C, 31, 16)
  | 22 => some (pf 8 0x110, 31, 0)
  | 23 => some (pf 8 0x114, 31, 0)
  | 24 => some (pf 8 0x100, 31, 0)
  | 25 => some (pf 8 0x118, 31, 0)
  | _ => if 6 ≤ n && n < 18 then some (pf (0x090 + (n - 6)) 0x104, 11, 0) else none

/-- A PLDM platform request: the value of the register that shows the sensor (R553). -/
def Dev.pldmPlatform (m : Perm) (d : Dev) (sensor : Nat) : Dev :=
  match sensorField sensor with
  | some (k, hi, lo) => (d.pldm 2 [sensor, bits (d.regRead m k) hi lo]).passFree
  | none => d.pldm 2 [sensor]

/-- The characters of a FRU field as numbers. -/
def chars (s : String) : List Nat := s.toList.map Char.toNat

/-- A PLDM FRU request (R553); the serial number is free (log 13). -/
def Dev.pldmFru (d : Dev) : Dev :=
  (d.pldm 4 (chars "Ordiner" ++ [0] ++ chars "KNDT2-50L" ++ [0] ++ chars "C" ++ [0] ++ chars "B1" ++ [0] ++ chars "A2" ++
    [0, d.mgmt.slotId, d.nextFree])).passFree

/-! SPDM 1.3 (R554) -/

/-- An SPDM request answered (R554, R558). -/
def Dev.spdm (d : Dev) (code : Nat) (data : List Nat) : Dev := if d.managed then (d.mctp 5 code data).bump (pf 9 0x040) 1 else d

/-- An SPDM request answered with an error (R558). -/
def Dev.spdmError (d : Dev) (err : Nat) : Dev := if d.managed then (d.spdm 0x7F [err]).bump (pf 9 0x044) 1 else d

/-- The security part is being rewritten (R507, R554). -/
def Dev.securityStopped (d : Dev) : Bool := d.partStopped 7

/-- A request that is supported: ResponseNotReady while the security part is rewritten (R554). -/
def Dev.asked (d : Dev) (f : Dev → Dev) : Dev :=
  if !d.managed then d else if d.securityStopped then d.spdmError 0x42 else f d

/-- A request that follows NEGOTIATE_ALGORITHMS; before it, UnexpectedRequest (log 44). -/
def Dev.negotiated (d : Dev) (f : Dev → Dev) : Dev := d.asked fun d => if d.mgmt.negotiated then f d else d.spdmError 4

/-- n bytes of a digest, certificate or signature, by kind and data, as numbers (log 10). -/
def cipher (kind n : Nat) (data : List Byte) : List Nat := (List.range n).map fun i => (Config.cipherByte kind data i).toNat

/-- Numbers as bytes. -/
def asBytes (l : List Nat) : List Byte := l.map (BitVec.ofNat 8)

/-- GET_VERSION: SPDM 1.3; the connection starts afresh. -/
def Dev.getVersion (d : Dev) : Dev :=
  d.asked fun d => ({ d with mgmt := { d.mgmt with negotiated := false, handshake := false, session := false } }).spdm 0x04 [0x13]

/-- NEGOTIATE_ALGORITHMS: ECDSA P-384, SHA-384, secp384r1, AES-256-GCM. -/
def Dev.negotiate (d : Dev) : Dev :=
  d.asked fun d => ({ d with mgmt := { d.mgmt with negotiated := true } }).spdm 0x63 [0x80, 0x02, 0x10, 0x02]

/-- GET_CERTIFICATE: a part of the chain of slot 0; the other slots are empty (R554). -/
def Dev.certificate (d : Dev) (slot offset length : Nat) : Dev :=
  d.negotiated fun d => if slot = 0 then d.spdm 0x02 (((cipher 2 (offset + length) []).drop offset)) else d.spdmError 1

/-- CHALLENGE: a signature over the nonce with the identity of slot 0. -/
def Dev.challenge (d : Dev) (slot : Nat) (nonce : List Byte) : Dev :=
  d.negotiated fun d => if slot = 0 then d.spdm 0x03 (cipher 1 48 [] ++ cipher 3 96 nonce) else d.spdmError 1

/-- One measurement block (R555). -/
def Dev.measurement (m : Perm) (d : Dev) (i : Nat) : List Nat :=
  let header := match m.set 0 with | some s => s.header | none => []
  if 1 ≤ i && i ≤ 7 then (fwDigest header i).map (·.toNat)
  else if i = 8 then (toLe 4 (leAt header 0x0C 4) ++ toLe 4 m.floor).map (·.toNat)
  else if i = 9 then chars "KNDT2-50L" ++ chars "C" ++ [0xB1, 0xA2]
  else if i = 10 then (toLe 8 (d.rg64 (pf 0 0x120))).map (·.toNat)
  else (toLe 4 (d.rg (pf 9 0x104))).map (·.toNat)

/-- GET_MEASUREMENTS: index 0 asks for the number of blocks, 0xFF for every block, 1 to 11 for one (R555). -/
def Dev.measurements (m : Perm) (d : Dev) (index : Nat) (nonce : List Byte) : Dev :=
  d.negotiated fun d =>
    let signed (data : List Nat) : List Nat := data ++ cipher 4 96 (asBytes data ++ nonce)
    if index = 0 then d.spdm 0x60 (signed [11])
    else if index = 0xFF then d.spdm 0x60 (signed ((List.range' 1 11).map fun i => d.measurement m i).flatten)
    else if index ≤ 11 then d.spdm 0x60 (signed (d.measurement m index))
    else d.spdmError 1

/-- KEY_EXCHANGE: a session handshake begins (R554). -/
def Dev.keyExchange (d : Dev) (slot : Nat) (exchange : List Byte) : Dev :=
  d.negotiated fun d =>
    if slot = 0 then ({ d with mgmt := { d.mgmt with handshake := true } }).spdm 0x64 (cipher 5 96 exchange ++ cipher 6 96 exchange)
    else d.spdmError 1

/-- FINISH: the session opens when the requester's verification data hold (R554, log 10). -/
def Dev.finishSession (d : Dev) (verify : List Byte) : Dev :=
  d.negotiated fun d =>
    if !d.mgmt.handshake then d.spdmError 4
    else
      let d := { d with mgmt := { d.mgmt with handshake := false } }
      if Config.verifies verify then ({ d with mgmt := { d.mgmt with session := true } }).spdm 0x65 [] else d.spdmError 6

/-- A request within a session: HEARTBEAT keeps it, END_SESSION closes it. -/
def Dev.inSession (d : Dev) (code : Nat) (stays : Bool) : Dev :=
  d.asked fun d => if d.mgmt.session then ({ d with mgmt := { d.mgmt with session := stays } }).spdm code [] else d.spdmError 4

/-! Lines and links -/

/-- Another device pulls or releases ALERT_N (R544, R557). -/
def Dev.alertLine (d : Dev) (low : Bool) : Dev :=
  let d := { d with mgmt := { d.mgmt with lineLow := low } }
  if d.managed then d.alert else d

/-- The PCIe link retrains to a rate and width, or with width 0 only reports errors (R83, R112); the first training of a start is not
counted as a retrain (log 45). -/
def Dev.pcieLink (d : Dev) (rate width : Nat) (flit : Bool) (corr nonFatal fatal replays poisoned : Nat) : Dev :=
  if !d.up then d
  else
    let k := pf 0xC 0x100
    let d := if width = 0 then d
      else (d.bump (pf 0xC 0x050) (b2n (d.rg k != 0))).put k (b2n flit * 4096 + width % 64 * 16 + rate % 16)
    ((((d.bump (pf 0xC 0x040) corr).bump (pf 0xC 0x044) nonFatal).bump (pf 0xC 0x048) fatal).bump (pf 0xC 0x04C) replays).bump (pf 0xC 0x054) poisoned

/-! The meanings -/

/-- SEC_LOCK_WRITE (R556, R558). -/
def execSecLockWrite (value : Word) (s : State) : Host.Outcome State Fault Refusal :=
  .next { s with dev := s.dev.host fun d => d.secLock value.toNat }
/-- SET_ENDPOINT_ID (R553). -/
def execSetEndpointId (i3c : Bool) (eid : Nat) (s : State) : Host.Outcome State Fault Refusal := .next { s with dev := s.dev.setEid i3c eid }
/-- PLDM_BASE_REQUEST (R553). -/
def execPldmBaseRequest (code : Nat) (s : State) : Host.Outcome State Fault Refusal := .next { s with dev := s.dev.pldmBase code }
/-- PLDM_PLATFORM_REQUEST (R553). -/
def execPldmPlatformRequest (sensor : Nat) (s : State) : Host.Outcome State Fault Refusal :=
  .next { s with dev := s.dev.pldmPlatform s.perm sensor }
/-- PLDM_FRU_REQUEST (R553). -/
def execPldmFruRequest (s : State) : Host.Outcome State Fault Refusal := .next { s with dev := s.dev.pldmFru }
/-- GET_VERSION (R554). -/
def execGetVersion (s : State) : Host.Outcome State Fault Refusal := .next { s with dev := s.dev.getVersion }
/-- GET_CAPABILITIES (R554). -/
def execGetCapabilities (s : State) : Host.Outcome State Fault Refusal := .next { s with dev := s.dev.asked fun d => d.spdm 0x61 [] }
/-- NEGOTIATE_ALGORITHMS (R554). -/
def execNegotiateAlgorithms (s : State) : Host.Outcome State Fault Refusal := .next { s with dev := s.dev.negotiate }
/-- GET_DIGESTS (R554): the digest of the chain in slot 0. -/
def execGetDigests (s : State) : Host.Outcome State Fault Refusal :=
  .next { s with dev := s.dev.negotiated fun d => d.spdm 0x01 (cipher 1 48 []) }
/-- GET_CERTIFICATE (R554). -/
def execGetCertificate (slot offset length : Nat) (s : State) : Host.Outcome State Fault Refusal :=
  .next { s with dev := s.dev.certificate slot offset length }
/-- CHALLENGE (R554). -/
def execChallenge (slot : Nat) (nonce : List Byte) (s : State) : Host.Outcome State Fault Refusal :=
  .next { s with dev := s.dev.challenge slot nonce }
/-- GET_MEASUREMENTS (R554, R555). -/
def execGetMeasurements (index : Nat) (nonce : List Byte) (s : State) : Host.Outcome State Fault Refusal :=
  .next { s with dev := s.dev.measurements s.perm index nonce }
/-- KEY_EXCHANGE (R554). -/
def execKeyExchange (slot : Nat) (exchange : List Byte) (s : State) : Host.Outcome State Fault Refusal :=
  .next { s with dev := s.dev.keyExchange slot exchange }
/-- FINISH (R554). -/
def execFinish (verify : List Byte) (s : State) : Host.Outcome State Fault Refusal := .next { s with dev := s.dev.finishSession verify }
/-- HEARTBEAT (R554). -/
def execHeartbeat (s : State) : Host.Outcome State Fault Refusal := .next { s with dev := s.dev.inSession 0x68 true }
/-- END_SESSION (R554). -/
def execEndSession (s : State) : Host.Outcome State Fault Refusal := .next { s with dev := s.dev.inSession 0x6C false }
/-- SPDM_UNSUPPORTED (R554): UnsupportedRequest with the code asked. -/
def execSpdmUnsupported (code : Nat) (s : State) : Host.Outcome State Fault Refusal :=
  .next { s with dev := s.dev.asked fun d => (d.spdm 0x7F [7, code]).bump (pf 9 0x044) 1 }
/-- ALERT_N_LINE_CHANGE (R544). -/
def execAlertNLineChange (low : Bool) (s : State) : Host.Outcome State Fault Refusal := .next { s with dev := s.dev.alertLine low }
/-- PCIE_LINK_RETRAIN (R83, R112). -/
def execPcieLinkRetrain (rate width : Nat) (flit : Bool) (corr nonFatal fatal replays poisoned : Nat) (s : State) :
    Host.Outcome State Fault Refusal :=
  .next { s with dev := s.dev.pcieLink rate width flit corr nonFatal fatal replays poisoned }
/-- I3C_DYNAMIC_ADDRESS (R557). -/
def execI3cDynamicAddress (addr : Nat) (s : State) : Host.Outcome State Fault Refusal :=
  .next { s with dev := if s.dev.managed then s.dev.putBits (pf 0xA 0x104) 22 16 addr else s.dev }

end Sys2Proof.Machine
end

