-- ==== Sys2Proof/Machine/Cascade.lean ====
section
/-! DEFINITION. The cascade: row markers, the messages of a cascade publish, parts of spanning strands, lost members and links
(R430 to R459, R200). -/

namespace Sys2Proof.Machine

/-- A message of a member has arrived at the master (R456). -/
def Dev.heard (d : Dev) (i : Nat) : Dev :=
  { d with cas := { d.cas with members := d.cas.members.map fun (m : Member) => if m.index = i then { m with silent := 0 } else m } }

/-- A message of the master has arrived at a member (R442). -/
def Dev.heardMaster (d : Dev) : Dev := { d with cas := { d.cas with silent := 0 } }

/-! The cascade row (R440, R441) -/

/-- A marker taken as the master's boundary: arrival less accumulated delay (R441); a change to LOCKED is reported (R438). -/
def Dev.followMarker (d : Dev) (arrivalNs : Int) (delayNs : Nat) : Dev :=
  let n := (d.put (pf 0xD 0x144) (delayNs % 65536)).edge (arrivalNs - delayNs)
  if n.syncState == 1 && d.syncState != 1 then n.emit (.cascade 14 0 [n.position]) else n

/-- The row marker on a member (R440, R441, R448): forwarded, its swatch latched, and followed in CASCADE mode; the redundant chain's counts
only when no marker was taken in the window. -/
def Dev.rowMarker (d : Dev) (cascadeRow : Nat) (arrivalNs : Int) (delayNs : Nat) (redundant : Bool) (swatch : Option Nat) : Dev :=
  if !d.up || !d.row.running || d.mgmt.masterLow || !(d.cas.state == 1 || d.cas.state == 2) then d
  else
    let port := if redundant then 2 else 0
    let passed := delayNs + bits (d.rg (pf (0x0A0 + port) 0x108)) 15 0 + Config.forwardDelay
    let d := d.heardMaster.emit (.cascade 1 (d.position + 1) [cascadeRow, passed])
    let d := match swatch with | some v => d.put64 (pf 0xD 0x134) (v % 2 ^ 64) | none => d
    let taken : Bool := if 2 * (arrivalNs - delayNs) ≤ d.rowLen then d.row.edgeHere else d.row.edgeNext
    if d.syncMode != 2 || (redundant && taken) then d else d.followMarker arrivalNs delayNs

/-! A cascade publish (R443 to R446) -/

/-- A member's refusal of a PREPARE before its checks: another master, a position that differs from the one expected, a port wired apart
from R430 (R436, R437, R459); a local publish in progress (log 46). -/
def Dev.prepareCode (d : Dev) (index : Nat) : Option Nat :=
  let expect := d.rg (pf 0xD 0x104)
  let forming : Bool := d.cas.state != 2
  if d.mgmt.masterLow then some 0x0902
  else if forming && bit expect 31 && bits expect 3 0 != index then some 0x0903
  else if forming && (List.range 4).any fun p => d.linkUp p && d.peerPort p != pairedPort p then some 0x0903
  else if d.pub.any fun p => p.due != untilGo && p.due != untilPrepare then some 0x0502
  else none

/-- A cascade page with EN 1 staged, or a serving cascade (R437). -/
def Dev.prepared (d : Dev) : Bool := d.cas.state == 1 || d.cas.state == 2 || (d.cas.state == 0 && enIn d.shadows 0xD)

/-- The snapshot of a member at PREPARE, or its checks again (R443, R444). -/
def Dev.takePrepare (d : Dev) (index modules : Nat) : Dev :=
  let d := { d with cas := { d.cas with
    state := if d.cas.state = 0 then 1 else d.cas.state, newIndex := index, modules := modules, silent := 0, ready := false, prepared := d.row.number } }
  match d.pub with
  | none => (d.snapshotAt .cascade untilGo true).pubBit 2 true
  | some p => if p.due = untilPrepare then (({ d with pub := none }).snapshotAt p.src untilGo true).pubBit 2 true
    else { d with pub := some { p with checked := false } }

/-- PREPARE on a member (R437, R443, R444): a module without a staged cascade page stays silent. -/
def Dev.prepare (d : Dev) (index modules : Nat) : Dev :=
  if !d.up || !d.row.running then d
  else match (if d.mgmt.masterLow || d.prepared then d.prepareCode index else none) with
    | some code => d.emit (.cascade 3 0 [index, 3, code, 0xFFF, 0, 0, 0])
    | none => if d.mgmt.masterLow || !d.prepared then d else d.takePrepare index modules

/-- A member's reply on the master (R443, R446). -/
def Dev.memberReply (d : Dev) (i reply code slot swatch period topology : Nat) : Dev :=
  let d := d.heard i
  let known := d.cas.members.find? (·.index == i)
  if !d.mgmt.masterLow || d.cas.exchange.isNone || d.cas.goSent || i = 0 || (d.cas.state == 2 && known.isNone) then d
  else
    let (locked, lost) := match known with | some m => (m.locked, m.lost) | none => (false, false)
    d.setMember ⟨i, reply % 4, code, slot, swatch % 2 ^ 64, period, topology, locked, lost, 0⟩

/-- GO on a member that replied READY: the publish is due at the next boundary (R443, R445). -/
def Dev.takeGo (d : Dev) (cascadeRow counter : Nat) : Dev :=
  match d.pub with
  | some p =>
    if p.due = untilGo && d.cas.ready && !d.mgmt.masterLow then
      { d with pub := some { p with due := d.row.number + 1 }
               cas := { d.cas with goGot := true, goRow := cascadeRow, goCounter := counter, silent := 0 } }
    else d
  | none => d

/-- ABANDON on a member: nothing is applied (R443, R446). -/
def Dev.takeAbandon (d : Dev) : Dev :=
  match d.pub with
  | some p =>
    if (p.due = untilGo || p.due = untilPrepare) && !d.mgmt.masterLow then
      let cas := if d.cas.state = 1 then d.cas.left else { d.cas with ready := false, goGot := false, silent := 0 }
      let n := ((({ d with pub := none, cas := cas }.restage p).pubBit 0 false).pubBit 1 true).pubBit 2 false
      (n.vector 0 2).pubDone p.src 0x10 (n.rg (pf 0 0x108)) 0
    else d
  | none => d

/-- A COMMIT that a member forwarded reaches the master (R443). -/
def Dev.forwarded (d : Dev) : Dev := if d.servingMaster then d.commit .cascade else d

/-! Parts of spanning strands (R449 to R455) -/

/-- The command of a part: the search fields with K′ and the passage store (R452). -/
def Dev.partCmd (d : Dev) (e : Entry) (f : SearchF) (kPrime passages : Nat) : Cmd :=
  ⟨e.q, sqeOf e 0x11 ((searchDw f).take 5 ++ [kPrime, passages]), [], d.row.number⟩

/-- Orders 4 and 6 of R121 on the part's own objects (R451). -/
def Dev.partObjects (d : Dev) (c : Cmd) (query : List Nat) : Option Nat :=
  let x := ixDesc (d.curContent c.object).bytes
  let store := c.dw 14
  firstCode [d.order4 c, codeIf (store != 0 && !d.isKind store 2) 0x0503, codeIf (ixMetricBad x) 0x0220,
    codeIf (ixDimBad x || query.length != x.dim) 0x0221]

/-- A sum over the parts this module serves. -/
def Dev.partSum (d : Dev) (f : Strand → Nat) : Nat := sumNat (d.strands.map fun p => if p.2.part.isSome then f p.2 else 0)

/-- The footprint of a part against what remains of the cascade reserve, in the code order of R121 (R450, R451). -/
def Dev.partFits (d : Dev) (f : Foot) : Option Nat :=
  let above (limit used asked : Nat) : Bool := asked != 0 && decide (limit < used + asked)
  let row (u : Nat) : Bool := above (d.casReserve u) (d.partSum fun s => s.foot.l.getD u 0) (f.l.getD u 0)
  firstCode [codeIf (16384 ≤ d.strands.length) 0x0410, codeIf (row 2 || row 4) 0x0412,
    codeIf (above (d.inForce (pf 0xD 0x110) % 2 ^ 24) (d.partSum (·.foot.t0)) f.t0) 0x0415,
    codeIf (above (d.inForce (pf 0xD 0x114) % 2 ^ 24) (d.partSum (·.foot.t2)) f.t2) 0x0417,
    codeIf (above (bits (d.inForce (pf 0xD 0x108)) 10 0) (d.partSum (·.foot.slots)) f.slots) 0x0418,
    codeIf (above (bits (d.inForce (pf 0xD 0x118)) 12 0) (d.partSum (·.foot.markers)) f.markers) 0x0419]

/-- The steps of a part: those of the search after its broadcast, its gather in the row planned for it (R452). -/
def Dev.partSteps (d : Dev) (steps : List Step) : List Step :=
  holdGather d.row.number (steps.filter fun st => st.kind != .broadcast)

/-- The objects as a view with a publish counter sees them (R153, R447). -/
def Dev.asOf (d : Dev) (counter : Nat) : Dev := { d with objs := d.objs.map fun p => (p.1, p.2.asOf counter) }

/-- A part admitted ahead of every local command (R447, R451). -/
def Dev.admitPart (d : Dev) (strand counter : Nat) (c : Cmd) (p : Plan) (query : List Nat) : Dev :=
  let id := d.freeId
  let ms := d.freeMarkers p.foot.markers
  let s : Strand :=
    { cmd := c, state := 1, admitRow := d.row.number, admitNs := d.row.timeNs, counter := counter, foot := p.foot,
      owned := [false, false, false, false, false], markers := ms, pins := (d.asOf counter).pinsOf (p.pins ++ (if c.dw 14 = 0 then [] else [c.dw 14])),
      unpin := [], steps := d.partSteps p.steps, start := d.row.number + 1, lane := 0, drops := 0, consec := 0, cause := 0, holdL := true,
      holdP := true, kv := 0, kvNext := 0, kvMap := [], work := { Work.blank with query := query }, final := none, spans := true, part := some strand,
      reading := [], scratch := [], done := [], fate := 0, stitchBase := 0, core := 0, expiring := false }
  (({ d with strands := nset d.strands id s }).takeMarkers ms (.strand id c.q.tenant)).bump (pf 0xD 0x04C) 1

/-- The broadcast of a spanning search on a member (R447, R451, R452). -/
def Dev.partBroadcast (d : Dev) (strand counter : Nat) (e : Entry) (f : SearchF) (kPrime passages : Nat) (query : List Nat) : Dev :=
  if !d.up || !d.casMember || d.strands.any fun p => p.2.part == some strand && p.2.state != 3 then d
  else
    let d := d.heardMaster
    let c := d.partCmd e f kPrime passages
    let counter := (counter + d.rg64 (pf 0xD 0x124)) % 2 ^ 48
    let v := d.asOf counter
    let x := ixDesc (v.curContent c.object).bytes
    let ix := (v.curContent c.object).index
    let p : Plan := ⟨searchFoot d.period d.budget x ix c.search kPrime (some 0), searchSteps d.period d.budget x ix c.search kPrime (some 0),
      [c.object, c.search.filter].filter (· != 0)⟩
    match (v.partObjects c query).or (d.partFits p.foot) with
    | some code => d.emit (.cascade 12 0 [strand, code])
    | none => d.admitPart strand counter c p query

/-- A candidate that a gather entry carries: passage ID and key (R453). -/
def gatherCand (e : Nat × Nat) : Cand := ⟨⟨e.1 % 2 ^ 48, 0, 0, [], [], [], false⟩, e.2, none⟩

/-- A member's list for the gather row (R248, R452): it is held with its count of equal keys left out; its NaNs count. -/
def Dev.gatherList (d : Dev) (strand i : Nat) (entries : List (Nat × Nat)) (left nans : Nat) : Dev :=
  let d := d.heard i
  match nget d.strands strand with
  | none => d
  | some s =>
    if s.state = 3 || !s.spans || s.part.isSome || i = 0 || d.cas.modules ≤ i || s.work.lists.any (·.1 == i) then d
    else d.putStrand strand { s with work := { s.work with
      lists := s.work.lists ++ [(i, entries.map gatherCand, left)], nans := s.work.nans + nans } }

/-- The part served for a master strand. -/
def Dev.partOf (d : Dev) (strand : Nat) : Option (Nat × Strand) := d.strands.find? fun p => p.2.part == some strand && p.2.state != 3

/-- Tokens of a passage that this module owns, from the part's own store; none when the store does not give them (R371, R453). -/
def Dev.ownPassage (d : Dev) (s : Strand) (pid : Nat) : List Nat :=
  match s.work.cands.find? (·.entry.pid == pid) with
  | some c => (passageTokens (d.content s (s.cmd.dw 14)).bytes (2 ^ 32) c.entry.line c.entry.toks).getD []
  | none => []

/-- A request for passages on their owner: the tokens and their counts go back (R453). -/
def Dev.passageRequest (d : Dev) (strand : Nat) (pids : List Nat) : Dev :=
  match d.partOf strand with
  | none => d
  | some p =>
    let one (pid : Nat) : List Nat := let ts := d.ownPassage p.2 pid; [pid, ts.length] ++ ts
    d.heardMaster.emit (.cascade 10 0 (strand :: (pids.map one).flatten))

/-- Passages returned to the master (R453). -/
def Dev.passageReply (d : Dev) (strand : Nat) (passages : List (Nat × List Nat)) : Dev :=
  match nget d.strands strand with
  | none => d
  | some s =>
    if s.state = 3 || !s.spans || s.part.isSome then d
    else
      let new := passages.filter fun x => !s.work.passages.any (·.1 == x.1)
      (new.foldl (fun (d : Dev) x => d.heard (bits x.1 47 44)) d).putStrand strand { s with work := { s.work with passages := s.work.passages ++ new } }

/-- The end of a part (R454): its reservations are released at the next boundary, and no completion is posted. -/
def Dev.partEnd (d : Dev) (strand : Nat) : Dev :=
  match d.partOf strand with
  | some p => d.heardMaster.endSilent p.1
  | none => d

/-- A member refuses a part, or its part ended STALLED with a cause of R35 (R451, R454; log 47): the master's strand ends. -/
def Dev.partRefusal (d : Dev) (strand code : Nat) : Dev :=
  match nget d.strands strand with
  | none => d
  | some s =>
    if s.state = 3 || !s.spans || s.part.isSome then d
    else if code < 0x100 then d.endNow strand 0x11 0 code
    else (d.endNow strand 0x10 code 0).bump (pf 0xD 0x050) 1

/-- A running sum with this module's own part added (R299, R455): a module that takes no part in the pattern passes it on unchanged. -/
def Dev.chainOn (d : Dev) (s : Strand) (sums : List Nat) : List Nat :=
  let own := Config.modulePart d.cas.index s.cmd.sqe
  if d.mgmt.masterLow || own.isEmpty then sums else chainStep (Config.partInteger s.cmd.sqe) sums own

/-- A running sum arrives (R299, R455): the module's own part is added, the sum is kept for its strand, and the chain goes on downstream;
from the last module the result returns to the master. -/
def Dev.runningSum (d : Dev) (strand : Nat) (sums : List Nat) : Dev :=
  let target := if d.mgmt.masterLow then (nget d.strands strand).map fun s => (strand, s) else d.partOf strand
  match target with
  | none => d
  | some (id, s) =>
    if s.state = 3 then d
    else
      let slots := d.row.slots.map fun (x : Slot) =>
        if x.members.contains id then { x with inputs := x.inputs.filter fun i => !(i.src == .link && (i.member == none || i.member == some id)) } else x
      let on := d.chainOn s sums
      let d := ({ d with row := { d.row with slots := slots } }).putStrand id { s with work := { s.work with sums := on } }
      if d.mgmt.masterLow then d
      else d.emit (.cascade 13 (if d.cas.index + 1 < d.cas.modules then d.cas.index + 1 else 0) (strand :: on))

/-! Members lost, isolated and leaving (R442, R445, R456) -/

/-- LOST_ROWS in force (R457). -/
def Dev.lostRows (d : Dev) : Nat := bits (d.inForce (pf 0xD 0x100)) 15 8

/-- A member marked lost (R456); at the boundary of a publish also one that has sent nothing since its READY (R445). -/
def Dev.memberLost (d : Dev) (i : Nat) : Dev :=
  match d.cas.members.find? (·.index == i) with
  | none => d
  | some m =>
    let due : Bool := decide (d.lostRows ≤ m.silent) || (m.reply == 1 && d.rg64 (pf 0 0x118) == d.row.number)
    if !d.servingMaster || i = 0 || m.lost || !due then d
    else
      let members := d.cas.members.map fun (x : Member) => if x.index = i then { x with lost := true, locked := false } else x
      (({ d with cas := { d.cas with members := members } }).bump (pf 0xD 0x058) 1).vector 0 4

/-- A member that has heard nothing of its master for LOST_ROWS rows (R442). -/
def Dev.isolateNow (d : Dev) : Dev := if d.casMember && d.lostRows ≤ d.cas.silent then d.isolate else d

/-- CAS_CMD.LEAVE on an isolated member (R442): one local publish without the cascade page, with MODE FREE. -/
def Dev.leave (d : Dev) : Dev :=
  if d.cas.state != 3 || d.pub.isSome then d
  else
    let n := if bits (d.rg (pf 1 0x10C)) 1 0 = 2 then (d.putBits (pf 1 0x10C) 1 0 0).dirty 1 else d
    ((n.putBits (pf 0xD 0x008) 0 0 0).dirty 0xD).snapshot .cascade (d.row.number + 2)

/-- A member reports that it is LOCKED (R438). -/
def Dev.reportsLocked (d : Dev) (i : Nat) : Dev :=
  let members := d.cas.members.map fun (m : Member) => if m.index = i && !m.lost then { m with locked := true, silent := 0 } else m
  if d.mgmt.masterLow then { d with cas := { d.cas with members := members } } else d

/-! Links (R200, R431 to R435) -/

/-- Transfers planned over the Tuivy links and not yet done do not arrive (R435, R459). -/
def Dev.cutTransfers (d : Dev) : Dev :=
  { d with row := { d.row with slots := d.row.slots.map fun s =>
      if s.utype = 5 && s.phase < 2 then { s with inputs := s.inputs ++ [⟨none, .link⟩] } else s } }

/-- A retry asked for by a receiver (R431): after three that fail the link retrains, a LINK error. A FEC codeword or the line code may have
asked (log 4). -/
def Dev.linkRetry (d : Dev) (port : Nat) (failed : Bool) : Dev :=
  let p := 0x0A0 + port
  if 4 ≤ port || !d.linkUp port then d
  else
    let d := ((d.bump (pf p 0x048) 1).bump (pf p 0x044) (d.nextFree % 2)).passFree
    let n := if failed then d.cas.retries.getD port 0 + 1 else 0
    let d := { d with cas := { d.cas with retries := d.cas.retries.set port (if n < 3 then n else 0) } }
    if n < 3 then d else (d.retrain p).report p 4 2 (unitLoc 0) 0

/-- A link goes down (R432, R435, R459): its transfers do not arrive, and traffic takes another path where the topology has one. -/
def Dev.linkDown (d : Dev) (port : Nat) : Dev :=
  let p := 0x0A0 + port
  if 4 ≤ port || d.linkState port == 0 then d
  else
    let topo := d.topology
    let other : Bool := topo == 2 || (topo == 1 && d.linkUp ((port + 2) % 4))
    let serving : Bool := d.cas.state == 1 || d.cas.state == 2
    let reroutes : Bool := serving && d.linkUp port && other && (port < 2 || !d.linkUp (port - 2))
    let d := ((d.put (pf p 0x104) 0).put (pf p 0x108) 0).put (pf p 0x10C) 0
    (({ d with cas := { d.cas with lostPorts := (d.cas.lostPorts ++ [port]).eraseDups } }).bump (pf 0xD 0x054) (b2n reroutes)).cutTransfers

/-- Training ends (R432, R433): width 8, width 4 on the lanes that remain, or down below 4 lanes. No training ends while the link firmware is
rewritten (R507, R527; log 83). -/
def Dev.trained (d : Dev) (port lanes delayNs peer : Nat) (peerMaster : Bool) (peerPort : Nat) : Dev :=
  let p := 0x0A0 + port
  if 4 ≤ port || !d.up || d.partStopped 5 then d
  else if lanes < 4 then d.linkDown port
  else
    let wide : Bool := 8 ≤ lanes
    let was := bits (d.rg (pf p 0x104)) 11 8
    let d := (d.put (pf p 0x104) (if wide then 8 * 256 + 2 else 4 * 256 + 3)).bump (pf p 0x050) (b2n (!wide && was != 4))
    let d := (d.put (pf p 0x108) (delayNs % 65536)).put (pf p 0x10C) (peer % 16 * 65536 + b2n peerMaster * 256 + peerPort % 4)
    { d with cas := { d.cas with
        lostPorts := d.cas.lostPorts.filter (· != port)
        retries := d.cas.retries.set port 0
        badLanes := if wide then d.cas.badLanes.filter fun x => x / 8 != port else d.cas.badLanes } }

/-- A lane that failed training is left out (R432, R460): the link narrows to width 4, or goes down with fewer than 4 lanes. -/
def Dev.laneFail (d : Dev) (port lane : Nat) : Dev :=
  let p := 0x0A0 + port
  if 4 ≤ port || 8 ≤ lane || d.cas.badLanes.contains (8 * port + lane) then d
  else
    let bad := d.cas.badLanes ++ [8 * port + lane]
    let d := ({ d with cas := { d.cas with badLanes := bad } }).report p 4 2 (6 * 2 ^ 60 + lane * 2 ^ 40) 0
    if 4 < (bad.filter fun x => x / 8 == port).length then d.linkDown port else d.narrow p

/-- A die-to-die retry (R200, R206): after two that fail the receiver corrects the line by its errors or marks it uncorrectable. -/
def Dev.d2dRetry (d : Dev) (link : Nat) (failed : Bool) (errors : List (Nat × Nat)) : Dev :=
  if 2 ≤ link || !d.up then d
  else
    let p := 0x0A4 + link
    let d := d.bump (pf p 0x040) 1
    let n := if failed then d.cas.d2dRetries.getD link 0 + 1 else 0
    let d := { d with cas := { d.cas with d2dRetries := d.cas.d2dRetries.set link (if n < 2 then n else 0) } }
    if n < 2 then d
    else match lineOutcome errors with
      | .clean => d
      | .corrected => (d.report p 1 2 (lineLoc p d.nextFree) 0).passFree
      | .uncorrectable => (d.report p 2 2 (lineLoc p d.nextFree) 0).passFree

/-! The meanings -/

/-- ROW_MARKER (R440, R441). -/
def execRowMarker (cascadeRow : Nat) (arrivalNs : Int) (delayNs : Nat) (redundant : Bool) (swatch : Option Nat) (s : State) :
    Host.Outcome State Fault Refusal :=
  .next { s with dev := s.dev.rowMarker cascadeRow arrivalNs delayNs redundant swatch }
/-- PREPARE (R443). -/
def execPrepare (index modules : Nat) (s : State) : Host.Outcome State Fault Refusal := .next { s with dev := s.dev.prepare index modules }
/-- MEMBER_REPLY (R443). -/
def execMemberReply (member reply code slot swatch period topology : Nat) (s : State) : Host.Outcome State Fault Refusal :=
  .next { s with dev := s.dev.memberReply member reply code slot swatch period topology }
/-- CASCADE_REPLY_DEADLINE (R443, R444, R446). -/
def execCascadeReplyDeadline (s : State) : Host.Outcome State Fault Refusal := .next { s with dev := s.dev.casDeadline }
/-- GO (R445). -/
def execGo (cascadeRow counter : Nat) (s : State) : Host.Outcome State Fault Refusal := .next { s with dev := s.dev.takeGo cascadeRow counter }
/-- ABANDON (R443). -/
def execAbandon (s : State) : Host.Outcome State Fault Refusal := .next { s with dev := s.dev.takeAbandon }
/-- COMMIT_FORWARD (R443). -/
def execCommitForward (s : State) : Host.Outcome State Fault Refusal := .next { s with dev := s.dev.forwarded }
/-- PART_BROADCAST (R451). -/
def execPartBroadcast (strand counter : Nat) (e : Entry) (f : SearchF) (kPrime passages : Nat) (query : List Nat) (s : State) :
    Host.Outcome State Fault Refusal :=
  .next { s with dev := s.dev.partBroadcast strand counter e f kPrime passages query }
/-- GATHER_LIST (R452). -/
def execGatherList (strand member : Nat) (entries : List (Nat × Nat)) (passed nans : Nat) (s : State) : Host.Outcome State Fault Refusal :=
  .next { s with dev := s.dev.gatherList strand member entries passed nans }
/-- PASSAGE_FETCH_REQUEST (R453). -/
def execPassageFetchRequest (strand : Nat) (pids : List Nat) (s : State) : Host.Outcome State Fault Refusal :=
  .next { s with dev := s.dev.passageRequest strand pids }
/-- PASSAGE_FETCH_REPLY (R453). -/
def execPassageFetchReply (strand : Nat) (passages : List (Nat × List Nat)) (s : State) : Host.Outcome State Fault Refusal :=
  .next { s with dev := s.dev.passageReply strand passages }
/-- PART_END (R454). -/
def execPartEnd (strand : Nat) (s : State) : Host.Outcome State Fault Refusal := .next { s with dev := s.dev.partEnd strand }
/-- PART_REFUSAL (R451). -/
def execPartRefusal (strand code : Nat) (s : State) : Host.Outcome State Fault Refusal := .next { s with dev := s.dev.partRefusal strand code }
/-- RUNNING_SUM_ARRIVAL (R455). -/
def execRunningSumArrival (strand : Nat) (sums : List Nat) (s : State) : Host.Outcome State Fault Refusal :=
  .next { s with dev := s.dev.runningSum strand sums }
/-- MEMBER_LOST (R445, R456). -/
def execMemberLost (member : Nat) (s : State) : Host.Outcome State Fault Refusal := .next { s with dev := s.dev.memberLost member }
/-- ISOLATE (R442). -/
def execIsolate (s : State) : Host.Outcome State Fault Refusal := .next { s with dev := s.dev.isolateNow }
/-- CAS_LEAVE (R442). -/
def execCasLeave (s : State) : Host.Outcome State Fault Refusal := .next { s with dev := s.dev.host Dev.leave }
/-- LINK_RETRY (R431). -/
def execLinkRetry (port : Nat) (failed : Bool) (s : State) : Host.Outcome State Fault Refusal :=
  .next { s with dev := s.dev.linkRetry port failed }
/-- LINK_TRAINING_DONE (R432, R433). -/
def execLinkTrainingDone (port lanes delayNs peerModule : Nat) (peerMaster : Bool) (peerPort : Nat) (s : State) :
    Host.Outcome State Fault Refusal :=
  .next { s with dev := s.dev.trained port lanes delayNs peerModule peerMaster peerPort }
/-- LANE_FAIL (R432). -/
def execLaneFail (port lane : Nat) (s : State) : Host.Outcome State Fault Refusal := .next { s with dev := s.dev.laneFail port lane }
/-- LINK_DOWN (R435). -/
def execLinkDown (port : Nat) (s : State) : Host.Outcome State Fault Refusal := .next { s with dev := s.dev.linkDown port }
/-- D2D_RETRY (R200). -/
def execD2dRetry (link : Nat) (failed : D2dLine) (s : State) : Host.Outcome State Fault Refusal :=
  .next { s with dev := s.dev.d2dRetry link failed.failed failed.errors }
/-- MEMBER_REPORTS_LOCKED (R438). -/
def execMemberReportsLocked (member : Nat) (s : State) : Host.Outcome State Fault Refusal :=
  .next { s with dev := s.dev.reportsLocked member }

end Sys2Proof.Machine
end

