-- ==== Sys2Proof/Machine/Writes.lean ====
section
/-! DEFINITION. Register writes: stored, cleared by 1, and those that command the block (R6, R7, R10, R58, R61 to R66, R86, R94, R96, R462, R463). -/

namespace Sys2Proof.Machine

/-- A write that only stores: the writable bits of a register, with SHADOW_DIRTY for a configuration-class one; write-1-to-clear bits;
read-only registers ignore it (R6, R10, R65). -/
def Dev.store (d : Dev) (k v : Nat) (r : RegDesc) : Dev :=
  match r.acc with
  | .rw =>
    let n := d.put k (Nat.lor (Nat.land (d.rg k) (2 ^ 32 - 1 - r.wmask)) (Nat.land v r.wmask))
    if r.shadow then n.dirty (keyPage k) else n
  | .w1c => d.put k (Nat.land (d.rg k) (2 ^ 32 - 1 - Nat.land v r.c1))
  | .ro => d
  | .rc => d
  | .w1s => d

/-- PG_ERR_STAT: flags cleared by 1; PG_ERR_FIRST is released when none is left (R462, R463). -/
def Dev.clearFlags (d : Dev) (p v : Nat) : Dev :=
  let k := p * 4096 + 0x020
  let n := d.put k (Nat.land (d.rg k) (2 ^ 32 - 1 - Nat.land v 0xFFF))
  (if n.rg k = 0 then { n with firsts := n.firsts.filter (· != p) } else n).alert

/-- A word of an MSI-X table: a vector that is unmasked while its bit is pending sends its message (R86, R111). -/
def Dev.msixWrite (d : Dev) (k v : Nat) (r : RegDesc) : Dev :=
  let n := d.store k v r
  let fn := if keyFn k = 17 then 0 else keyFn k
  let vec := k % 4096 / 16
  if k % 16 = 12 && !bit v 0 && bit (n.rg (msixPba fn vec)) (vec % 32) then
    (n.put (msixPba fn vec) (setBit (n.rg (msixPba fn vec)) (vec % 32) false)).emit (.msix fn vec)
  else n

/-- IX_CMD (R229, R234, R237): MERGE, then CANCEL. -/
def Dev.indexCmd (d : Dev) (v : Nat) : Dev :=
  let d := if bit v 0 then d.mergeSelected else d
  if bit v 1 then d.cancelSelected else d

/-- PW_CMD (R500, R504): DROP_LOST, then BANK_CHECK. -/
def Dev.powerCmd (d : Dev) (v : Nat) : Dev :=
  let d := if bit v 0 then d.dropLost else d
  if bit v 1 then d.bankCheck else d

/-- A write to a register that does more than store, by block type and offset; none stores. -/
def Dev.special (d : Dev) (p type inst off v : Nat) (r : RegDesc) : Option Dev :=
  let k := p * 4096 + off
  let go (f : Dev → Dev) : Option Dev := some (if bit v 0 then f d else d)
  match type, off with
  | 0x01, 0x100 => go fun d => d.commit .register
  | 0x02, 0x110 => go Dev.relock
  | 0x03, 0x228 => if inst = 2 then some (d.indexCmd v) else none
  | 0x05, 0x104 => some (d.store k v r).alert
  | 0x05, 0x10C => some (d.flSelect v)
  | 0x05, 0x138 => go Dev.flProbe
  | 0x06, 0x13C => some (d.powerCmd v)
  | 0x07, 0x104 => some (d.secLock v)
  | 0x0A, 0x11C => some (d.admCtrl v)
  | 0x0A, 0x120 => some (d.sqDoorbell ⟨0, 0⟩ (v % 65536))
  | 0x0A, 0x124 => some (d.cqDoorbell ⟨0, 0⟩ (v % 65536))
  | 0x0B, 0x140 => go Dev.leave
  | 0x11, 0x100 => some (d.selectMarker p v)
  | 0x11, 0x118 => go fun d => d.forceGo p
  | 0x12, 0x100 => some (d.indexMarker p v)
  | 0x12, 0x104 => some (d.viewWrite p)
  | _, _ => none

/-- A write that a page's state makes without effect: ring and version registers of a running queue pair (R94), object quotas of T0 (R202). -/
def Dev.ignored (d : Dev) (p type inst off : Nat) : Bool :=
  (type == 0x31 && (d.page p).running && (off ≤ 0x110 && 0x100 ≤ off || off == 0x118)) || (type == 0x0E && inst == 0 && 0x180 ≤ off && off < 0x1C4)

/-- A write to a block's own register. -/
def Dev.blockWrite (d : Dev) (p type inst off v : Nat) (r : RegDesc) : Dev :=
  if type = 0xF1 then
    (let q : QRef := ⟨p / 4096, off / 8⟩
     if off % 8 = 0 then d.sqDoorbell q (v % 65536) else d.cqDoorbell q (v % 65536))
  else if type = 0xF2 then d.msixWrite (p * 4096 + off) v r
  else if d.ignored p type inst off then d
  else (d.special p type inst off v r).getD (d.store (p * 4096 + off) v r)

/-- A write to the error and status header (R61 to R66, R462). -/
def Dev.headerWrite (d : Dev) (p off v : Nat) (r : RegDesc) : Dev :=
  let k := p * 4096 + off
  match off with
  | 0x008 => d.ctrlWrite p v
  | 0x00C => if bit v 1 then d.modPage p fun x => { x with refused := false } else d
  | 0x020 => d.clearFlags p v
  | 0x024 => (d.store k v r).alert
  | _ => d.store k v r

/-- A register write (R6, R10, R58, R61, R66); a place without a register ignores it. PW_CTRL aside, it reaches the device alone. -/
def Dev.write (d : Dev) (k v : Nat) : Dev :=
  match regDesc k, pageInfo (keyPage k) with
  | some r, some (type, inst) =>
    let p := keyPage k
    let off := k % 4096
    if hasHeader type && off < 0x040 then d.headerWrite p off v r else d.blockWrite p type inst off v r
  | _, _ => d

/-- A register write on the module: PW_CTRL may wake it from L2 and with that act on the seed store (R492, R493, R522). -/
def busWrite (m : Perm) (d : Dev) (fn off v : Nat) : Perm × Dev :=
  if !d.up then (m, d)
  else
    let k := busKey fn off
    if k = pf 8 0x104 then d.standbyWrite m v else (m, d.write k v)

/-- REGISTER_WRITE (R66). -/
def execRegisterWrite (fn off : Nat) (value : Word) (s : State) : Host.Outcome State Fault Refusal :=
  if fn < fnCount then
    (let r := busWrite s.perm s.dev fn off value.toNat
     .next { s with dev := r.2, perm := r.1 })
  else .fault .noSuchFunction

/-- SELECTION_WRITE: a write to a selection register of a PF page (R66, R565). -/
def execSelectionWrite (slot off : Nat) (value : Word) (s : State) : Host.Outcome State Fault Refusal :=
  let r := busWrite s.perm s.dev 0 (slot % 4096 * 4096 + off % 4096) value.toNat
  .next { s with dev := r.2, perm := r.1 }

end Sys2Proof.Machine
end

