-- ==== Sys2Proof/Machine/Dispatch.lean ====
section
/-! DEFINITION. The one dispatch: each command to its meaning. -/

namespace Sys2Proof.Machine

/-- The effect of a command on everything but the queue. -/
def exec (i : Instr) (s : State) : Host.Outcome State Fault Refusal :=
  match i with
  | .rowBoundary => Sys2Proof.Machine.execRowBoundary s
  | .accessWindow => Sys2Proof.Machine.execAccessWindow s
  | .planCommit late lateGroups => Sys2Proof.Machine.execPlanCommit late lateGroups s
  | .planDeadline lateGroups => Sys2Proof.Machine.execPlanDeadline lateGroups s
  | .runonExpiry => Sys2Proof.Machine.execRunonExpiry s
  | .stitchStart slot inputs => Sys2Proof.Machine.execStitchStart slot inputs s
  | .stitchCommit slot => Sys2Proof.Machine.execStitchCommit slot s
  | .slotEnd slot => Sys2Proof.Machine.execSlotEnd slot s
  | .stallLimit strand => Sys2Proof.Machine.execStallLimit strand s
  | .pinAgeExpiry strand => Sys2Proof.Machine.execPinAgeExpiry strand s
  | .rowsyncEdge ns => Sys2Proof.Machine.execRowsyncEdge ns s
  | .syncLoss => Sys2Proof.Machine.execSyncLoss s
  | .relock => Sys2Proof.Machine.execRelock s
  | .enableRequest fn slot value => Sys2Proof.Machine.execEnableRequest fn slot value s
  | .enableCheckDone fn slot => Sys2Proof.Machine.execEnableCheckDone fn slot s
  | .disableWrite slot value => Sys2Proof.Machine.execDisableWrite slot value s
  | .qpDisable q => Sys2Proof.Machine.execQpDisable q s
  | .qpDrainDone q => Sys2Proof.Machine.execQpDrainDone q s
  | .softReset fn slot => Sys2Proof.Machine.execSoftReset fn slot s
  | .blockResetDone fn slot => Sys2Proof.Machine.execBlockResetDone fn slot s
  | .commit => Sys2Proof.Machine.execCommit s
  | .publishCheckDone => Sys2Proof.Machine.execPublishCheckDone s
  | .admCtrlEnable value => Sys2Proof.Machine.execAdmCtrlEnable value s
  | .sqDoorbell q tail => Sys2Proof.Machine.execSqDoorbell q tail s
  | .cqDoorbell q head => Sys2Proof.Machine.execCqDoorbell q head s
  | .entryFetch q entry input => Sys2Proof.Machine.execEntryFetch q entry input s
  | .commandDecision => Sys2Proof.Machine.execCommandDecision s
  | .irqDelayExpiry q => Sys2Proof.Machine.execIrqDelayExpiry q s
  | .publish e => Sys2Proof.Machine.execPublish e s
  | .reset e kind => Sys2Proof.Machine.execReset e kind s
  | .abortAny e strand => Sys2Proof.Machine.execAbortAny e strand s
  | .objectLoadShared e offset => Sys2Proof.Machine.execObjectLoadShared e offset s
  | .embed e inputTokens outFmt => Sys2Proof.Machine.execEmbed e inputTokens outFmt s
  | .search e f => Sys2Proof.Machine.execSearch e f s
  | .retrieveRank e f => Sys2Proof.Machine.execRetrieveRank e f s
  | .rank e batch itemLen => Sys2Proof.Machine.execRank e batch itemLen s
  | .embedLookup e bags lookups pool outFmt => Sys2Proof.Machine.execEmbedLookup e bags lookups pool outFmt s
  | .embedUpdate e rowsIn optimiser rate => Sys2Proof.Machine.execEmbedUpdate e rowsIn optimiser rate s
  | .generate e f => Sys2Proof.Machine.execGenerate e f s
  | .retrieveGenerate e f retrieveOff => Sys2Proof.Machine.execRetrieveGenerate e f retrieveOff s
  | .indexInsert e count => Sys2Proof.Machine.execIndexInsert e count s
  | .indexDelete e count => Sys2Proof.Machine.execIndexDelete e count s
  | .indexBuild e neighbours dim metric indexClass => Sys2Proof.Machine.execIndexBuild e neighbours dim metric indexClass s
  | .objectLoad e offset => Sys2Proof.Machine.execObjectLoad e offset s
  | .abort e byStrand targetQp targetCid strand => Sys2Proof.Machine.execAbort e byStrand targetQp targetCid strand s
  | .markerUnpick e marker value => Sys2Proof.Machine.execMarkerUnpick e marker value s
  | .fwHeader e => Sys2Proof.Machine.execFwHeader e s
  | .fwBody e offset => Sys2Proof.Machine.execFwBody e offset s
  | .fwCommit e => Sys2Proof.Machine.execFwCommit e s
  | .fwCancel e => Sys2Proof.Machine.execFwCancel e s
  | .fwRevert e => Sys2Proof.Machine.execFwRevert e s
  | .digestDone => Sys2Proof.Machine.execDigestDone s
  | .rewriteStart => Sys2Proof.Machine.execRewriteStart s
  | .loaderReport part ok => Sys2Proof.Machine.execLoaderReport part ok s
  | .rewriteTimeout => Sys2Proof.Machine.execRewriteTimeout s
  | .cgRestartDone group => Sys2Proof.Machine.execCgRestartDone group s
  | .pldmRequestUpdate header => Sys2Proof.Machine.execPldmRequestUpdate header s
  | .pldmTransferComplete body => Sys2Proof.Machine.execPldmTransferComplete body s
  | .activateFirmware => Sys2Proof.Machine.execActivateFirmware s
  | .ixMerge => Sys2Proof.Machine.execIxMerge s
  | .ixCancel => Sys2Proof.Machine.execIxCancel s
  | .jobStart handle => Sys2Proof.Machine.execJobStart handle s
  | .jobResult handle => Sys2Proof.Machine.execJobResult handle s
  | .selectionWrite slot off value => Sys2Proof.Machine.execSelectionWrite slot off value s
  | .rcRead fn off => Sys2Proof.Machine.execRcRead fn off s
  | .pairLoRead fn off => Sys2Proof.Machine.execPairLoRead fn off s
  | .pairHiRead fn off => Sys2Proof.Machine.execPairHiRead fn off s
  | .registerWrite fn off value => Sys2Proof.Machine.execRegisterWrite fn off value s
  | .markerSignal marker add operand srcKind source strand met => Sys2Proof.Machine.execMarkerSignal marker add operand srcKind source strand met s
  | .mkSelWrite page value => Sys2Proof.Machine.execMkSelWrite page value s
  | .mvIndexWrite page value => Sys2Proof.Machine.execMvIndexWrite page value s
  | .mvValueWrite page value => Sys2Proof.Machine.execMvValueWrite page value s
  | .mkForceGo page => Sys2Proof.Machine.execMkForceGo page s
  | .tierReadReturn tier server slot member late errors line handle granule => Sys2Proof.Machine.execTierReadReturn tier server slot member late errors line handle granule s
  | .recoveryDone line rebuilt => Sys2Proof.Machine.execRecoveryDone line rebuilt s
  | .compressedWrite die mismatches => Sys2Proof.Machine.execCompressedWrite die mismatches s
  | .scrubPass slot corrected rewritten => Sys2Proof.Machine.execScrubPass slot corrected rewritten s
  | .sliceLoadStart => Sys2Proof.Machine.execSliceLoadStart s
  | .sliceLoadDone => Sys2Proof.Machine.execSliceLoadDone s
  | .errorReport slot cls detail loc core => Sys2Proof.Machine.execErrorReport slot cls detail loc core s
  | .probeStart slot => Sys2Proof.Machine.execProbeStart slot s
  | .probeEnd slot passed => Sys2Proof.Machine.execProbeEnd slot passed s
  | .flProbe => Sys2Proof.Machine.execFlProbe s
  | .flSelWrite value => Sys2Proof.Machine.execFlSelWrite value s
  | .hostDmaReadError q cid => Sys2Proof.Machine.execHostDmaReadError q cid s
  | .hostWriteRefused q => Sys2Proof.Machine.execHostWriteRefused q s
  | .vfFlr vf => Sys2Proof.Machine.execVfFlr vf s
  | .vfBmeClear vf => Sys2Proof.Machine.execVfBmeClear vf s
  | .pfFlr => Sys2Proof.Machine.execPfFlr s
  | .perstAssert => Sys2Proof.Machine.execPerstAssert s
  | .perstDeassert => Sys2Proof.Machine.execPerstDeassert s
  | .strapChange slotId masterLow => Sys2Proof.Machine.execStrapChange slotId masterLow s
  | .powerTurnOn feedB loadersOk => Sys2Proof.Machine.execPowerTurnOn feedB loadersOk s
  | .powerOnReset failed => Sys2Proof.Machine.execPowerOnReset failed s
  | .rebuildDone => Sys2Proof.Machine.execRebuildDone s
  | .dropLost => Sys2Proof.Machine.execDropLost s
  | .feedSample aMv bMv aMa bMa => Sys2Proof.Machine.execFeedSample aMv bMv aMa bMa s
  | .feedLow feedB => Sys2Proof.Machine.execFeedLow feedB s
  | .sagDeclare => Sys2Proof.Machine.execSagDeclare s
  | .saveDone ok tenUs mJ => Sys2Proof.Machine.execSaveDone ok tenUs mJ s
  | .feedsReturn => Sys2Proof.Machine.execFeedsReturn s
  | .feedsOff => Sys2Proof.Machine.execFeedsOff s
  | .feedOvervoltage feedB => Sys2Proof.Machine.execFeedOvervoltage feedB s
  | .feedReconnect feedB => Sys2Proof.Machine.execFeedReconnect feedB s
  | .feedTransfer => Sys2Proof.Machine.execFeedTransfer s
  | .bankCheck => Sys2Proof.Machine.execBankCheck s
  | .bankCheckDue => Sys2Proof.Machine.execBankCheckDue s
  | .bankCheckDone uF => Sys2Proof.Machine.execBankCheckDone uF s
  | .standbySet => Sys2Proof.Machine.execStandbySet s
  | .l2Enter => Sys2Proof.Machine.execL2Enter s
  | .standbyClear => Sys2Proof.Machine.execStandbyClear s
  | .thermalWarning sensor eighths => Sys2Proof.Machine.execThermalWarning sensor eighths s
  | .thermalWarningClear sensor eighths => Sys2Proof.Machine.execThermalWarningClear sensor eighths s
  | .thermalTrip sensor eighths => Sys2Proof.Machine.execThermalTrip sensor eighths s
  | .secLockWrite value => Sys2Proof.Machine.execSecLockWrite value s
  | .setEndpointId i3c eid => Sys2Proof.Machine.execSetEndpointId i3c eid s
  | .pldmBaseRequest code => Sys2Proof.Machine.execPldmBaseRequest code s
  | .pldmPlatformRequest sensor => Sys2Proof.Machine.execPldmPlatformRequest sensor s
  | .pldmFruRequest => Sys2Proof.Machine.execPldmFruRequest s
  | .getVersion => Sys2Proof.Machine.execGetVersion s
  | .getCapabilities => Sys2Proof.Machine.execGetCapabilities s
  | .negotiateAlgorithms => Sys2Proof.Machine.execNegotiateAlgorithms s
  | .getDigests => Sys2Proof.Machine.execGetDigests s
  | .getCertificate slot offset length => Sys2Proof.Machine.execGetCertificate slot offset length s
  | .challenge slot nonce => Sys2Proof.Machine.execChallenge slot nonce s
  | .getMeasurements index nonce => Sys2Proof.Machine.execGetMeasurements index nonce s
  | .keyExchange slot exchange => Sys2Proof.Machine.execKeyExchange slot exchange s
  | .finish verify => Sys2Proof.Machine.execFinish verify s
  | .heartbeat => Sys2Proof.Machine.execHeartbeat s
  | .endSession => Sys2Proof.Machine.execEndSession s
  | .spdmUnsupported code => Sys2Proof.Machine.execSpdmUnsupported code s
  | .rowMarker cascadeRow arrivalNs delayNs redundant swatch => Sys2Proof.Machine.execRowMarker cascadeRow arrivalNs delayNs redundant swatch s
  | .prepare index modules => Sys2Proof.Machine.execPrepare index modules s
  | .memberReply member reply code slot swatch period topology => Sys2Proof.Machine.execMemberReply member reply code slot swatch period topology s
  | .cascadeReplyDeadline => Sys2Proof.Machine.execCascadeReplyDeadline s
  | .go cascadeRow counter => Sys2Proof.Machine.execGo cascadeRow counter s
  | .abandon => Sys2Proof.Machine.execAbandon s
  | .commitForward => Sys2Proof.Machine.execCommitForward s
  | .partBroadcast strand counter e f kPrime passages query => Sys2Proof.Machine.execPartBroadcast strand counter e f kPrime passages query s
  | .gatherList strand member entries passed nans => Sys2Proof.Machine.execGatherList strand member entries passed nans s
  | .passageFetchRequest strand pids => Sys2Proof.Machine.execPassageFetchRequest strand pids s
  | .passageFetchReply strand passages => Sys2Proof.Machine.execPassageFetchReply strand passages s
  | .partEnd strand => Sys2Proof.Machine.execPartEnd strand s
  | .partRefusal strand code => Sys2Proof.Machine.execPartRefusal strand code s
  | .runningSumArrival strand sums => Sys2Proof.Machine.execRunningSumArrival strand sums s
  | .memberLost member => Sys2Proof.Machine.execMemberLost member s
  | .isolate => Sys2Proof.Machine.execIsolate s
  | .casLeave => Sys2Proof.Machine.execCasLeave s
  | .linkRetry port failed => Sys2Proof.Machine.execLinkRetry port failed s
  | .linkTrainingDone port lanes delayNs peerModule peerMaster peerPort => Sys2Proof.Machine.execLinkTrainingDone port lanes delayNs peerModule peerMaster peerPort s
  | .laneFail port lane => Sys2Proof.Machine.execLaneFail port lane s
  | .linkDown port => Sys2Proof.Machine.execLinkDown port s
  | .d2dRetry link failed => Sys2Proof.Machine.execD2dRetry link failed s
  | .alertNLineChange low => Sys2Proof.Machine.execAlertNLineChange low s
  | .bankCharged => Sys2Proof.Machine.execBankCharged s
  | .memberReportsLocked member => Sys2Proof.Machine.execMemberReportsLocked member s
  | .pcieLinkRetrain rate width flit corr nonFatal fatal replays poisoned => Sys2Proof.Machine.execPcieLinkRetrain rate width flit corr nonFatal fatal replays poisoned s
  | .i3cDynamicAddress addr => Sys2Proof.Machine.execI3cDynamicAddress addr s

end Sys2Proof.Machine
end

