-- ==== Sys2Proof/Safety.lean ====
section
/-! DEFINITION. What counts as a safe run, and the terms in which statements say what a command leaves unchanged. -/

namespace Sys2Proof

/-- The state from which n steps lead to a next state: no fault and no refusal on the way. -/
def Runs (n : Nat) (s t : Machine.State) : Prop := core.run n s = .next t

/-- A state whose next step stops. -/
def Stops (s : Machine.State) : Prop := ∀ t, core.step s ≠ .next t

namespace Machine

/-! Frames -/

/-- Every register reads as before but those listed. -/
def RegsBut (ks : List Nat) (d e : Dev) : Prop := ∀ k, k ∉ ks → e.rg k = d.rg k

/-- What signalling can change: registers, remainders of counters, first errors, the records of the fault log and what has been sent.
Everything else of the device is as before. -/
def Sig (d e : Dev) : Prop :=
  ∃ r p f o l n, e = { d with regs := r, part := p, firsts := f, sent := o, fault := { d.fault with log := l, seen := n } }

/-- What posting a completion can change: what signalling can, and the queues. -/
def Posts (d e : Dev) : Prop :=
  ∃ r p f o l n q, e = { d with regs := r, part := p, firsts := f, sent := o, fault := { d.fault with log := l, seen := n }, qps := q }

/-- What the work of strands can change: what posting can, strands, lanes, markers and the free values used. -/
def Works (d e : Dev) : Prop :=
  ∃ r p f o l n q a b c g,
    e = { d with regs := r, part := p, firsts := f, sent := o, fault := { d.fault with log := l, seen := n }, qps := q, strands := a,
                 lanes := b, markers := c, free := g }

/-- Only the device differs. -/
def DevOnly (s t : State) : Prop := t.perm = s.perm ∧ t.pending = s.pending

/-- Signals alone, on the registers listed. -/
def SigOn (ks : List Nat) (d e : Dev) : Prop := Sig d e ∧ RegsBut ks d e

/-- What was sent before stands, and x is among what was sent since. -/
def Sends (x : Out) (d e : Dev) : Prop := ∃ l, e.sent = d.sent ++ l ∧ x ∈ l

/-- MG_ALERT and the count of messages that tells of its change (R544, R553). -/
def alertRegs : List Nat := [pf 0xA 0x11C, pf 0xA 0x044]

/-- The registers that an error of a page changes beside its counters (R462, R463). -/
def errorRegs (p : Nat) : List Nat := [pf p 0x020, pf p 0x028, pf p 0x038, pf p 0x03C, msixPba 0 1] ++ alertRegs

/-- The registers that a fault-log record changes (R481, R482). -/
def logRegs : List Nat := [pf 7 0x108, pf 7 0x07C]

/-- The registers that a tenant event changes (R92). -/
def eventRegs (t : Nat) : List Nat := [regKey t 0x10C, msixPba t 64]

/-- The registers that a completion of a queue changes (R93, R111). -/
def doneRegs (q : QRef) : List Nat :=
  [queueReg q 0x044 0, queueReg q 0x048 0, queueReg q 0x050 0, msixPba q.tenant 0, msixPba q.tenant 32]

/-! Management -/

/-- The counters of a management message answered: messages received and sent (R557). -/
def messageRegs : List Nat := [pf 0xA 0x040, pf 0xA 0x044]

/-- An SPDM request answered with a response of a code: one message goes out, the request is counted, and the connection is as m (R554, R558). -/
def Answered (code : Nat) (m : Mgmt) (d e : Dev) : Prop :=
  (∃ data, e = { d with regs := e.regs, mgmt := m, sent := d.sent ++ [.mctp 5 code data] }) ∧
  e.rg (pf 9 0x040) = (d.rg (pf 9 0x040) + 1) % 2 ^ 32 ∧ RegsBut (pf 9 0x040 :: messageRegs) d e

/-- An SPDM request answered with an error and its data: it counts as a request and as an error (R554, R558). -/
def Declined (err : Nat) (data : List Nat) (m : Mgmt) (d e : Dev) : Prop :=
  e = { d with regs := e.regs, mgmt := m, sent := d.sent ++ [.mctp 5 0x7F (err :: data)] } ∧
  e.rg (pf 9 0x040) = (d.rg (pf 9 0x040) + 1) % 2 ^ 32 ∧ e.rg (pf 9 0x044) = (d.rg (pf 9 0x044) + 1) % 2 ^ 32 ∧
  RegsBut (pf 9 0x040 :: pf 9 0x044 :: messageRegs) d e

/-- A PLDM request of a type answered, and counted (R553, R557). -/
def PldmAnswered (type : Nat) (d e : Dev) : Prop :=
  (∃ data, e = { d with regs := e.regs, free := e.free, sent := d.sent ++ [.mctp 1 type data] }) ∧ d.free ≤ e.free ∧
  e.rg (pf 0xA 0x048) = (d.rg (pf 0xA 0x048) + 1) % 2 ^ 32 ∧ RegsBut (pf 0xA 0x048 :: messageRegs) d e

/-! Completions -/

/-- The final completion of a command without a strand, with a status, a reason, a count and EXTRA (R108, R109). -/
def Completed (c : Cmd) (status reason count extra : Nat) (d e : Dev) : Prop :=
  ∃ slot sqHead phase,
    Sends (.cqe c.q slot ((⟨c.cid, 1, 0, status, reason, 0, count, 0, 0, 0, extra, 0⟩ : Cqe).words sqHead phase)) d e

/-- A strand has entered ENDING: its reservations go at the next boundary (R114, R115). -/
def Strand.ended (s : Strand) : Strand := { s with state := 3, steps := [], final := none, work := Work.blank }

/-- The present step of a strand has dropped with a cause, and has no further drop in its row (R36, R39, R132); inside a round it stands one lane
later (R345). -/
def Dropped (cause : Nat) (a b : Strand) : Prop :=
  b = { a with drops := a.drops + 1, consec := a.consec + 1, cause := cause, lane := b.lane, fate := 1 }

/-! The commands of the queues -/

/-- The entry, the opcode and the per-command dwords of a command of R105 or R515. -/
def queued : Instr → Option (Entry × Nat × List Nat)
  | .publish e => some (e, 0x01, [])
  | .reset e kind => some (e, 0x02, [kind])
  | .fwHeader e => some (e, 0x03, [0])
  | .fwBody e off => some (e, 0x03, [1, off % 2 ^ 32, off / 2 ^ 32])
  | .fwCommit e => some (e, 0x03, [2])
  | .fwCancel e => some (e, 0x03, [3])
  | .fwRevert e => some (e, 0x03, [4])
  | .abortAny e strand => some (e, 0x04, [strand])
  | .objectLoadShared e off => some (e, 0x05, [off % 2 ^ 32, off / 2 ^ 32])
  | .embed e tokens fmt => some (e, 0x10, [b2n tokens, fmt])
  | .search e f => some (e, 0x11, searchDw f)
  | .retrieveRank e f => some (e, 0x12, retrieveDw f)
  | .rank e batch len => some (e, 0x13, [batch, len])
  | .embedLookup e bags lookups pool fmt => some (e, 0x14, [bags, lookups, pool, fmt])
  | .embedUpdate e rows opt rate => some (e, 0x15, [rows, opt, rate])
  | .generate e f => some (e, 0x18, genDw f 0)
  | .retrieveGenerate e f off => some (e, 0x19, genDw f off)
  | .indexInsert e n => some (e, 0x20, [n])
  | .indexDelete e n => some (e, 0x21, [n])
  | .indexBuild e nb dim metric cls => some (e, 0x22, [nb, dim, metric % 16 * 256 + cls % 16])
  | .objectLoad e off => some (e, 0x23, [off % 2 ^ 32, off / 2 ^ 32])
  | .abort e byStrand qp cid strand => some (e, 0x28, [b2n byStrand * 2 ^ 24 + qp % 64 * 65536 + cid % 65536, strand])
  | .markerUnpick e marker value => some (e, 0x29, [marker, value])
  | _ => none

/-- The command as the module holds it when it is fetched now. -/
def Dev.cmdFor (d : Dev) (x : Entry × Nat × List Nat) : Cmd := d.cmdOfEntry x.1 x.2.1 x.2.2

/-- The device as the decision on a command finds it: the command is off its queue and counted, and a queue that has been served in the
round opens the next round (R117, R118). -/
def Dev.deciding (d : Dev) (key : Nat) (c : Cmd) : Dev :=
  let n := d.modQp c.q fun x => { x with waiting := x.waiting.tail }
  { n with decided := n.decided + 1, served := (if n.served.contains key then [] else n.served) ++ [key] }

/-- The decision that COMMAND_DECISION takes now (R118): the first queue of the round that has not been served, or of the next round. -/
def Dev.nextDecision (d : Dev) : Option (Nat × Cmd) :=
  (d.queuesReady.find? fun x => !d.served.contains x.1).or d.queuesReady.head?

/-- A command admitted: its strand at the lowest free ID holds the footprint, the pools, the pins and the markers of the decision, and no
other strand changes (R113, R114, R122, R128, R154). -/
def Admitted (c : Cmd) (p : Plan) (owned : List Bool) (n e : Dev) : Prop :=
  (∃ x, nget e.strands n.freeId = some x ∧ x.cmd = c ∧ x.state = 1 ∧ x.admitRow = n.row.number ∧ x.counter = n.counter ∧ x.foot = p.foot ∧
    x.owned = owned ∧ x.pins = n.pinsOf p.pins ∧ x.markers = n.freeMarkers p.foot.markers ∧ x.start = n.row.number + 1 ∧ x.drops = 0 ∧
    x.final = none) ∧
  (∀ id, id ≠ n.freeId → nget e.strands id = nget n.strands id) ∧ Works n e ∧ e.qps = n.qps ∧ e.sent = n.sent

/-- The command is fetched and decided now: the module is up, the queue may fetch, nothing else waits for a decision, fewer than 512
decisions have been taken in the row, and neither a fence nor a hold keeps the command back (R97, R117, R119, R120, R438). -/
def Dev.decidesNow (d : Dev) (c : Cmd) : Prop :=
  d.up = true ∧ d.canFetch c.q = true ∧ d.undecided = [] ∧ d.decided < 512 ∧ (d.fetch c).ready ((d.fetch c).qp c.q) = some c

/-- An opcode whose command makes a strand (R105, R113). -/
def makesStrandOp (op : Nat) : Bool := (⟨⟨0, 0⟩, [op], [], 0⟩ : Cmd).makesStrand

/-- A phase of FW_TRANSFER acted: its completion, with a code (0: OK), is posted in the next row; a refusal is counted and keeps its
reason (R515, R530). -/
def Owes (c : Cmd) (code : Nat) (n e : Dev) : Prop :=
  (∃ b, e.owed = n.owed ++ [(c, code, b)]) ∧ e = { n with regs := e.regs, fw := e.fw, owed := e.owed } ∧
  (code ≠ 0 → e.rg (pf 0xB 0x104) = code ∧ e.rg (pf 0xB 0x044) = (n.rg (pf 0xB 0x044) + 1) % 2 ^ 32) ∧
  RegsBut [pf 0xB 0x040, pf 0xB 0x044, pf 0xB 0x104] n e

/-! The invariant of what no reset changes -/

/-- The seed store has three slots, the roles CURRENT, PREVIOUS and STAGING name each of them once, and the cellar holds at most two saves
with different numbers (R496, R511, R522, R525). -/
def Perm.Ok (m : Perm) : Prop :=
  m.seeds.length = 3 ∧ m.roles.Perm [0, 1, 2] ∧ m.saves.length ≤ 2 ∧ (m.saves.map (·.number)).Nodup

/-- The fault record and the firmware floor of m are kept in n (R476, R526). -/
def Perm.KeptIn (m n : Perm) : Prop :=
  (∀ p ∈ m.fenced, p ∈ n.fenced) ∧ (∀ r ∈ m.retired, r ∈ n.retired) ∧ (∀ c ∈ m.cores, c ∈ n.cores) ∧ m.floor ≤ n.floor

end Machine

end Sys2Proof
end

