-- ==== Sys2Proof/WellFormed.lean ====
section
/-! DEFINITION. Well-formed commands: every number within the range the spec gives what it names. -/

namespace Sys2Proof

/-- A queue of tenants 1 to 16 with its queue pairs 0 to 63, or the admin queue (R20, R112). -/
def QRef.wf (q : QRef) : Bool := if q.tenant = 0 then q.qp == 0 else q.tenant ≤ 16 && q.qp < 64

/-- The fields of an entry fit their widths (R101) and the input buffer has INPUT_LEN bytes. -/
def Entry.wf (e : Entry) : Bool :=
  e.q.wf && e.cid < 2 ^ 16 && e.object < 2 ^ 32 && e.inAddr < 2 ^ 64 && e.inLen < 2 ^ 32 && e.outLen < 2 ^ 32 && e.outAddr < 2 ^ 64 &&
    e.input.length == e.inLen

def SearchF.wf (f : SearchF) : Bool :=
  f.k < 2 ^ 32 && f.extensions < 256 && f.runnerDepth < 256 && f.overfetch < 256 && f.filter < 2 ^ 32 && f.queryFmt < 16 &&
    f.queryDim < 2 ^ 16

def RetrieveF.wf (f : RetrieveF) : Bool :=
  f.k < 2 ^ 32 && f.candidates < 2 ^ 32 && f.extensions < 256 && f.runnerDepth < 256 && f.overfetch < 256 && f.filter < 2 ^ 32 &&
    f.embedModel < 2 ^ 32 && f.rerankModel < 2 ^ 32 && f.passages < 2 ^ 32

def GenF.wf (f : GenF) : Bool :=
  f.maxNew < 2 ^ 32 && f.seed < 2 ^ 32 && f.grammar < 2 ^ 32 && f.stopCount < 256 && f.stopOff < 2 ^ 16 && f.samplingOff < 2 ^ 16 &&
    f.flags < 32

/-- A command on an admin queue (R112). -/
def Entry.admin (e : Entry) : Bool := e.wf && e.q.tenant == 0

/-- A command on a tenant's queue. -/
def Entry.tenant (e : Entry) : Bool := e.wf && e.q.tenant != 0

/-- A function number and a slot of its register space (R58, R84, R90). -/
def pageWf (fn slot : Nat) : Bool := if fn = 0 then slot < 0x1D5 else fn ≤ 16 && slot < 65

/-- The command is well formed. -/
def Instr.wf : Instr → Bool
  | .planCommit _ l => l.all (· < 4)
  | .planDeadline l => l.all (· < 4)
  | .stallLimit n => n < 2 ^ 14
  | .pinAgeExpiry n => n < 2 ^ 14
  | .enableRequest fn slot _ => pageWf fn slot
  | .enableCheckDone fn slot => pageWf fn slot
  | .disableWrite slot _ => pageWf 0 slot
  | .qpDisable q => q.wf && q.tenant != 0
  | .qpDrainDone q => q.wf
  | .softReset fn slot => pageWf fn slot
  | .blockResetDone fn slot => pageWf fn slot
  | .sqDoorbell q tail => q.wf && tail < 2 ^ 16
  | .cqDoorbell q head => q.wf && head < 2 ^ 16
  | .entryFetch q entry _ => q.wf && entry.length == 64
  | .irqDelayExpiry q => q.wf
  | .publish e => e.admin
  | .reset e kind => e.admin && kind < 2 ^ 32
  | .abortAny e strand => e.admin && strand < 2 ^ 32
  | .objectLoadShared e offset => e.admin && offset < 2 ^ 64
  | .embed e _ fmt => e.tenant && fmt < 16
  | .search e f => e.tenant && f.wf
  | .retrieveRank e f => e.tenant && f.wf
  | .rank e batch item => e.tenant && batch < 2 ^ 32 && item < 2 ^ 32
  | .embedLookup e bags lookups pool fmt => e.tenant && bags < 2 ^ 32 && lookups < 2 ^ 32 && pool < 16 && fmt < 16
  | .embedUpdate e rows opt rate => e.tenant && rows < 2 ^ 32 && opt < 16 && rate < 2 ^ 32
  | .generate e f => e.tenant && f.wf
  | .retrieveGenerate e f off => e.tenant && f.wf && off < 2 ^ 16
  | .indexInsert e n => e.tenant && n < 2 ^ 32
  | .indexDelete e n => e.tenant && n < 2 ^ 32
  | .indexBuild e nb dim metric cls => e.tenant && nb < 2 ^ 32 && dim < 2 ^ 16 && metric < 16 && cls < 16
  | .objectLoad e offset => e.tenant && offset < 2 ^ 64
  | .abort e _ qp cid strand => e.tenant && qp < 64 && cid < 2 ^ 16 && strand < 2 ^ 32
  | .markerUnpick e marker value => e.tenant && marker < 2 ^ 32 && value < 2 ^ 32
  | .fwHeader e | .fwCommit e | .fwCancel e | .fwRevert e => e.admin
  | .fwBody e offset => e.admin && offset < 2 ^ 64
  | .loaderReport part _ => 1 ≤ part && part ≤ 7
  | .cgRestartDone g => g < 4
  | .selectionWrite slot off _ => pageWf 0 slot && off < 4096 && off % 4 == 0
  | .rcRead fn off | .pairLoRead fn off | .pairHiRead fn off => fn ≤ 16 && off % 4 == 0
  | .registerWrite fn off _ => fn ≤ 17 && off % 4 == 0
  | .markerSignal m _ _ kind _ strand _ => m < 4096 && kind < 16 && strand < 2 ^ 14
  | .mkSelWrite p _ | .mvIndexWrite p _ | .mvValueWrite p _ | .mkForceGo p => pageWf 0 p
  | .tierReadReturn tier _ _ _ _ errors _ _ _ => tier ≤ 3 && errors.all (·.2 < 2 ^ 16)
  | .recoveryDone line _ => line.tier ≤ 3
  | .compressedWrite die _ => die < 2
  | .scrubPass slot _ _ => pageWf 0 slot
  | .errorReport slot cls _ _ core => pageWf 0 slot && cls < 12 && core < 16
  | .probeStart slot | .probeEnd slot _ => pageWf 0 slot
  | .hostDmaReadError q cid => q.wf && cid < 2 ^ 16
  | .hostWriteRefused q => q.wf
  | .vfFlr vf | .vfBmeClear vf => 1 ≤ vf && vf ≤ 16
  | .strapChange slotId _ => slotId < 16
  | .powerOnReset failed => failed.all fun p => pageWf 0 p
  | .thermalWarning _ e | .thermalWarningClear _ e | .thermalTrip _ e => e < 4096
  | .setEndpointId _ eid => eid < 256
  | .pldmBaseRequest code | .spdmUnsupported code => code < 256
  | .challenge _ nonce | .getMeasurements _ nonce => nonce.length == 32
  | .keyExchange _ x => x.length == 96
  | .prepare i n => i < n && n ≤ 16
  | .go _ c => c < 2 ^ 48
  | .memberReply m reply _ _ _ _ _ => m < 256 && reply < 4
  | .partBroadcast strand _ e f _ _ _ => strand < 2 ^ 14 && e.wf && f.wf
  | .gatherList strand m _ _ _ => strand < 2 ^ 14 && m < 16
  | .passageFetchRequest strand _ | .passageFetchReply strand _ | .partEnd strand | .partRefusal strand _
  | .runningSumArrival strand _ => strand < 2 ^ 14
  | .memberLost m | .memberReportsLocked m => m < 16
  | .linkRetry port _ | .linkDown port | .laneFail port _ | .linkTrainingDone port _ _ _ _ _ => port < 4
  | .d2dRetry link failed => link < 2 && failed.errors.all (·.2 < 2 ^ 16)
  | .i3cDynamicAddress a => a < 128
  | .rowBoundary | .accessWindow | .runonExpiry | .stitchStart _ _ | .stitchCommit _ | .slotEnd _ | .rowsyncEdge _ | .syncLoss | .relock
  | .commit | .publishCheckDone | .admCtrlEnable _ | .commandDecision | .digestDone | .rewriteStart | .rewriteTimeout
  | .pldmRequestUpdate _ | .pldmTransferComplete _ | .activateFirmware | .ixMerge | .ixCancel | .jobStart _ | .jobResult _
  | .sliceLoadStart | .sliceLoadDone | .flProbe | .flSelWrite _ | .pfFlr | .perstAssert | .perstDeassert
  | .powerTurnOn _ _ | .rebuildDone | .dropLost | .feedSample _ _ _ _ | .feedLow _ | .sagDeclare | .saveDone _ _ _ | .feedsReturn
  | .feedsOff | .feedOvervoltage _ | .feedReconnect _ | .feedTransfer | .bankCheck | .bankCheckDue | .bankCheckDone _ | .standbySet
  | .l2Enter | .standbyClear | .secLockWrite _ | .pldmPlatformRequest _ | .pldmFruRequest | .getVersion | .getCapabilities
  | .negotiateAlgorithms | .getDigests | .getCertificate _ _ _ | .finish _ | .heartbeat | .endSession | .rowMarker _ _ _ _ _
  | .cascadeReplyDeadline | .abandon | .commitForward | .isolate | .casLeave | .alertNLineChange _ | .bankCharged
  | .pcieLinkRetrain _ _ _ _ _ _ _ _ => true

end Sys2Proof
end

