-- ==== Sys2Proof/Certificates/Slice0/Obligations.lean ====
section
/-! DEFINITION. The statements for the provers. Each says what the commands it names answer (a next state, by the equation of its
conclusion), what that state holds, and what it leaves as it was: a state of the form { s with dev := e } differs in the device alone; Sig,
Posts, Works and RegsBut (Safety.lean) say what of the device can differ. -/

section

open Sys2Proof Sys2Proof.Machine

/-! The queue, completion, reset and what no reset changes -/

/-- A step runs the command at the front of the queue with the queue's rest; on an empty queue the block idles (log 2). -/
def Obligations.StepRunsFront : Prop :=
  (∀ (c : Instr) (rest : List Instr) (s : State), s.pending = c :: rest → step s = exec c { s with pending := rest }) ∧
  (∀ s : State, s.pending = [] → step s = .next s)

/-- Every well-formed command answers a next state and leaves the queue as it is. -/
def Obligations.EveryCommandCompletes : Prop :=
  ∀ (c : Instr) (s : State), c.wf = true → ∃ t, exec c s = .next t ∧ t.pending = s.pending

/-- An access to a function that the module does not have stops with its own fault (R84, R86). -/
def Obligations.AbsentFunction : Prop :=
  ∀ (fn n : Nat) (v : Word) (s : State), 18 ≤ fn →
    exec (.registerWrite fn n v) s = .fault .noSuchFunction ∧ exec (.rcRead fn n) s = .fault .noSuchFunction ∧
    exec (.pairLoRead fn n) s = .fault .noSuchFunction ∧ exec (.pairHiRead fn n) s = .fault .noSuchFunction ∧
    exec (.enableRequest fn n v) s = .fault .noSuchFunction ∧ exec (.enableCheckDone fn n) s = .fault .noSuchFunction ∧
    exec (.softReset fn n) s = .fault .noSuchFunction ∧ exec (.blockResetDone fn n) s = .fault .noSuchFunction

/-- The state after reset, the point before POWER_ON_RESET (the choice of that point: log 16): every register at its reset value, in its
shadow and in force; a row of 250 µs whose window is that of R28; units 0 to a − 1 of each type active and the rest spares; no page
running, no strand, no object, no queue open, nothing waiting. -/
def Obligations.ResetLeaves : Prop :=
  (∀ k, State.reset.dev.rg k = resetOf k ∧ State.reset.dev.inForce k = resetOf k) ∧
  State.reset.dev.period = 250 ∧ State.reset.dev.budget = budget 250 ∧ State.reset.dev.counter = 0 ∧
  (∀ p, State.reset.dev.on p = false) ∧
  (∀ p type inst spares a, pageInfo p = some (type, inst) → sparing type = some (spares, a) →
    ((State.reset.dev.page p).spare = true ↔ a ≤ inst) ∧ (inst < a → (State.reset.dev.page p).active = inst)) ∧
  (∀ q, State.reset.dev.qp q = Qp.fresh) ∧ (∀ h, State.reset.dev.obj h = Obj.blank) ∧ (∀ i, State.reset.dev.marker i = Marker.free) ∧
  State.reset.dev.strands = [] ∧ State.reset.dev.row.running = false ∧ State.reset.dev.row.number = 0 ∧ State.reset.pending = []

/-- The seed store and the cellar are in order after reset. -/
def Obligations.ResetKeepsOrder : Prop := State.reset.perm.Ok

/-- Every step keeps the seed store and the cellar in order: three image slots whose three roles name each of them once, and at most two
saves with numbers that differ (R496, R511, R522, R525). -/
def Obligations.StepKeepsOrder : Prop := ∀ s t : State, s.perm.Ok → step s = .next t → t.perm.Ok

/-- No command takes a fence, a retired location or a fenced control core out of the fault record, or lowers FW_SEC_FLOOR (R476, R526). -/
def Obligations.FaultRecordStays : Prop := ∀ (c : Instr) (s t : State), exec c s = .next t → s.perm.KeptIn t.perm

/-- The 64 bytes of an entry give back its 16 dwords, and every field of the common layout its value (R101). -/
def Obligations.EntryRoundTrip : Prop :=
  ∀ (e : Entry) (opcode row : Nat) (f : List Nat), e.wf = true → opcode < 256 → (∀ x ∈ f, x < 2 ^ 32) →
    let c : Cmd := ⟨e.q, entryDwords (entryBytes (sqeOf e opcode f)), e.input, row⟩
    (entryBytes (sqeOf e opcode f)).length = 64 ∧ c.sqe = sqeOf e opcode f ∧ c.opcode = opcode ∧ c.noIrq = e.noIrq ∧ c.fence = e.fence ∧
    c.cid = e.cid ∧ c.object = e.object ∧ c.inAddr = e.inAddr ∧ c.inLen = e.inLen ∧ c.outLen = e.outLen ∧ c.outAddr = e.outAddr ∧
    (∀ i, i < 7 → c.dw (8 + i) = f.getD i 0) ∧ c.dw 15 = 0

/-- The eight dwords of a completion entry hold its fields at the places of R108, reserved bits 0. -/
def Obligations.CompletionLayout : Prop :=
  ∀ (c : Cqe) (sqHead : Nat) (phase : Bool),
    let w (i : Nat) := (c.words sqHead phase).getD i 0
    (c.words sqHead phase).length = 8 ∧
    bits (w 0) 31 16 = sqHead % 65536 ∧ bits (w 0) 15 0 = c.cid % 65536 ∧
    bits (w 1) 31 25 = 0 ∧ bits (w 1) 24 19 = c.flags % 64 ∧ bits (w 1) 18 17 = c.kind % 4 ∧ bit (w 1) 16 = phase ∧
    bits (w 1) 15 0 = c.status % 65536 ∧
    bits (w 2) 31 16 = c.reason % 65536 ∧ bits (w 2) 15 14 = 0 ∧ bits (w 2) 13 0 = c.strand % 16384 ∧
    w 3 = c.count % 2 ^ 32 ∧ w 4 = c.admitRow % 2 ^ 32 ∧ bits (w 5) 31 16 = min c.drops 65535 ∧ bits (w 5) 15 0 = min c.rows 65535 ∧
    w 6 = c.extra % 2 ^ 32 ∧ w 7 = c.epoch % 2 ^ 32

/-! The row -/

/-- ROW_BOUNDARY while the row runs: the next row begins, with no window opened and no correction, and what reads return is what the
boundary leaves (R29, R54, R55, R565); a stopped row has no boundary. The model's reading: what the ended row still owes comes first: log 2. -/
def Obligations.RowAdvances : Prop :=
  (∀ s : State, s.dev.row.running = true →
    ∃ t, exec .rowBoundary s = .next t ∧ t.pending = s.pending ∧ t.dev.row.number = s.dev.row.number + 1 ∧ t.dev.row.windows = 0 ∧
      t.dev.row.corr = 0 ∧ t.dev.snapStrands = t.dev.strands ∧ t.dev.snapObjs = t.dev.objs ∧ t.dev.snapJobs = t.dev.jobs ∧
      t.dev.snapLanes = t.dev.lanes) ∧
  (∀ s : State, s.dev.row.running = false → exec .rowBoundary s = .next s)

/-- ACCESS_WINDOW delivers every doorbell tail that waits and returns every slot that a CQ head gave back, and no more (R54, R97, R100); with the
row stopped outside L2 none opens (log 41). -/
def Obligations.WindowDelivers : Prop :=
  (∀ s : State, s.dev.row.running = true ∨ s.dev.power.l2 = true →
    ∃ e, exec .accessWindow s = .next { s with dev := e } ∧
      (∀ q, e.qp q = { s.dev.qp q with
        tail := (s.dev.qp q).seenTail, tailNew := none
        unreturned := (s.dev.qp q).unreturned - (s.dev.qp q).returning, cqHead := (s.dev.qp q).seenHead, cqNew := none }) ∧
      e = { s.dev with qps := e.qps, row := { s.dev.row with windows := s.dev.row.windows + 1 } }) ∧
  (∀ s : State, s.dev.row.running = false → s.dev.power.l2 = false → exec .accessWindow s = .next s)

/-- PLAN_COMMIT in time: the next row is planned, the plan counters of the four control groups change, and slices of the next row join the
weight order behind those that stand in it, to be loaded ahead (R33, R189); nothing else changes. The model's reading: log 5. -/
def Obligations.PlanInTime : Prop :=
  ∀ (groups : List Nat) (s : State), s.dev.row.running = true → s.dev.withheld = false → s.dev.row.planned = false →
    s.dev.cannotPlan = false → s.dev.row.missedPlan = false →
    ∃ e l, exec (.planCommit false groups) s = .next { s with dev := e } ∧
      e = { s.dev with regs := e.regs, part := e.part, row := { s.dev.row with planned := true },
                       tiers := { s.dev.tiers with bed := s.dev.tiers.bed ++ l } } ∧
      (∀ x ∈ l, x.phase = 0 ∧ x.users = [] ∧ x.ahead = true) ∧
      RegsBut [pf 2 0x040, pf 3 0x040, pf 4 0x040, pf 5 0x040] s.dev e

/-- The deadline passed without a plan, or a plan committed late and discarded: one plan miss for the row, counted in PLAN_MISS, and one for
each control group that was late, group 0 when none is named (R33, R49, R509, R510). The model's reading: how a miss of several groups
counts: log 29. -/
def Obligations.PlanMissed : Prop :=
  ∀ (groups : List Nat) (c : Instr) (s : State), c = .planDeadline groups ∨ (c = .planCommit true groups ∧ s.dev.cannotPlan = false) →
    s.dev.row.running = true → s.dev.row.planned = false → s.dev.withheld = false → s.dev.row.missedPlan = false →
    s.dev.row.runonCause ≠ 2 → s.dev.runonFull = false →
    ∃ e, exec c s = .next { s with dev := e } ∧
      e = { s.dev with regs := e.regs, row := { s.dev.row with missedPlan := true, runonCause := 1 } } ∧
      e.rg (pf 1 0x068) = (s.dev.rg (pf 1 0x068) + 1) % 2 ^ 32 ∧
      (∀ g, g < 4 → e.rg (pf (2 + g) 0x044) =
        (s.dev.rg (pf (2 + g) 0x044) + if g ∈ groups ∨ (groups = [] ∧ g = 0) then 1 else 0) % 2 ^ 32) ∧
      RegsBut [pf 1 0x068, pf 2 0x044, pf 3 0x044, pf 4 0x044, pf 5 0x044] s.dev e

/-- RUNON_EXPIRY when the run-on in force has lasted its floor(200,000 / P) rows: a WARM is due at the next boundary, the expiry is the
newest record of the fault log and adds 1 to FL_RUNON_EXPIRY; FIRMWARE is set on the row-timer page (R52, R482). -/
def Obligations.RunonEnds : Prop :=
  ∀ s : State, s.dev.row.running = true → s.dev.runonFull = true → s.dev.row.planned = false → s.dev.power.warm = false →
    s.dev.power.warmCause = 0 → s.dev.inStart = false → s.dev.power.sag = false →
    ∃ e, exec .runonExpiry s = .next { s with dev := e } ∧ Sig { s.dev with power := { s.dev.power with warmCause := 2 } } e ∧
      e.rg (pf 7 0x074) = (s.dev.rg (pf 7 0x074) + 1) % 2 ^ 32 ∧ bit (e.rg (pf 1 0x020)) 7 = true ∧
      (∃ r, e.fault.log.getLast? = some r ∧ r.event = 0x0A ∧ r.row = s.dev.row.number) ∧
      RegsBut (pf 7 0x074 :: errorRegs 1 ++ logRegs) s.dev e

/-- STITCH_START of a planned stitch whose members still stand in its step: it runs and waits for the inputs not yet there: its slice when it is
not loaded (R191), a marker whose condition does not hold (R419), any read or transfer that its members' T0 scratch does not keep from a stitch
cut short (R32). A slot without a planned stitch, or whose members have all left the step, stays as it is. The model's reading: log 7. -/
def Obligations.StitchStarts : Prop :=
  (∀ (i : Nat) (inputs : List Input) (sl : Slot) (s : State), s.dev.row.slots[i]? = some sl → sl.phase = 0 → s.dev.liveMembers sl ≠ [] →
    ∃ e, exec (.stitchStart i inputs) s = .next { s with dev := e } ∧
      e.row.slots[i]? = some { sl with
        phase := 1, got := []
        inputs := (notKept (s.dev.keptBy sl.members) (inputs.filter fun (x : Input) => x.src != .needle) ++
          if s.dev.sliceLoaded i then [] else [(⟨none, .needle⟩ : Input)]).filter fun x => match x.src with
            | .marker j t _ => !markerMet (s.dev.marker j).value t
            | _ => true } ∧
      e = { s.dev with regs := e.regs, part := e.part, markers := e.markers, strands := e.strands, cores := e.cores,
                       row := { s.dev.row with slots := e.row.slots } } ∧
      (∀ j, (e.marker j).value = (s.dev.marker j).value ∧ (e.marker j).holder = (s.dev.marker j).holder) ∧
      (∀ id, id ∉ sl.members → nget e.strands id = nget s.dev.strands id) ∧
      (∀ id x, nget s.dev.strands id = some x → ∃ u, nget e.strands id = some { x with core := u }) ∧
      (s.dev.arraySlot sl = false → e.strands = s.dev.strands ∧ e.cores = s.dev.cores) ∧
      (s.dev.arraySlot sl = true → (∀ id ∈ sl.members, ∀ x, nget e.strands id = some x → x.core = sl.unit) ∧
        ∃ l, nget e.cores sl.unit = some l ∧ ∀ a ∈ l, a.loading = true) ∧
      (∀ k, k ≠ pf 0xE 0x04C → (∀ j, k ≠ pf (0x030 + j / 1024) 0x044) → e.rg k = s.dev.rg k)) ∧
  (∀ (i : Nat) (inputs : List Input) (s : State), (∀ sl, s.dev.row.slots[i]? = some sl → sl.phase ≠ 0 ∨ s.dev.liveMembers sl = []) →
    exec (.stitchStart i inputs) s = .next s)

/-- STITCH_COMMIT of a running stitch whose unit has reported no error, whose shared inputs and slice are there (R37, R191), and one member of
which has every input of its own: the slot is committed, and what else changes is the work of its strands, the arrays of its core and the slices
it frees (R32, R37, R189, R268). The last stitch of a step on a row that computes nothing of its own (update, insert, delete, build and transfer
rows) moves its strand to its next step (R36, R38). Otherwise nothing changes. The model's reading: log 7. -/
def Obligations.StitchCommits : Prop :=
  (∀ (i : Nat) (sl : Slot) (s : State), s.dev.row.slots[i]? = some sl → sl.phase = 1 → sl.faulted = false → none ∉ sl.tierErr →
    (∀ x ∈ sl.inputs, x.member ≠ none) → s.dev.sliceLoaded i = true →
    (∃ p ∈ s.dev.liveMembers sl, s.dev.memberLate sl (s.dev.runCore sl (s.dev.liveMembers sl)) p.1 = none) →
    ∃ e, exec (.stitchCommit i) s = .next { s with dev := e } ∧ e.row.slots[i]? = some { sl with phase := 2, inputs := [] } ∧
      (∀ j, j ≠ i → e.row.slots[j]? = s.dev.row.slots[j]?) ∧
      Works { s.dev with row := { s.dev.row with slots := e.row.slots }, tiers := { s.dev.tiers with bed := e.tiers.bed }, cores := e.cores } e ∧
      (∀ p ∈ s.dev.liveMembers sl, ∀ cause x, s.dev.memberLate sl (s.dev.runCore sl (s.dev.liveMembers sl)) p.1 = some cause →
        nget s.dev.strands p.1 = some x → x.fate = 0 → ∃ y, nget e.strands p.1 = some y ∧ Dropped cause x y) ∧
      (∀ id x st y rest, sl.members = [id] → sl.tierErr = [] → sl.inputs = [] → nget s.dev.strands id = some x → x.state = 2 → x.final = none →
        x.fate ≠ 2 → x.done = [] → x.steps = st :: rest → rest ≠ [] → st.stitches = [y] → y.role = .share → sl.stitch = 0 →
        st.kind ∈ [.update, .insert, .delete, .build, .transfer] →
        nget e.strands id = some { x with steps := rest, consec := 0, reading := [], scratch := [], fate := 2, stitchBase := x.stitchBase + 1 } ∧
          ∀ j, j ≠ id → nget e.strands j = nget s.dev.strands j)) ∧
  (∀ (i : Nat) (s : State),
    (∀ sl, s.dev.row.slots[i]? = some sl → sl.phase ≠ 1 ∨ sl.faulted = true ∨ none ∈ sl.tierErr ∨ (∃ x ∈ sl.inputs, x.member = none) ∨
      s.dev.sliceLoaded i = false ∨
      ∀ p ∈ s.dev.liveMembers sl, s.dev.memberLate sl (s.dev.runCore sl (s.dev.liveMembers sl)) p.1 ≠ none) →
    exec (.stitchCommit i) s = .next s)

/-- SLOT_END of a stitch that has not finished: it ends without commit, and the step of each member that still stands in it drops with its cause,
once in its row (R34, R35, R39): FAULT when the unit reported an error, then the cause that a shared input gives every member (R37), then its own;
reads that have come stay in scratch, those that have not go on (R32). A slot whose members have all left the step ends without a drop, and one
that is over stays as it is. The model's reading: which of several causes: log 35. -/
def Obligations.SlotEnds : Prop :=
  (∀ (i : Nat) (sl : Slot) (s : State), s.dev.row.slots[i]? = some sl → sl.phase < 2 →
    ∃ e, exec (.slotEnd i) s = .next { s with dev := e } ∧ e.row.slots[i]? = some { sl with phase := 3, inputs := [], got := [] } ∧
      (∀ j, j ≠ i → e.row.slots[j]? = s.dev.row.slots[j]?) ∧
      Works { s.dev with row := { s.dev.row with slots := e.row.slots }, tiers := { s.dev.tiers with bed := e.tiers.bed }, cores := e.cores } e ∧
      (∀ id x, id ∈ sl.members → nget s.dev.strands id = some x → (s.dev.stitchOf sl id).isSome = true → x.fate = 0 →
        ∃ cause y r k l, nget e.strands id = some y ∧ Dropped cause { x with reading := r, scratch := k, work := { x.work with parts := l } } y ∧
          (∀ z ∈ sl.inputs, isRead z.src = true → z.member = none ∨ z.member = some id → z.src ∈ r) ∧
          (∀ z ∈ sl.got, isRead z.src = true → z.member = none ∨ z.member = some id → z.src ∈ k) ∧
          (sl.faulted = true → cause = 6) ∧
          (sl.faulted = false → none ∈ sl.tierErr → cause = 4) ∧
          (sl.faulted = false → none ∉ sl.tierErr → ∀ z, sl.inputs.find? (fun u => u.member == none) = some z → cause = srcCause z.src) ∧
          (sl.faulted = false → none ∉ sl.tierErr → (∀ z ∈ sl.inputs, z.member ≠ none) →
            (some id ∈ sl.tierErr → cause = 4) ∧
            (some id ∉ sl.tierErr → ∀ z, sl.inputs.find? (fun u => u.member == some id) = some z → cause = srcCause z.src) ∧
            (some id ∉ sl.tierErr → (∀ z ∈ sl.inputs, z.member ≠ some id) →
              cause = (s.dev.memberLate sl (s.dev.runCore sl (s.dev.liveMembers sl)) id).getD 9))) ∧
      (∀ id, (s.dev.stitchOf sl id).isSome = false ∨ id ∉ sl.members → nget e.strands id = nget s.dev.strands id)) ∧
  (∀ (i : Nat) (s : State), (∀ sl, s.dev.row.slots[i]? = some sl → 2 ≤ sl.phase) → exec (.slotEnd i) s = .next s)

/-- STALL_LIMIT and PIN_AGE_EXPIRY on a strand of this module that has run to the limit, or that the pin age has passed while it holds an epoch
no longer current or a shorter period waits for it: it ends with STALLED and the cause of its last drop, or with EPOCH_EXPIRED and the rows held,
in a completion posted now with its strand ID; no other strand changes (R38, R108, R109, R136, R161). A strand at the stitch limit ends STALLED
though its pin age has passed too (R137); while a stitch of it still runs, the expiry waits for the end of the row. The model's reading: log 76. -/
def Obligations.StrandEnds : Prop :=
  (∀ (id : Nat) (x : Strand) (c : Instr) (status extra : Nat) (s : State), nget s.dev.strands id = some x → x.part = none → x.final = none →
    (x.state = 2 ∧ s.dev.atLimit x = true ∧ status = 0x11 ∧ extra = x.cause ∧
      (c = .stallLimit id ∨ (c = .pinAgeExpiry id ∧ s.dev.pinDue x = true ∧ s.dev.openSlot id = false))) ∨
    (c = .pinAgeExpiry id ∧ x.state ≠ 3 ∧ (s.dev.stalePin x = true ∨ s.dev.shorterWaits = true) ∧
      bits (s.dev.inForce (pf 2 0x200)) 15 0 * 1000000 < s.dev.row.timeNs - x.admitNs ∧ s.dev.openSlot id = false ∧
      (x.state = 2 → s.dev.atLimit x = false) ∧ status = 0x12 ∧ extra = s.dev.row.number - x.admitRow) →
    ∃ e, exec c s = .next { s with dev := e } ∧ Works s.dev e ∧ nget e.strands id = some x.ended ∧
      (∀ j, j ≠ id → nget e.strands j = nget s.dev.strands j) ∧
      ∃ slot sqHead phase, Sends (.cqe x.cmd.q slot ((⟨x.cmd.cid, 0, 0, status, 0, id, x.work.released, x.admitRow, x.drops,
        s.dev.row.number - x.admitRow, extra, x.counter⟩ : Cqe).words sqHead phase)) s.dev e) ∧
  (∀ (id : Nat) (x : Strand) (s : State), nget s.dev.strands id = some x → s.dev.pinDue x = true → s.dev.openSlot id = true →
    exec (.pinAgeExpiry id) s = .next { s with dev := s.dev.putStrand id { x with expiring := true } }) ∧
  (∀ (id : Nat) (s : State), (∀ x, nget s.dev.strands id = some x → s.dev.pinDue x = false) → exec (.pinAgeExpiry id) s = .next s) ∧
  (∀ (id : Nat) (s : State),
    (∀ x, nget s.dev.strands id = some x → x.state ≠ 2 ∨ x.final ≠ none ∨ s.dev.atLimit x = false) → exec (.stallLimit id) s = .next s)

/-! Synchronisation -/

/-- ROWSYNC_EDGE in FOLLOW mode: an edge within the capture window of its nearest boundary is followed. LOCKED up to 2,000 ns of offset and
SLEWING beyond, the offset kept, the edge counted, and a correction of the row within 2,000 ns stays so; an edge outside the window sets a
flag and a counter alone (R42, R43, R45, R46). The timestamp of an edge has a resolution of 10 ns, rounded down (log 73). In another mode, or while the row does not run, an edge does nothing. The model's reading:
log 59. -/
def Obligations.EdgeFollows : Prop :=
  (∀ (ns t e : Int) (s : State), t = stamp10 ns → s.dev.syncMode = 1 → s.dev.row.running = true → s.dev.syncState ≠ 0 →
    (s.dev.syncState = 3 → s.dev.row.relocking = true) →
    (2 * t ≤ s.dev.rowLen ∧ e = t) ∨ (s.dev.rowLen < 2 * t ∧ e = t - s.dev.rowLen) →
    (e.natAbs ≤ s.dev.captureNs → (if 2 * t ≤ s.dev.rowLen then s.dev.row.edgeHere else s.dev.row.edgeNext) = false →
      ∃ x, exec (.rowsyncEdge ns) s = .next { s with dev := x } ∧ Sig { s.dev with row := x.row } x ∧
        x.syncState = (if e.natAbs ≤ 2000 then 1 else 2) ∧ x.rg (pf 1 0x070) = (s.dev.rg (pf 1 0x070) + 1) % 2 ^ 32 ∧
        x.rg (pf 1 0x118) = (int32 e).toNat ∧ x.row.relocking = false ∧
        (-2000 ≤ s.dev.row.corr → s.dev.row.corr ≤ 2000 → -2000 ≤ x.row.corr ∧ x.row.corr ≤ 2000) ∧
        x.row.number = s.dev.row.number ∧ x.row.slots = s.dev.row.slots ∧
        RegsBut [pf 1 0x070, pf 1 0x078, pf 1 0x114, pf 1 0x118, pf 1 0x11C, msixPba 0 5] s.dev x) ∧
    (s.dev.captureNs < e.natAbs →
      ∃ x, exec (.rowsyncEdge ns) s = .next { s with dev := x } ∧ x = { s.dev with regs := x.regs } ∧
        bit (x.rg (pf 1 0x114)) 9 = true ∧ x.rg (pf 1 0x074) = (s.dev.rg (pf 1 0x074) + 1) % 2 ^ 32 ∧ x.syncState = s.dev.syncState ∧
        RegsBut [pf 1 0x114, pf 1 0x074] s.dev x)) ∧
  (∀ (ns : Int) (s : State), s.dev.syncMode ≠ 1 ∨ s.dev.row.running = false → exec (.rowsyncEdge ns) s = .next s)

/-- SYNC_LOSS after LOSS_ROWS boundaries without an accepted edge: LOST, with its sticky flag, its counter, SYNC among the page's error
flags and a record of the fault log; FREE and LOST stay as they are (R44, R482). RELOCK in FOLLOW mode and LOST: the module searches for an
edge again, and nothing else changes (R45). The model's reading: log 59. -/
def Obligations.SyncLossAndRelock : Prop :=
  (∀ s : State, (s.dev.syncState = 1 ∨ s.dev.syncState = 2) → s.dev.row.edgeHere = false →
    bits (s.dev.inForce (pf 1 0x10C)) 15 8 ≤ s.dev.row.missed + 1 →
    ∃ x, exec .syncLoss s = .next { s with dev := x } ∧ Sig { s.dev with row := { s.dev.row with wide := false, missed := 0 } } x ∧
      x.syncState = 3 ∧ bit (x.rg (pf 1 0x114)) 8 = true ∧ x.rg (pf 1 0x07C) = (s.dev.rg (pf 1 0x07C) + 1) % 2 ^ 32 ∧
      bit (x.rg (pf 1 0x020)) 6 = true ∧ (∃ r, x.fault.log.getLast? = some r ∧ r.event = 0x01 ∧ r.row = s.dev.row.number) ∧
      RegsBut ([pf 1 0x114, pf 1 0x07C, msixPba 0 5] ++ errorRegs 1 ++ logRegs) s.dev x) ∧
  (∀ s : State, s.dev.syncState = 0 ∨ s.dev.syncState = 3 → exec .syncLoss s = .next s) ∧
  (∀ s : State, s.dev.up = true → s.dev.syncMode = 1 → s.dev.syncState = 3 →
    exec .relock s = .next { s with dev := { s.dev with row := { s.dev.row with relocking := true } } }) ∧
  (∀ s : State, s.dev.up = false ∨ s.dev.syncMode ≠ 1 ∨ s.dev.syncState ≠ 3 → exec .relock s = .next s)

/-! Enables, drains and page resets -/

/-- ENABLE_REQUEST: a write of EN at 1 and SOFT_RESET at 0 to a page whose EN reads 0 and whose check does not run starts its enable check
over the registers as they stand; EN reads 0 until it ends, CHECKING 1 (R65, R67, R68). The owner field of a PF page other than the row
timer's takes the value written, and the page is dirty (R61, R65). The model's reading: log 63. -/
def Obligations.EnableStarts : Prop :=
  ∀ (fn slot p type inst : Nat) (v : Word) (s : State), fn < 18 → p = pageKey fn (slot % 4096) → pageInfo p = some (type, inst) →
    hasHeader type = true → type ≠ 0x14 → s.dev.up = true → bit v.toNat 0 = true → bit v.toNat 1 = false →
    bit (s.dev.rg (p * 4096 + 8)) 0 = false → (s.dev.page p).checking = false →
    (∀ q, pageQueue p = some q → s.dev.draining q = false ∧ (s.dev.page p).running = false) →
    ∃ x, exec (.enableRequest fn slot v) s = .next { s with dev := x } ∧
      x = { s.dev with regs := x.regs, pages := x.pages, checks := s.dev.checks ++ [⟨p, pageRegs x.regs p, s.dev.row.number⟩] } ∧
      (x.page p).checking = true ∧ (x.page p).running = (s.dev.page p).running ∧ (∀ j, j ≠ p → x.page j = s.dev.page j) ∧
      bit (x.rg (p * 4096 + 8)) 0 = false ∧
      (p < 4096 → p ≠ 1 → bits (x.rg (p * 4096 + 8)) 15 8 = bits v.toNat 15 8) ∧
      (p < 4096 → p ≠ 1 → (x.page p).dirty = true) ∧ (4096 ≤ p ∨ p = 1 → x.regs = s.dev.regs) ∧ RegsBut [p * 4096 + 8] s.dev x

/-- ENABLE_CHECK_DONE, after the start has restored the configuration (R13) and once no earlier check of a page it depends on runs, unless an
order ahead of its dependencies fails (R69): a check that fails sets REFUSED and its reason code and leaves EN
at 0; one that passes clears the reason and sets EN, a PF page's shadow then waits for a publish, the row begins with that of the row
timer (R57, R71), a VF page runs at once, a queue pair afresh (R63, R65, R67 to R69, R91, R95). A page whose check does not run stays as it is. The model's reading: log 36 and 63. -/
def Obligations.EnableEnds : Prop :=
  (∀ (fn slot p : Nat) (c : Check) (s : State), fn < 18 → p = pageKey fn (slot % 4096) →
    s.dev.power.starting = false → s.dev.checks.find? (·.page == p) = some c → s.dev.checkWaits c = false →
    (∀ code, (s.dev.dropCheck p).judgeCheck c = some code →
      ∃ x, exec (.enableCheckDone fn slot) s = .next { s with dev := x } ∧
        x = { s.dev with regs := x.regs, pages := x.pages, checks := s.dev.checks.filter fun y => y.page != p } ∧
        (x.page p).refused = true ∧ (x.page p).checking = false ∧ (x.page p).running = (s.dev.page p).running ∧
        (∀ j, j ≠ p → x.page j = s.dev.page j) ∧ (p ≠ 9 → x.rg (p * 4096 + 0x010) = (BitVec.ofNat 32 code).toNat) ∧
        RegsBut [p * 4096 + 0x010, pf 9 0x048] s.dev x) ∧
    ((s.dev.dropCheck p).judgeCheck c = none → p < 4096 → p ≠ 1 →
      ∃ x, exec (.enableCheckDone fn slot) s = .next { s with dev := x } ∧
        x = { s.dev with regs := x.regs, pages := x.pages, checks := s.dev.checks.filter fun y => y.page != p } ∧
        bit (x.rg (p * 4096 + 8)) 0 = true ∧ x.rg (p * 4096 + 0x010) = 0 ∧ (x.page p).dirty = true ∧ (x.page p).checking = false ∧
        (x.page p).running = (s.dev.page p).running ∧ (∀ j, j ≠ p → x.page j = s.dev.page j) ∧
        RegsBut [p * 4096 + 8, p * 4096 + 0x010] s.dev x) ∧
    ((s.dev.dropCheck p).judgeCheck c = none → 4096 ≤ p → c.page = p → pageQueue p = none →
      ∃ x, exec (.enableCheckDone fn slot) s = .next { s with dev := x } ∧
        x = { s.dev with regs := x.regs, pages := x.pages, checks := s.dev.checks.filter fun y => y.page != p } ∧
        bit (x.rg (p * 4096 + 8)) 0 = true ∧ x.rg (p * 4096 + 0x010) = 0 ∧ (x.page p).running = true ∧ (x.page p).checking = false ∧
        (∀ j, j ≠ p → x.page j = s.dev.page j) ∧ RegsBut [p * 4096 + 8, p * 4096 + 0x010] s.dev x) ∧
    ((s.dev.dropCheck p).judgeCheck c = none → p = 1 → s.dev.row.running = false →
      ∃ x, exec (.enableCheckDone fn slot) s = .next { s with dev := x } ∧ x.row.running = true ∧ x.row.number = 0 ∧ (x.page 1).checking = false ∧
        x.strands = s.dev.strands ∧ x.objs = s.dev.objs ∧ x.checks = s.dev.checks.filter fun y => y.page != p) ∧
    (∀ q, (s.dev.dropCheck p).judgeCheck c = none → c.page = p → pageQueue p = some q → (∀ l ∈ s.dev.power.lost, l.q ≠ q) →
      ∃ x, exec (.enableCheckDone fn slot) s = .next { s with dev := x } ∧
        x = { s.dev with regs := x.regs, pages := x.pages, qps := x.qps, checks := s.dev.checks.filter fun y => y.page != p } ∧
        bit (x.rg (p * 4096 + 8)) 0 = true ∧ x.qp q = Qp.fresh ∧ (∀ r, queueKey r ≠ queueKey q → x.qp r = s.dev.qp r) ∧
        (x.page p).running = true ∧ (x.page p).checking = false ∧ (∀ j, j ≠ p → x.page j = s.dev.page j))) ∧
  (∀ (fn slot : Nat) (s : State), fn < 18 → s.dev.power.starting = true ∨ s.dev.checks.find? (·.page == pageKey fn (slot % 4096)) = none →
    exec (.enableCheckDone fn slot) s = .next s)

/-- DISABLE_WRITE of a PF page whose EN reads 1: the shadow's EN reads 0 and waits for a publish; the page goes on until then (R65, R72).
The row timer's is refused with 0x0312, with no other effect, while another page is enabled or a strand lives (R57). -/
def Obligations.DisableWrites : Prop :=
  (∀ (slot type inst : Nat) (v : Word) (s : State), slot < 4096 → pageInfo slot = some (type, inst) → hasHeader type = true → type ≠ 0x14 →
    s.dev.up = true → bit v.toNat 0 = false → bit v.toNat 1 = false → bit (s.dev.rg (pf slot 8)) 0 = true →
    (slot = 1 → s.dev.rowInUse = false) →
    ∃ x, exec (.disableWrite slot v) s = .next { s with dev := x } ∧ x = { s.dev with regs := x.regs, pages := x.pages } ∧
      bit (x.rg (pf slot 8)) 0 = false ∧ (slot ≠ 1 → bits (x.rg (pf slot 8)) 15 8 = bits v.toNat 15 8) ∧
      (∀ j, x.page j = if j = slot then { s.dev.page slot with dirty := true } else s.dev.page j) ∧ RegsBut [pf slot 8] s.dev x) ∧
  (∀ (v : Word) (s : State), s.dev.up = true → bit v.toNat 0 = false → bit (s.dev.rg (pf 1 8)) 0 = true → s.dev.rowInUse = true →
    ∃ x, exec (.disableWrite 1 v) s = .next { s with dev := x } ∧ x = { s.dev with regs := x.regs } ∧ x.rg (pf 1 0x010) = 0x0312 ∧
      RegsBut [pf 1 0x010] s.dev x) ∧
  (∀ (slot : Nat) (v : Word) (s : State), s.dev.up = false → exec (.disableWrite slot v) s = .next s)

/-- QP_DISABLE of a queue pair that runs: EN reads 0, DISABLING is set, and each command that waits undecided in it is completed ABORTED
(R95). QP_DRAIN_DONE, once no command of a draining queue is outstanding: DISABLING clears and the page stops running. The model's reading:
log 66. -/
def Obligations.QueueDisabled : Prop :=
  (∀ (q : QRef) (s : State), q.wf = true → q.tenant ≠ 0 → s.dev.up = true → (s.dev.page (queuePage q)).running = true →
    bit (s.dev.rg (queuePage q * 4096 + 8)) 0 = true → (∀ c ∈ (s.dev.qp q).waiting, c.q = q) →
    ∃ x, exec (.qpDisable q) s = .next { s with dev := x } ∧ Posts s.dev x ∧ (x.qp q).waiting = [] ∧
      bit (x.rg (queuePage q * 4096 + 8)) 0 = false ∧ x.draining q = true ∧
      (∀ c ∈ (s.dev.qp q).waiting, Completed c 0x14 0 0 0 s.dev x) ∧
      (∀ r, queueKey r ≠ queueKey q → x.qp r = s.dev.qp r) ∧ RegsBut ((queuePage q * 4096 + 8) :: queueStat q :: doneRegs q) s.dev x) ∧
  (∀ (q : QRef) (s : State), s.dev.draining q = true → (s.dev.qp q).outstanding = 0 →
    ∃ x, exec (.qpDrainDone q) s = .next { s with dev := x } ∧ x = { s.dev with regs := x.regs, pages := x.pages } ∧ x.draining q = false ∧
      (x.page (queuePage q)).running = false ∧ (∀ j, j ≠ queuePage q → x.page j = s.dev.page j) ∧ RegsBut [queueStat q] s.dev x) ∧
  (∀ (q : QRef) (s : State), s.dev.draining q = false ∨ (s.dev.qp q).outstanding ≠ 0 → exec (.qpDrainDone q) s = .next s)

/-- SOFT_RESET of a page, at once, or after its probe (BLOCK_RESET_DONE), but the needle bed's only while no weighted stitch is planned (R204): every register of the page that does not survive BLOCK returns to
its reset value, REFUSED clears, a unit's running stitches end with FAULT; a page that is quiesced or probed waits for the outcome (R11,
R12, R61, R73, R281, R477, R486). The queue-pair pages of a VF also lose their queue, whose strands end (R95). The model's reading: log 36. -/
def Obligations.PageResets : Prop :=
  (∀ (fn slot p type inst : Nat) (c : Instr) (s : State), fn < 18 → p = pageKey fn (slot % 4096) → pageInfo p = some (type, inst) →
    (c = .softReset fn slot ∧ s.dev.up = true ∧ hasHeader type = true ∧ noSoftReset type = false ∧ s.dev.absorbs = false ∧
      (s.dev.page p).checking = false ∧ (p = 1 → s.dev.rowInUse = false) ∧
      (type = 0x0C → s.dev.weightsPlanned = false)) ∨
    (c = .blockResetDone fn slot ∧ (s.dev.page p).softReset = true) →
    (s.dev.page p).quiesced = false → (s.dev.page p).probing = false → (∀ x ∈ s.dev.fault.probes, x.page ≠ p) →
    (type ≠ 0x16 → pageQueue p = none → (p = 0 → s.dev.pub = none) →
      ∃ e, exec c s = .next { s with dev := e } ∧
        e = { s.dev with regs := e.regs, part := e.part, hold := e.hold, pages := e.pages, cleared := p :: s.dev.cleared, row := { s.dev.row with slots := e.row.slots } } ∧
        (∀ k, e.rg k = if keyPage k = p ∧ keepsReg .block k = false then resetOf k else s.dev.rg k) ∧
        (e.page p).refused = false ∧ (e.page p).softReset = false ∧ (∀ j, j ≠ p → e.page j = s.dev.page j) ∧
        (p < 4096 → (e.page p).running = (s.dev.page p).running) ∧ (4096 ≤ p → (e.page p).running = false) ∧
        e.row.slots = s.dev.row.slots.map fun sl =>
          if isCompute p ∧ sl.unit = p ∧ sl.phase = 1 ∧ p ≠ 0 then { sl with faulted := true } else sl) ∧
    (∀ q, pageQueue p = some q → q.tenant ≠ 0 →
      ∃ e, exec c s = .next { s with dev := e } ∧ e.qp q = Qp.fresh ∧ e.on p = false ∧
        (∀ id x, nget s.dev.strands id = some x → x.cmd.q = q → x.part = none → x.state ≠ 3 → nget e.strands id = some x.ended) ∧
        (∀ id, (∀ x, (id, x) ∈ s.dev.strands → x.cmd.q ≠ q) → nget e.strands id = nget s.dev.strands id))) ∧
  (∀ (fn slot p type inst : Nat) (s : State), fn < 18 → p = pageKey fn (slot % 4096) → pageInfo p = some (type, inst) →
    s.dev.up = true → hasHeader type = true → noSoftReset type = false → s.dev.absorbs = false → type ≠ 0x0C →
    (s.dev.page p).checking = false → (s.dev.page p).quiesced = true ∨ (s.dev.page p).probing = true → p ≠ 1 →
    exec (.softReset fn slot) s = .next { s with dev := s.dev.modPage p fun x => { x with softReset := true } }) ∧
  (∀ (fn slot : Nat) (s : State), fn < 18 → (s.dev.page (pageKey fn (slot % 4096))).softReset = false →
    exec (.blockResetDone fn slot) s = .next s)

/-! Publishes -/

/-- COMMIT while a publish is pending: COMMIT_BUSY alone is set. Otherwise, on a module in no cascade, a snapshot of every shadow is taken,
with every object shadow that entered before this row; it is due at row n + 2, BUSY reads 1, and nothing is in force yet (R74, R75, R150). -/
def Obligations.CommitSnapshots : Prop :=
  (∀ s : State, s.dev.up = true → s.dev.pub ≠ none →
    ∃ e, exec .commit s = .next { s with dev := e } ∧ e = { s.dev with regs := e.regs } ∧ bit (e.rg (pf 0 0x104)) 3 = true ∧
      (∀ n, n < 3 → bit (e.rg (pf 0 0x104)) n = bit (s.dev.rg (pf 0 0x104)) n) ∧ RegsBut [pf 0 0x104] s.dev e) ∧
  (∀ s : State, s.dev.up = true → s.dev.pub = none → s.dev.cas.state = 0 ∨ s.dev.cas.state = 1 → s.dev.casMaster = false →
    ∃ e p, exec .commit s = .next { s with dev := e } ∧ e = { s.dev with regs := e.regs, objs := e.objs, pub := some p } ∧
      p.src = .register ∧ p.row = s.dev.row.number ∧ p.regs = s.dev.shadows ∧ p.checked = false ∧ p.held = false ∧
      p.due = s.dev.row.number + 2 ∧ bit (e.rg (pf 0 0x104)) 0 = true ∧
      (∀ x ∈ s.dev.objs, ∀ c, x.2.stagedOld = true ∨ x.2.stagedMid = true → x.2.settled = some c → (x.1, c) ∈ p.objs) ∧
      (∀ h, (e.obj h).epochs = (s.dev.obj h).epochs ∧ (e.obj h).current = (s.dev.obj h).current) ∧ RegsBut [pf 0 0x104] s.dev e) ∧
  (∀ s : State, s.dev.up = false → exec .commit s = .next s)

/-- PUBLISH_CHECK_DONE on a module in no cascade: a publish that passes every check stays pending, checked. One that fails takes no effect
anywhere: DEV_PUB_REASON and DEV_PUB_SLOT say why and where, REFUSED is set and BUSY clears, the counter and the values in force stay, and a
PUBLISH command completes REFUSED with the code (R75, R76, R109). -/
def Obligations.PublishChecked : Prop :=
  ∀ (p : Pub) (s : State), s.dev.pub = some p → p.checked = false → p.due ≠ untilPrepare → s.dev.cas.exchange = none → s.dev.casPub = false →
    (s.dev.pubChecks p = none →
      exec .publishCheckDone s = .next { s with dev := { s.dev with pub := some { p with checked := true } } }) ∧
    (∀ code slot, s.dev.pubChecks p = some (code, slot) → code < 2 ^ 32 → slot < 2 ^ 32 →
      ∃ e, exec .publishCheckDone s = .next { s with dev := e } ∧ e.pub = none ∧ e.act = s.dev.act ∧ e.counter = s.dev.counter ∧
        e.strands = s.dev.strands ∧ e.row = s.dev.row ∧ e.rg (pf 0 0x108) = code ∧ e.rg (pf 0 0x10C) = slot ∧
        bit (e.rg (pf 0 0x104)) 1 = true ∧ bit (e.rg (pf 0 0x104)) 0 = false ∧
        (slot ≠ 0xFFF → (e.page slot).refused = true ∧ ∀ j, j ≠ slot → e.page j = s.dev.page j) ∧
        (∀ cid n, p.src = .command cid n → ∃ c, c.q = ⟨0, 0⟩ ∧ c.cid = cid % 65536 ∧ Completed c 0x10 code 0 0 s.dev e) ∧
        (p.src = .register →
          RegsBut [pf 0 0x104, pf 0 0x108, pf 0 0x10C, slot * 4096 + 0x010, pf 9 0x048, pf 2 0x228, msixPba 0 2] s.dev e))

/-! Queues -/

/-- ADM_CTRL_ENABLE: a write of EN at 1 while it reads 0 opens the admin queue afresh when both ring sizes are powers of two from 16 to 256,
with interface version major 2; else EN stays 0 and the reason is EN_RANGE_FIELD. EN at 0 closes it (R94, R112). The model's reading: log
62. -/
def Obligations.AdminEnables : Prop :=
  (∀ (v : Word) (s : State), s.dev.up = true → bit v.toNat 0 = true → bit (s.dev.rg (pf 0xC 0x11C)) 0 = false →
    (∀ l ∈ s.dev.power.lost, l.q ≠ ⟨0, 0⟩) →
    (isPow2In (s.dev.sqEntries ⟨0, 0⟩) 16 256 = true → isPow2In (s.dev.cqEntries ⟨0, 0⟩) 16 256 = true →
      ∃ e, exec (.admCtrlEnable v) s = .next { s with dev := e } ∧ e = { s.dev with regs := e.regs, qps := e.qps } ∧
        e.queueOn ⟨0, 0⟩ = true ∧ bits (e.rg (pf 0xC 0x11C)) 31 24 = 2 ∧ e.qp ⟨0, 0⟩ = Qp.fresh ∧ e.rg (pf 0xC 0x010) = 0 ∧
        (∀ r, queueKey r ≠ 0 → e.qp r = s.dev.qp r) ∧
        RegsBut [pf 0xC 0x11C, pf 0xC 0x010, pf 0xC 0x120, pf 0xC 0x124, pf 0xC 0x128] s.dev e) ∧
    (isPow2In (s.dev.sqEntries ⟨0, 0⟩) 16 256 = false ∨ isPow2In (s.dev.cqEntries ⟨0, 0⟩) 16 256 = false →
      ∃ e, exec (.admCtrlEnable v) s = .next { s with dev := e } ∧ e = { s.dev with regs := e.regs, pages := e.pages } ∧
        e.queueOn ⟨0, 0⟩ = false ∧ e.rg (pf 0xC 0x010) = 0x0101 ∧ (e.page 0xC).refused = true ∧ RegsBut [pf 0xC 0x010] s.dev e)) ∧
  (∀ (v : Word) (s : State), s.dev.up = true → bit v.toNat 0 = false →
    ∃ e, exec (.admCtrlEnable v) s = .next { s with dev := e } ∧ e = { s.dev with regs := e.regs } ∧ e.queueOn ⟨0, 0⟩ = false ∧
      RegsBut [pf 0xC 0x11C] s.dev e)

/-- SQ_DOORBELL and CQ_DOORBELL of a queue that runs: a value is ignored, with DB_ERR set and the tenant's QP_ERR event, when an SQ tail is
not below the ring size or would leave more than size − 1 entries pending from the fetch position, when a CQ head is not below the ring
size or returns slots that have not been posted; any other value waits for the next access window (R100). A write to a queue whose page does not run is ignored (R99). -/
def Obligations.Doorbells : Prop :=
  ∀ (q : QRef) (v : Nat) (s : State), s.dev.up = true → v < 65536 →
    (s.dev.queueOn q = false → exec (.sqDoorbell q v) s = .next s ∧ exec (.cqDoorbell q v) s = .next s) ∧
    (∀ c, s.dev.queueOn q = true →
      (c = .sqDoorbell q v ∧ (s.dev.sqEntries q ≤ v ∨ s.dev.sqEntries q - 1 <
        ((s.dev.qp q).seenTail + s.dev.sqEntries q - (s.dev.qp q).head) % s.dev.sqEntries q +
          (v + s.dev.sqEntries q - (s.dev.qp q).seenTail) % s.dev.sqEntries q)) ∨
      (c = .cqDoorbell q v ∧ (s.dev.cqEntries q ≤ v ∨
        (s.dev.qp q).unreturned < (s.dev.qp q).returning + (v + s.dev.cqEntries q - (s.dev.qp q).seenHead) % s.dev.cqEntries q)) →
      ∃ e, exec c s = .next { s with dev := e } ∧ Sig s.dev e ∧ bit (e.rg (queueStat q)) 2 = true ∧
        (q.wf = true → q.tenant ≠ 0 → s.dev.on (tenantPage q.tenant) = true → bit (e.rg (regKey q.tenant 0x10C)) 0 = true) ∧
        RegsBut (queueStat q :: regKey q.tenant 0x040 :: eventRegs q.tenant) s.dev e) ∧
    (s.dev.queueOn q = true → v < s.dev.sqEntries q →
      ((s.dev.qp q).seenTail + s.dev.sqEntries q - (s.dev.qp q).head) % s.dev.sqEntries q +
        (v + s.dev.sqEntries q - (s.dev.qp q).seenTail) % s.dev.sqEntries q ≤ s.dev.sqEntries q - 1 →
      ∃ e, exec (.sqDoorbell q v) s = .next { s with dev := e } ∧ e = { s.dev with regs := e.regs, qps := e.qps } ∧
        e.qp q = { s.dev.qp q with tailNew := some v } ∧ (∀ r, queueKey r ≠ queueKey q → e.qp r = s.dev.qp r) ∧
        e.rg (doorbellKey q false) = v ∧ RegsBut [doorbellKey q false] s.dev e) ∧
    (s.dev.queueOn q = true → v < s.dev.cqEntries q →
      (s.dev.qp q).returning + (v + s.dev.cqEntries q - (s.dev.qp q).seenHead) % s.dev.cqEntries q ≤ (s.dev.qp q).unreturned →
      ∃ e, exec (.cqDoorbell q v) s = .next { s with dev := e } ∧ e = { s.dev with regs := e.regs, qps := e.qps } ∧
        e.qp q = { s.dev.qp q with
          cqNew := some (v, (s.dev.qp q).returning + (v + s.dev.cqEntries q - (s.dev.qp q).seenHead) % s.dev.cqEntries q) } ∧
        (∀ r, queueKey r ≠ queueKey q → e.qp r = s.dev.qp r) ∧ e.rg (doorbellKey q true) = v ∧
        RegsBut [doorbellKey q true] s.dev e)

/-! Fetching and decisions -/

/-- ENTRY_FETCH of a queue that may fetch: its head advances round the ring, one more command is outstanding, and the command of the 64
bytes and the input buffer waits undecided behind the others (R97, R98). Where the queue may not fetch, nothing changes. The model's
reading: log 42. -/
def Obligations.EntryFetched : Prop :=
  ∀ (q : QRef) (entry input : List Byte) (s : State),
    (s.dev.up = true → s.dev.canFetch q = true →
      ∃ e, exec (.entryFetch q entry input) s = .next { s with dev := e } ∧ e = { s.dev with regs := e.regs, qps := e.qps } ∧
        e.qp q = { s.dev.qp q with
          head := ((s.dev.qp q).head + 1) % max 1 (s.dev.sqEntries q)
          outstanding := (s.dev.qp q).outstanding + 1
          waiting := (s.dev.qp q).waiting ++ [⟨q, entryDwords entry, input, s.dev.row.number⟩] } ∧
        (∀ r, queueKey r ≠ queueKey q → e.qp r = s.dev.qp r) ∧ RegsBut [queueReg q 0x040 0] s.dev e) ∧
    (s.dev.up = false ∨ s.dev.canFetch q = false → exec (.entryFetch q entry input) s = .next s)

/-- COMMAND_DECISION, with decisions left in the row: the oldest command of the queue whose turn it is in the rounds is decided. A command
that fails validation is completed REFUSED with its code; one that makes a strand is a no-op, refused, or admitted with every reservation at
once (R103, R106, R117, R118, R122). With 512 decisions taken, or none possible, nothing changes. The model's reading: log 42. -/
def Obligations.CommandDecided : Prop :=
  (∀ (key : Nat) (c : Cmd) (n : Dev) (s : State), s.dev.up = true → s.dev.decided < 512 → s.dev.nextDecision = some (key, c) →
    n = s.dev.deciding key c →
    (∀ code, n.validate c = some code →
      ∃ e, exec .commandDecision s = .next { s with dev := e } ∧ Posts n e ∧ Completed c 0x10 code 0 0 n e) ∧
    (n.validate c = none → c.makesStrand = true →
      (n.judge c = .noop → ∃ e, exec .commandDecision s = .next { s with dev := e } ∧ Posts n e ∧ Completed c 0 0 0 0 n e) ∧
      (∀ code r, n.judge c = .refuse code r →
        ∃ e, exec .commandDecision s = .next { s with dev := e } ∧ Posts n e ∧ Completed c 0x10 code 0 0 n e) ∧
      (∀ p owned, n.judge c = .accept p owned →
        ∃ e, exec .commandDecision s = .next { s with dev := e } ∧ Admitted c p owned n e))) ∧
  (∀ s : State, s.dev.up = false ∨ 512 ≤ s.dev.decided ∨ s.dev.nextDecision = none → exec .commandDecision s = .next s)

/-- IRQ_DELAY_EXPIRY of a queue whose oldest uncounted entry has waited DELAY rows, with IRQ_EN set: its vector is raised and the count starts
again. The message goes out and QP_IRQ_SENT counts it unless the vector is masked; then its pending bit is set, and nothing is counted (R93, R111;
that the count starts again there too: log 72, point 9). In every other case nothing changes. -/
def Obligations.IrqDelayed : Prop :=
  (∀ (q : QRef) (s : State), s.dev.up = true → (s.dev.irq q).2.2.1 = true → 0 < (s.dev.qp q).irqPending →
    (s.dev.qp q).irqRow + (s.dev.irq q).2.1 < s.dev.row.number → bit (s.dev.rg (msixCtrl q.tenant (s.dev.irq q).2.2.2)) 0 = false →
    ∃ e, exec (.irqDelayExpiry q) s = .next { s with dev := e } ∧ e = { s.dev with regs := e.regs, qps := e.qps, sent := e.sent } ∧
      e.qp q = { s.dev.qp q with irqPending := 0 } ∧ (∀ r, queueKey r ≠ queueKey q → e.qp r = s.dev.qp r) ∧
      Sends (.msix q.tenant (s.dev.irq q).2.2.2) s.dev e ∧
      (q.wf = true → q.tenant ≠ 0 → e.rg (queueReg q 0x050 0) = (s.dev.rg (queueReg q 0x050 0) + 1) % 2 ^ 32) ∧
      RegsBut [queueReg q 0x050 0] s.dev e) ∧
  (∀ (q : QRef) (s : State), s.dev.up = true → (s.dev.irq q).2.2.1 = true → 0 < (s.dev.qp q).irqPending →
    (s.dev.qp q).irqRow + (s.dev.irq q).2.1 < s.dev.row.number → bit (s.dev.rg (msixCtrl q.tenant (s.dev.irq q).2.2.2)) 0 = true →
    ∃ e, exec (.irqDelayExpiry q) s = .next { s with dev := e } ∧ e = { s.dev with regs := e.regs, qps := e.qps } ∧
      e.qp q = { s.dev.qp q with irqPending := 0 } ∧ (∀ r, queueKey r ≠ queueKey q → e.qp r = s.dev.qp r) ∧
      bit (e.rg (msixPba q.tenant (s.dev.irq q).2.2.2)) ((s.dev.irq q).2.2.2 % 32) = true ∧
      RegsBut [msixPba q.tenant (s.dev.irq q).2.2.2] s.dev e) ∧
  (∀ (q : QRef) (s : State), s.dev.up = false ∨ (s.dev.irq q).2.2.1 = false ∨ (s.dev.qp q).irqPending = 0 ∨
    s.dev.row.number ≤ (s.dev.qp q).irqRow + (s.dev.irq q).2.1 → exec (.irqDelayExpiry q) s = .next s)

/-- A command row whose queue may not fetch changes nothing; behind another undecided command it is fetched and waits; alone, and failing
validation, it is completed REFUSED with the code of the first failure, with nothing reserved (R97, R103, R117, R122). The model's reading:
log 42. -/
def Obligations.CommandTaken : Prop :=
  ∀ (i : Instr) (x : Entry × Nat × List Nat) (c : Cmd) (s : State), queued i = some x → c = s.dev.cmdFor x →
    (s.dev.up = false ∨ s.dev.canFetch c.q = false → exec i s = .next s) ∧
    (s.dev.up = true → s.dev.canFetch c.q = true → s.dev.undecided ≠ [] → exec i s = .next { s with dev := s.dev.fetch c }) ∧
    (s.dev.decidesNow c → ∀ code, ((s.dev.fetch c).deciding (queueKey c.q) c).validate c = some code →
      ∃ e, exec i s = .next { s with dev := e } ∧ Posts ((s.dev.fetch c).deciding (queueKey c.q) c) e ∧ Completed c 0x10 code 0 0 s.dev e ∧
        e.strands = s.dev.strands ∧ e.markers = s.dev.markers)

/-- The thirteen commands that make a strand (EMBED, SEARCH, RETRIEVE_RANK, RANK, EMBED_LOOKUP, EMBED_UPDATE, GENERATE, RETRIEVE_GENERATE,
INDEX_INSERT, INDEX_DELETE, INDEX_BUILD, OBJECT_LOAD, OBJECT_LOAD_SHARED), decided now and valid: with a count of 0 they complete OK with
COUNT 0; a check that fails completes them REFUSED with its code; otherwise a strand is admitted, which begins in the next row with every
reservation of its footprint, and no completion is posted yet (R105, R106, R113 to R117, R121, R122). The model's reading: the order of some
checks: log 51. -/
def Obligations.StrandCommands : Prop :=
  ∀ (i : Instr) (x : Entry × Nat × List Nat) (c : Cmd) (n : Dev) (s : State), queued i = some x → makesStrandOp x.2.1 = true →
    c = s.dev.cmdFor x → s.dev.decidesNow c → n = (s.dev.fetch c).deciding (queueKey c.q) c → n.validate c = none →
    (n.judge c = .noop → ∃ e, exec i s = .next { s with dev := e } ∧ Posts n e ∧ Completed c 0 0 0 0 s.dev e) ∧
    (∀ code r, n.judge c = .refuse code r → ∃ e, exec i s = .next { s with dev := e } ∧ Posts n e ∧ Completed c 0x10 code 0 0 s.dev e) ∧
    (∀ p owned, n.judge c = .accept p owned → ∃ e, exec i s = .next { s with dev := e } ∧ Admitted c p owned n e)

/-- ABORT_ANY, ABORT and MARKER_UNPICK, decided now and valid: they wait for the head of the next row, an abort with the strand or the queue
and CID it names, an unpick with its marker and value, and nothing else changes (R105, R107, R138, R423). -/
def Obligations.HeadCommands : Prop :=
  ∀ (e : Entry) (s : State), e.wf = true →
    (∀ strand c n, c = s.dev.cmdFor (e, 0x04, [strand]) → s.dev.decidesNow c → n = (s.dev.fetch c).deciding (queueKey c.q) c →
      n.validate c = none → strand < 2 ^ 14 →
      exec (.abortAny e strand) s = .next { s with dev := { n with aborts := n.aborts ++ [(c, some strand, none)] } }) ∧
    (∀ byStrand qp cid strand c n, c = s.dev.cmdFor (e, 0x28, [b2n byStrand * 2 ^ 24 + qp % 64 * 65536 + cid % 65536, strand]) →
      s.dev.decidesNow c → n = (s.dev.fetch c).deciding (queueKey c.q) c → n.validate c = none → strand < 2 ^ 14 → qp < 64 → cid < 65536 →
      exec (.abort e byStrand qp cid strand) s = .next { s with dev := { n with
        aborts := n.aborts ++ [if byStrand then (c, some strand, none) else (c, none, some (⟨e.q.tenant, qp⟩, cid))] } }) ∧
    (∀ marker value c n, c = s.dev.cmdFor (e, 0x29, [marker, value]) → s.dev.decidesNow c → n = (s.dev.fetch c).deciding (queueKey c.q) c →
      n.validate c = none → marker < 4096 → value < 2 ^ 32 →
      exec (.markerUnpick e marker value) s = .next { s with dev := { n with unpicks := n.unpicks ++ [(c, marker, value)] } })

/-- PUBLISH, decided now and valid, on a module in no cascade: a pending publish refuses it with PUB_BUSY; otherwise the snapshot is its
own, due at row n + 2, and its completion waits for the effect (R74, R75, R105). RESET of kind 0 asks for a WARM at the next boundary, of
kind 1 stops the row at once with a COLD of cause 3; neither posts a completion (R105, R484, R485). The model's reading: log 56. -/
def Obligations.PublishAndReset : Prop :=
  (∀ (e : Entry) (c : Cmd) (n : Dev) (s : State), e.wf = true → c = s.dev.cmdFor (e, 0x01, []) → s.dev.decidesNow c →
    n = (s.dev.fetch c).deciding (queueKey c.q) c → n.validate c = none →
    (s.dev.pub ≠ none →
      ∃ t, exec (.publish e) s = .next { s with dev := t } ∧ t.pub = s.dev.pub ∧ bit (t.rg (pf 0 0x104)) 3 = true ∧
        ∃ k, k.q = e.q ∧ k.cid = e.cid ∧ Completed k 0x10 0x0502 0 0 s.dev t) ∧
    (s.dev.pub = none → s.dev.cas.state = 0 ∨ s.dev.cas.state = 1 → s.dev.casMaster = false →
      ∃ t p, exec (.publish e) s = .next { s with dev := t } ∧ t = { n with regs := t.regs, objs := t.objs, pub := some p } ∧
        p.src = .command e.cid e.noIrq ∧ p.regs = s.dev.shadows ∧ p.due = s.dev.row.number + 2 ∧
        bit (t.rg (pf 0 0x104)) 0 = true ∧ RegsBut [pf 0 0x104] n t)) ∧
  (∀ (e : Entry) (kind : Nat) (c : Cmd) (n : Dev) (s : State), e.wf = true → c = s.dev.cmdFor (e, 0x02, [kind]) → s.dev.decidesNow c →
    n = (s.dev.fetch c).deciding (queueKey c.q) c → n.validate c = none →
    (kind = 0 → s.dev.power.l2 = false → s.dev.power.warm = false → s.dev.power.warmCause = 0 → s.dev.inStart = false →
      s.dev.row.running = true →
      exec (.reset e kind) s = .next { s with dev := { n.forget c.q with power := { s.dev.power with warmCause := 1 } } }) ∧
    (kind = 1 →
      ∃ t, exec (.reset e kind) s = .next { s with dev := t } ∧ t.row.running = false ∧ t.row.number = 0 ∧ t.strands = [] ∧ t.qps = [] ∧
        t.power.starting = true ∧ t.rg (pf 8 0x124) = 2 * 2 ^ 28 + 3))

/-! Firmware -/

/-- FW_HEADER, FW_BODY, FW_COMMIT, FW_CANCEL and FW_REVERT, decided now and valid, by the update state. HEADER in IDLE, once its checks
pass, clears STAGING and receives; BODY in RECEIVING stores its bytes inside the body; COMMIT in RECEIVING starts the digests and waits; CANCEL
in RECEIVING discards STAGING, and a COMMIT that waits is refused (log 61), in IDLE it has no effect; REVERT in IDLE with a good PREVIOUS set starts the rewrite and
waits. In any other state each is refused with the code of R515, and the state stays (R515, R517, R518, R519, R525). The model's reading: log 61. -/
def Obligations.FwPhases : Prop :=
  (∀ (e : Entry) (c : Cmd) (n : Dev) (s : State), c = s.dev.cmdFor (e, 0x03, [0]) →
    s.dev.decidesNow c → n = (s.dev.fetch c).deciding (queueKey c.q) c → n.validate c = none →
    (s.dev.fw.state = 0 → n.headerCheck s.perm c.inp = none →
      ∃ t, exec (.fwHeader e) s = .next { s with dev := t } ∧ Owes c 0 n t ∧
        t.fw = { Fw.reset with state := 1, path := 1, header := c.inp.take 1056 }) ∧
    (∀ code, (s.dev.fw.state ≠ 0 ∧ code = 0x0A04) ∨ (s.dev.fw.state = 0 ∧ n.headerCheck s.perm c.inp = some code ∧ code ≠ 0) →
      ∃ t, exec (.fwHeader e) s = .next { s with dev := t } ∧ Owes c code n t ∧ t.fw = s.dev.fw)) ∧
  (∀ (e : Entry) (off : Nat) (c : Cmd) (n : Dev) (s : State), c = s.dev.cmdFor (e, 0x03, [1, off % 2 ^ 32, off / 2 ^ 32]) → off < 2 ^ 64 →
    s.dev.decidesNow c → n = (s.dev.fetch c).deciding (queueKey c.q) c → n.validate c = none →
    (s.dev.fw.state = 1 → off + c.inLen ≤ fwBodyLen s.dev.fw.header →
      ∃ t, exec (.fwBody e off) s = .next { s with dev := t } ∧ Owes c 0 n t ∧ t.fw = s.dev.fw.store off c.inp) ∧
    (∀ code, (s.dev.fw.state = 0 ∧ code = 0x0A01) ∨ (2 ≤ s.dev.fw.state ∧ code = 0x0A04) ∨
        (s.dev.fw.state = 1 ∧ fwBodyLen s.dev.fw.header < off + c.inLen ∧ code = 0x0A01) →
      ∃ t, exec (.fwBody e off) s = .next { s with dev := t } ∧ Owes c code n t ∧ t.fw = s.dev.fw)) ∧
  (∀ (e : Entry) (c : Cmd) (n : Dev) (s : State), c = s.dev.cmdFor (e, 0x03, [2]) →
    s.dev.decidesNow c → n = (s.dev.fetch c).deciding (queueKey c.q) c → n.validate c = none →
    (s.dev.fw.state = 1 → s.dev.fw.hashing = false →
      exec (.fwCommit e) s = .next { s with dev := { n with fw := { s.dev.fw with hashing := true, cmd := some c } } }) ∧
    (∀ code, (s.dev.fw.state = 0 ∧ code = 0x0A01) ∨ (2 ≤ s.dev.fw.state ∧ code = 0x0A04) ∨
        (s.dev.fw.state = 1 ∧ s.dev.fw.hashing = true ∧ code = 0x0A04) →
      ∃ t, exec (.fwCommit e) s = .next { s with dev := t } ∧ Owes c code n t ∧ t.fw = s.dev.fw)) ∧
  (∀ (e : Entry) (c : Cmd) (n : Dev) (s : State), c = s.dev.cmdFor (e, 0x03, [3]) →
    s.dev.decidesNow c → n = (s.dev.fetch c).deciding (queueKey c.q) c → n.validate c = none →
    (s.dev.fw.state = 1 → s.dev.fw.cmd = none →
      ∃ t, exec (.fwCancel e) s = .next { s with dev := t } ∧ Owes c 0 n t ∧ t.fw = Fw.reset) ∧
    (s.dev.fw.state = 0 → ∃ t, exec (.fwCancel e) s = .next { s with dev := t } ∧ Owes c 0 n t ∧ t.fw = s.dev.fw) ∧
    (∀ x, s.dev.fw.state = 1 → s.dev.fw.cmd = some x →
      ∃ m t, exec (.fwCancel e) s = .next { s with dev := t } ∧ Owes x 0x0A01 { n with fw := Fw.reset } m ∧ Owes c 0 m t ∧ t.fw = Fw.reset) ∧
    (2 ≤ s.dev.fw.state → ∃ t, exec (.fwCancel e) s = .next { s with dev := t } ∧ Owes c 0x0A04 n t ∧ t.fw = s.dev.fw)) ∧
  (∀ (e : Entry) (c : Cmd) (n : Dev) (s : State), c = s.dev.cmdFor (e, 0x03, [4]) →
    s.dev.decidesNow c → n = (s.dev.fetch c).deciding (queueKey c.q) c → n.validate c = none →
    (∀ f, s.dev.fw.state = 0 → s.perm.set 1 = some f → f.bad = false → s.perm.floor ≤ fwSec f.header → n.fwDependency f.header = false →
      exec (.fwRevert e) s = .next { s with dev := { n with
        fw := { Fw.reset with state := 2, path := 1, header := f.header, cmd := some c, revert := true, ready := true } } }) ∧
    (∀ code, (s.dev.fw.state ≠ 0 ∧ code = 0x0A04) ∨
        (s.dev.fw.state = 0 ∧ (s.perm.set 1 = none ∨ ∃ f, s.perm.set 1 = some f ∧ f.bad = true) ∧ code = 0x0A05) ∨
        (s.dev.fw.state = 0 ∧ ∃ f, s.perm.set 1 = some f ∧ f.bad = false ∧
          ((fwSec f.header < s.perm.floor ∧ code = 0x0804) ∨
            (s.perm.floor ≤ fwSec f.header ∧ n.fwDependency f.header = true ∧ code = 0x0A02))) →
      ∃ t, exec (.fwRevert e) s = .next { s with dev := t } ∧ Owes c code n t ∧ t.fw = s.dev.fw))

/-- DIGEST_DONE of a COMMIT: a check of R519 that fails completes it REFUSED with the code, and the state stays RECEIVING; with every check
passed the state becomes REWRITING (R519). REWRITE_START with the row running: the plan of the next row is withheld with the cause of a
firmware update, and the loaders of the parts whose image is not the one in force are awaited (R508, R520). The model's reading: log 61. -/
def Obligations.FwRewrites : Prop :=
  (∀ (c : Cmd) (s : State), s.dev.fw.state = 1 → s.dev.fw.hashing = true → s.dev.fw.cmd = some c →
    (∀ part code, s.dev.commitCheck s.dev.fw = some (part, code) →
      ∃ t, exec .digestDone s = .next { s with dev := t } ∧ Posts { s.dev with fw := { s.dev.fw with hashing := false, cmd := none } } t ∧
        (code ≠ 0 → Completed c 0x10 code 0 0 s.dev t)) ∧
    (s.dev.commitCheck s.dev.fw = none →
      exec .digestDone s = .next { s with dev := { s.dev with fw := { s.dev.fw with state := 2, hashing := false, ready := true } } })) ∧
  (∀ s : State, s.dev.fw.state ≠ 1 ∨ s.dev.fw.hashing = false → exec .digestDone s = .next s) ∧
  (∀ (old : FwSet) (s : State), s.dev.fw.state = 2 → s.dev.fw.ready = true → s.dev.row.running = true → s.perm.set 0 = some old →
    old.header ≠ [] → (∃ p, 1 ≤ p ∧ p ≤ 7 ∧ fwDigest old.header p ≠ fwDigest s.dev.fw.header p) →
    ∃ t, exec .rewriteStart s = .next { s with dev := t } ∧
      t = { s.dev with regs := t.regs, fw := t.fw, row := { s.dev.row with planned := false, runonCause := 2 } } ∧
      t.fw.ready = false ∧ t.fw.state = 2 ∧ t.fw.rewritten = [] ∧
      (∀ p, p ∈ t.fw.waiting ↔ 1 ≤ p ∧ p ≤ 7 ∧ fwDigest old.header p ≠ fwDigest s.dev.fw.header p) ∧ RegsBut [pf 0xB 0x054] s.dev t) ∧
  (∀ s : State, s.dev.fw.state ≠ 2 ∨ s.dev.fw.ready = false ∨ s.dev.row.running = false → exec .rewriteStart s = .next s)

/-- LOADER_REPORT under run-on of a part whose report is awaited. A match is noted; the last match on the FW_TRANSFER path writes the
directory, with STAGING as CURRENT, CURRENT as PREVIOUS and PREVIOUS as STAGING, and the new set starts at the next boundary. A mismatch, or
REWRITE_TIMEOUT once 60 ms of run-on have passed, rolls back every part written and leaves the directory as it is (R521, R522, R523). The
model's reading: log 61. -/
def Obligations.LoaderReports : Prop :=
  (∀ (part : Nat) (s : State), part ∈ s.dev.fw.waiting → s.dev.fw.activating = false → s.dev.inRunon = true → s.dev.fw.state = 2 →
    (s.dev.fw.waiting.erase part ≠ [] →
      exec (.loaderReport part true) s = .next { s with dev := { s.dev with
        fw := { s.dev.fw with waiting := s.dev.fw.waiting.erase part, rewritten := s.dev.fw.rewritten ++ [part] } } }) ∧
    (∀ a b c, s.dev.fw.waiting = [part] → s.dev.fw.path = 1 → s.dev.fw.revert = false → s.perm.roles = [a, b, c] →
      ∃ t, exec (.loaderReport part true) s = .next t ∧ t.pending = s.pending ∧ t.perm.roles = [c, a, b] ∧
        t.perm = { s.perm with roles := t.perm.roles, seeds := t.perm.seeds } ∧
        (∀ j, j ≠ c → t.perm.seeds[j]? = s.perm.seeds[j]?) ∧ t.dev.fw.activating = true ∧ t.dev = { s.dev with fw := t.dev.fw }) ∧
    ∃ f, exec (.loaderReport part false) s = .next { s with dev := { s.dev with fw := f } } ∧ f.state = 3 ∧ f.failed = part ∧
      f.rewritten = [] ∧ ∀ p, p ∈ f.waiting ↔ p ∈ s.dev.fw.waiting ∨ p ∈ s.dev.fw.rewritten) ∧
  (∀ (part : Nat) (s : State), part ∈ s.dev.fw.waiting → s.dev.fw.activating = false → s.dev.inRunon = true → s.dev.fw.state = 3 →
    exec (.loaderReport part true) s = .next { s with dev := { s.dev with
      fw := { s.dev.fw with waiting := s.dev.fw.waiting.erase part, rewritten := s.dev.fw.rewritten ++ [part],
                            activating := (s.dev.fw.waiting.erase part).isEmpty, restoring := (s.dev.fw.waiting.erase part).isEmpty } } }) ∧
  (∀ (part : Nat) (ok : Bool) (s : State), part ∉ s.dev.fw.waiting → exec (.loaderReport part ok) s = .next s) ∧
  (∀ s : State, s.dev.fw.state = 2 → s.dev.fw.ready = false → s.dev.fw.waiting ≠ [] → 60000 ≤ s.dev.runonRows * s.dev.period →
    ∃ f, exec .rewriteTimeout s = .next { s with dev := { s.dev with fw := f } } ∧ f.state = 3 ∧ f.rewritten = [] ∧
      ∀ p, p ∈ f.waiting ↔ p ∈ s.dev.fw.waiting ∨ p ∈ s.dev.fw.rewritten) ∧
  (∀ s : State, s.dev.fw.state ≠ 2 ∨ s.dev.fw.ready = true ∨ s.dev.fw.waiting = [] ∨ s.dev.runonRows * s.dev.period < 60000 →
    exec .rewriteTimeout s = .next s)

/-- PLDM_REQUEST_UPDATE, PLDM_TRANSFER_COMPLETE and ACTIVATE_FIRMWARE, while the management block answers: the first runs the header checks
and receives, the second the checks of a COMMIT and starts the rewrite, the third starts a set that every loader has verified; each answers
over MCTP with the code of its refusal or 0 (R517, R519, R522, R528, R557). The model's reading: log 61. -/
def Obligations.FwOverPldm : Prop :=
  (∀ (h : List Byte) (s : State), s.dev.managed = true →
    (s.dev.fw.state = 0 → s.dev.headerCheck s.perm h = none →
      ∃ t, exec (.pldmRequestUpdate h) s = .next { s with dev := t } ∧
        Sig { s.dev with fw := { Fw.reset with state := 1, path := 2, header := h.take 1056 } } t ∧ Sends (.mctp 1 5 [0x10, 0]) s.dev t) ∧
    (∀ code, (s.dev.fw.state ≠ 0 ∧ code = 0x0A04) ∨ (s.dev.fw.state = 0 ∧ s.dev.headerCheck s.perm h = some code) →
      ∃ t, exec (.pldmRequestUpdate h) s = .next { s with dev := t } ∧ Sig s.dev t ∧ Sends (.mctp 1 5 [0x10, code]) s.dev t)) ∧
  (∀ (body : List Byte) (f : Fw) (s : State), s.dev.managed = true → s.dev.fw.path = 2 → s.dev.fw.state = 1 →
    f = s.dev.fw.store 0 (body.take (fwBodyLen s.dev.fw.header)) →
    (s.dev.commitCheck f = none →
      ∃ t, exec (.pldmTransferComplete body) s = .next { s with dev := t } ∧
        Sig { s.dev with fw := { f with state := 2, ready := true } } t ∧ Sends (.mctp 1 5 [0x16, 0, 0]) s.dev t) ∧
    (∀ part code, s.dev.commitCheck f = some (part, code) →
      ∃ t, exec (.pldmTransferComplete body) s = .next { s with dev := t } ∧ Sig { s.dev with fw := f } t ∧
        Sends (.mctp 1 5 [0x16, code, part]) s.dev t)) ∧
  (∀ s : State, s.dev.managed = true →
    (s.dev.fw.path = 2 → s.dev.fw.applied = true →
      ∃ t, exec .activateFirmware s = .next { s with dev := t, perm := s.perm.rotate s.dev.fw } ∧
        Sig { s.dev with fw := { s.dev.fw with activating := true } } t ∧ Sends (.mctp 1 5 [0x1A, 0]) s.dev t) ∧
    (s.dev.fw.path ≠ 2 ∨ s.dev.fw.applied = false →
      ∃ t, exec .activateFirmware s = .next { s with dev := t } ∧ Sig s.dev t ∧ Sends (.mctp 1 5 [0x1A, 0x0A01]) s.dev t)) ∧
  (∀ (h body : List Byte) (s : State), s.dev.managed = false →
    exec (.pldmRequestUpdate h) s = .next s ∧ exec (.pldmTransferComplete body) s = .next s ∧ exec .activateFirmware s = .next s)

/-! Registers -/

/-- A read by RC_READ, PAIR_LO_READ or PAIR_HI_READ answers the register's value; an RC counter clears, a _LO latches its _HI as it stands,
and the _HI then answers that copy, once (R6, R8, R9). Nothing answers while the module is off, in reset or halted, and a read changes
nothing else but the free value of a readout that has none. The model's reading: log 27 and 39. -/
def Obligations.ReadsAnswer : Prop :=
  (∀ (fn off k : Nat) (s : State), fn < 18 → k = busKey fn off → s.dev.up = true →
    ∃ e, exec (.rcRead fn off) s = .next { s with dev := e } ∧ exec (.pairLoRead fn off) s = .next { s with dev := e } ∧
      exec (.pairHiRead fn off) s = .next { s with dev := e } ∧
      e = { s.dev with regs := e.regs, hold := e.hold, free := s.dev.free + 1, sent := s.dev.sent ++ [.value fn off (s.dev.readValue s.perm k)] } ∧
      (isRc k = true → e.rg k = 0) ∧ RegsBut (if isRc k then [k] else []) s.dev e ∧
      (pairLo k = true → nget e.hold (k + 4) = some (wd (s.dev.regRead s.perm (k + 4)))) ∧
      (pairLo (k - 4) = true → nget e.hold k = none ∧ ∀ v, nget s.dev.hold k = some v → s.dev.readValue s.perm k = v) ∧
      (pairLo (k - 4) = false → (regDesc k).isSome = true → s.dev.readValue s.perm k = wd (s.dev.regRead s.perm k)) ∧
      (∀ j, j ≠ k → j ≠ k + 4 → nget e.hold j = nget s.dev.hold j)) ∧
  (∀ (fn off : Nat) (s : State), fn < 18 → s.dev.up = false →
    exec (.rcRead fn off) s = .next s ∧ exec (.pairLoRead fn off) s = .next s ∧ exec (.pairHiRead fn off) s = .next s)

/-- REGISTER_WRITE: a place without a register, an RC counter, a read-only register outside the view pages and an object quota of T0 ignore
it. A configuration-class register of a PF page takes the bits that a write may store, keeps the others, and its page is dirty (R6, R10,
R58, R65, R202). SELECTION_WRITE stores the selection, from which the views are read, and nothing else (R565). A flag of PG_ERR_STAT clears
where 1 is written, and the first error is released when no flag is left (R462, R463). The model's reading: log 27. -/
def Obligations.WritesStore : Prop :=
  (∀ (fn off k : Nat) (v : Word) (s : State), fn < 18 → k = busKey fn off → s.dev.up = true →
    regDesc k = none ∨ (∃ r, regDesc k = some r ∧ r.acc = .rc) ∨ (∃ r, regDesc k = some r ∧ r.acc = .ro ∧ typeOf (keyPage k) ≠ 0x12) ∨
      (fn = 0 ∧ ∃ i, i < 17 ∧ off = pf 0x10 (0x180 + 4 * i)) →
    exec (.registerWrite fn off v) s = .next s) ∧
  (∀ (off k p : Nat) (v : Word) (r : RegDesc) (s : State), k = busKey 0 off → p = keyPage k → s.dev.up = true → regDesc k = some r →
    r.acc = .rw → r.shadow = true → 0x40 ≤ k % 4096 → p ≠ 0x10 →
    ∃ e, exec (.registerWrite 0 off v) s = .next { s with dev := e } ∧ e = { s.dev with regs := e.regs, pages := e.pages } ∧
      (∀ i, i < 32 → bit (e.rg k) i = if bit r.wmask i then bit v.toNat i else bit (s.dev.rg k) i) ∧ RegsBut [k] s.dev e ∧
      (∀ j, e.page j = if j = p then { s.dev.page p with dirty := true } else s.dev.page j)) ∧
  (∀ (slot off : Nat) (v : Word) (r : RegDesc) (s : State), s.dev.up = true →
    (slot, off) ∈ [(6, 0x10C), (2, 0x208), (4, 0x208), (0xF, 0x10C), (0x10, 0x114), (0x11, 0x114), (0x12, 0x114), (0x13, 0x114)] ∨
      (0x40 ≤ slot ∧ slot < 0x50 ∧ off = 0x900) → regDesc (pf slot off) = some r →
    ∃ e, exec (.selectionWrite slot off v) s = .next { s with dev := e } ∧ e = { s.dev with regs := e.regs } ∧
      (∀ i, i < 32 → bit (e.rg (pf slot off)) i = if bit r.wmask i then bit v.toNat i else bit (s.dev.rg (pf slot off)) i) ∧
      RegsBut [pf slot off] s.dev e) ∧
  (∀ (p type inst : Nat) (v : Word) (s : State), p < 4096 → pageInfo p = some (type, inst) → hasHeader type = true → s.dev.up = true →
    ∃ e, exec (.registerWrite 0 (pf p 0x020) v) s = .next { s with dev := e } ∧ Sig s.dev e ∧
      (∀ i, i < 12 → bit (e.rg (pf p 0x020)) i = (bit (s.dev.rg (pf p 0x020)) i && !bit v.toNat i)) ∧
      (e.rg (pf p 0x020) = 0 → p ∉ e.firsts) ∧ (e.rg (pf p 0x020) ≠ 0 → e.firsts = s.dev.firsts) ∧ (∀ q, q ≠ p → (q ∈ e.firsts ↔ q ∈ s.dev.firsts)) ∧
      RegsBut (pf p 0x020 :: alertRegs) s.dev e)

/-! Markers -/

/-- MARKER_SIGNAL by the marker's holder, an ADD of 1 to 65,535 or a SET: the value wraps modulo 2^32, the signaller is kept, every
outstanding wait that the new value meets ends and is no waiter, and nothing else changes but counters of the marker page (R415 to R419,
R426). Any other signal changes nothing. The model's reading: log 50. -/
def Obligations.MarkerSignals : Prop :=
  (∀ (i operand kind source strand v : Nat) (add met : Bool) (s : State), holderSignals (s.dev.marker i).holder kind strand = true →
    (add = true → 1 ≤ operand ∧ operand ≤ 65535) → v = (if add then ((s.dev.marker i).value + operand) % 2 ^ 32 else operand % 2 ^ 32) →
    ∃ e, exec (.markerSignal i add operand kind source strand met) s = .next { s with dev := e } ∧
      e = { s.dev with regs := e.regs, part := e.part, markers := e.markers, row := { s.dev.row with slots := e.row.slots } } ∧
      (e.marker i).value = v ∧ (e.marker i).last = markLast kind source strand ∧ (e.marker i).holder = (s.dev.marker i).holder ∧
      (e.marker i).waiters ≤ (s.dev.marker i).waiters ∧ (∀ j, j ≠ i → e.marker j = s.dev.marker j) ∧
      (∀ (j : Nat) (a : Slot), s.dev.row.slots[j]? = some a → ∃ l, e.row.slots[j]? = some { a with inputs := l } ∧ (a.phase ≠ 1 → l = a.inputs) ∧
        (a.phase = 1 → ∀ x : Input, x ∈ l ↔ x ∈ a.inputs ∧ ∀ t w, x.src = .marker i t w → markerMet v t = false)) ∧
      (add = false → met = true → e.rg (pf (0x30 + i / 1024) 0x04C) = (s.dev.rg (pf (0x30 + i / 1024) 0x04C) + 1) % 2 ^ 32) ∧
      RegsBut [pf (0x30 + i / 1024) 0x040, pf (0x30 + i / 1024) 0x044, pf (0x30 + i / 1024) 0x04C] s.dev e) ∧
  (∀ (i operand kind source strand : Nat) (add met : Bool) (s : State),
    holderSignals (s.dev.marker i).holder kind strand = false ∨ (add = true ∧ (operand = 0 ∨ 65535 < operand)) →
    exec (.markerSignal i add operand kind source strand met) s = .next s)

/-- The marker pages: MK_SEL and MV_INDEX latch the selected marker as it stands (R426, R427), MV_VALUE changes no marker and counts on the
matching marker page (R428), MK_FORCE.GO forces an unpick of the selected marker to MK_FORCE_VALUE, in place of one of that page that still
waits (R424; the replacing is the model's choice, log 43). -/
def Obligations.MarkerPages : Prop :=
  (∀ (p i : Nat) (v : Word) (s : State), 0x30 ≤ p → p < 0x34 → i = (p - 0x30) * 1024 + v.toNat % 1024 → s.dev.up = true →
    ∃ e, exec (.mkSelWrite p v) s = .next { s with dev := e } ∧ e = { s.dev with regs := e.regs } ∧ e.rg (pf p 0x100) = v.toNat % 1024 ∧
      e.rg (pf p 0x104) = (s.dev.marker i).value % 2 ^ 32 ∧ e.rg (pf p 0x108) = (s.dev.marker i).waiters % 65536 ∧
      e.rg (pf p 0x10C) = (s.dev.marker i).last % 2 ^ 32 ∧ ((s.dev.marker i).holder = .free → e.rg (pf p 0x110) = 0) ∧
      (∀ id t, (s.dev.marker i).holder = .strand id t → bits (e.rg (pf p 0x110)) 31 30 = 1 ∧ bits (e.rg (pf p 0x110)) 15 0 = id % 65536 ∧
        bits (e.rg (pf p 0x110)) 25 21 = t % 32) ∧
      RegsBut [pf p 0x100, pf p 0x104, pf p 0x108, pf p 0x10C, pf p 0x110] s.dev e) ∧
  (∀ (p i : Nat) (v : Word) (s : State), 0x34 ≤ p → p < 0x38 → i = (p - 0x34) * 1024 + v.toNat % 1024 → s.dev.up = true →
    ∃ e, exec (.mvIndexWrite p v) s = .next { s with dev := e } ∧ e = { s.dev with regs := e.regs } ∧ e.rg (pf p 0x100) = v.toNat % 1024 ∧
      e.rg (pf p 0x104) = (s.dev.marker i).value % 2 ^ 32 ∧ e.rg (pf p 0x108) = (s.dev.marker i).waiters % 65536 ∧
      e.rg (pf p 0x10C) = (s.dev.marker i).last % 2 ^ 32 ∧ RegsBut [pf p 0x100, pf p 0x104, pf p 0x108, pf p 0x10C] s.dev e) ∧
  (∀ (p : Nat) (v : Word) (s : State), 0x34 ≤ p → p < 0x38 → s.dev.up = true →
    ∃ e, exec (.mvValueWrite p v) s = .next { s with dev := e } ∧ e = { s.dev with regs := e.regs } ∧
      e.rg (pf (p - 4) 0x054) = (s.dev.rg (pf (p - 4) 0x054) + 1) % 2 ^ 32 ∧ RegsBut [pf (p - 4) 0x054] s.dev e) ∧
  (∀ (p i : Nat) (s : State), 0x30 ≤ p → p < 0x34 → i = (p - 0x30) * 1024 + s.dev.rg (pf p 0x100) % 1024 → s.dev.up = true →
    ∃ e, exec (.mkForceGo p) s = .next { s with dev := e } ∧ e = { s.dev with forces := e.forces } ∧
      e.forces.getLast? = some (i, s.dev.rg (pf p 0x114)) ∧ (∀ x, x.1 / 1024 ≠ p - 0x30 → (x ∈ e.forces ↔ x ∈ s.dev.forces)) ∧
      (∀ x ∈ e.forces, x.1 / 1024 = p - 0x30 → x = (i, s.dev.rg (pf p 0x114)))) ∧
  (∀ (p : Nat) (v : Word) (s : State), s.dev.up = false →
    ∀ c ∈ [Instr.mkSelWrite p v, .mvIndexWrite p v, .mvValueWrite p v, .mkForceGo p], exec c s = .next s)

/-! Index jobs and slices -/

/-- Index jobs: MERGE queues one for a graph index with a sprout and no job (R229), CANCEL ends the queued and running ones (R234); the
first queued job whose index has none running starts while fewer than 8 run, from the current epoch (R229); its result enters the shadow, or
is stale after a later foreign write (R232, R233). Slices of the weight order load one behind another within three places and 32 segments,
and one that is loaded holds up no stitch (R189, R191). The model's reading: log 58. -/
def Obligations.JobsAndSlices : Prop :=
  (∀ (h : Nat) (s : State), s.dev.up = true → h = s.dev.rg (pf 4 0x208) → handleKind h = 1 → (s.dev.curEpoch h).isSome = true →
    (ixDesc (s.dev.curContent h).bytes).cls = 0 → (s.dev.curContent h).index.sprout ≠ [] → (s.dev.jobOf h = none →
      exec .ixMerge s = .next { s with dev := { s.dev with jobs := s.dev.jobs ++ [⟨h, false, [], 1, 0, 0, 0⟩] } }) ∧
    (s.dev.jobOf h ≠ none → exec .ixMerge s = .next s)) ∧
  (∀ (h : Nat) (s : State), s.dev.up = true → h = s.dev.rg (pf 4 0x208) →
    ∃ e, exec .ixCancel s = .next { s with dev := e } ∧ e = { s.dev with regs := e.regs, jobs := e.jobs } ∧
      (∀ j, j ∈ e.jobs ↔ j ∈ s.dev.jobs ∧ (j.handle = h → j.state = 3)) ∧
      e.rg (pf 4 0x234) = (s.dev.rg (pf 4 0x234) + (s.dev.jobs.length - e.jobs.length)) % 2 ^ 32 ∧ RegsBut [pf 4 0x234] s.dev e) ∧
  (∀ (h i : Nat) (j : Job) (b : Epoch) (s : State), s.dev.jobs[i]? = some j → j.handle = h → j.state = 1 → s.dev.curEpoch h = some b →
    (∀ k ∈ s.dev.jobs, k.handle = h → k.state ≠ 2) →
    (∀ (n : Nat) (k : Job), n < i → s.dev.jobs[n]? = some k → k.state = 1 → ∃ x ∈ s.dev.jobs, x.handle = k.handle ∧ x.state = 2) →
    ((s.dev.jobs.filter (·.state == 2)).length < 8 →
      exec (.jobStart h) s = .next { s with dev := { s.dev with jobs := s.dev.jobs.set i { j with state := 2, base := b.stamp } } }) ∧
    (8 ≤ (s.dev.jobs.filter (·.state == 2)).length → exec (.jobStart h) s = .next s)) ∧
  (∀ (h : Nat) (j : Job) (b : Epoch) (s : State), s.dev.jobs.find? (fun x => x.handle == h && x.state == 2) = some j →
    (s.dev.obj h).epoch j.base = some b → bits (s.dev.inForce (pf 4 0x200)) 11 0 ≠ 0 →
    ∃ e, exec (.jobResult h) s = .next { s with dev := e } ∧
      e = { s.dev with regs := e.regs, part := e.part, jobs := e.jobs, objs := e.objs, free := s.dev.free + 1 } ∧
      ((∀ r, (s.dev.obj h).foreign = some r → r < b.commitRow) →
        e.obj h = { (s.dev.obj h).enter
          (if j.build then buildResult j.params b.content (s.dev.obj h).base else mergeResult b.content (s.dev.obj h).base) with
            foreign := some s.dev.row.number } ∧
        (∀ g, g ≠ h → e.obj g = s.dev.obj g) ∧ { j with state := 3, progress := 100, row := s.dev.row.number } ∈ e.jobs ∧
        e.rg (pf 4 0x22C) = (s.dev.rg (pf 4 0x22C) + 1) % 2 ^ 32) ∧
      (∀ r, (s.dev.obj h).foreign = some r → b.commitRow ≤ r →
        e.objs = s.dev.objs ∧ j ∉ e.jobs ∧ e.rg (pf 4 0x230) = (s.dev.rg (pf 4 0x230) + 1) % 2 ^ 32) ∧
      (∀ x, x ≠ j → (x.handle ≠ h ∨ x.state ≠ 3) → (x ∈ e.jobs ↔ x ∈ s.dev.jobs)) ∧
      (∀ k, k ≠ pf 4 0x22C → k ≠ pf 4 0x230 → (∀ u ∈ unitSlots 2, k ≠ pf u 0x054) → e.rg k = s.dev.rg k)) ∧
  (∀ (i : Nat) (x : Slice) (s : State), s.dev.tiers.bed[i]? = some x → x.phase = 0 →
    (∀ (n : Nat) (y : Slice), n < i → s.dev.tiers.bed[n]? = some y → y.phase ≠ 0) →
    (i ≤ 3 → sumNat (s.dev.tiers.bed.map fun y => if y.phase = 0 then 0 else y.segments) + x.segments ≤ 32 →
      exec .sliceLoadStart s =
        .next { s with dev := { s.dev with tiers := { s.dev.tiers with bed := s.dev.tiers.bed.set i { x with phase := 1 } } } }) ∧
    (3 < i ∨ 32 < sumNat (s.dev.tiers.bed.map fun y => if y.phase = 0 then 0 else y.segments) + x.segments →
      exec .sliceLoadStart s = .next s)) ∧
  (∀ (i : Nat) (x : Slice) (s : State), s.dev.tiers.bed[i]? = some x → x.phase = 1 →
    (∀ (n : Nat) (y : Slice), n < i → s.dev.tiers.bed[n]? = some y → y.phase ≠ 1) →
    ∃ e, exec .sliceLoadDone s = .next { s with dev := e } ∧
      e = { s.dev with regs := e.regs, part := e.part, tiers := { s.dev.tiers with bed := s.dev.tiers.bed.set i { x with phase := 2 } },
                       row := { s.dev.row with slots := e.row.slots } } ∧
      (∀ (j : Nat) (a : Slot), s.dev.row.slots[j]? = some a →
        e.row.slots[j]? = some (if j ∈ x.users ∧ ⟨none, .needle⟩ ∈ a.inputs then
          { a with inputs := a.inputs.filter (·.src ≠ .needle), got := a.got ++ [⟨none, .needle⟩] } else a)) ∧
      e.rg (pf 0xE 0x040) = (s.dev.rg (pf 0xE 0x040) + 1) % 2 ^ 32 ∧
      (x.fromT2 = true → e.rg (pf 0xE 0x044) = (s.dev.rg (pf 0xE 0x044) + 1) % 2 ^ 32) ∧
      RegsBut [pf 0xE 0x040, pf 0xE 0x044, pf 0xE 0x048] s.dev e) ∧
  (∀ s : State, (∀ x ∈ s.dev.tiers.bed, x.phase ≠ 0) → exec .sliceLoadStart s = .next s) ∧
  (∀ s : State, (∀ x ∈ s.dev.tiers.bed, x.phase ≠ 1) → exec .sliceLoadDone s = .next s)

/-! Memory tiers -/

/-- The line code reports one of three outcomes: no error, corrected for one or two symbols in error, uncorrectable for three or four; a line
with four or fewer is never miscorrected (R199). Above four the outcome is open (log 11). -/
def Obligations.LineCode : Prop :=
  ∀ errors : List (Nat × Nat), (symbolErrors errors = 0 → lineOutcome errors = .clean) ∧
    (1 ≤ symbolErrors errors → symbolErrors errors ≤ 2 → lineOutcome errors = .corrected) ∧
    (3 ≤ symbolErrors errors → symbolErrors errors ≤ 4 → lineOutcome errors = .uncorrectable) ∧
    (lineOutcome errors = .clean ∨ lineOutcome errors = .corrected ∨ lineOutcome errors = .uncorrectable)

/-- TIER_READ_RETURN: the read is counted, late as well when it is late (R192, R202); the stitch that waits for it has its input, or the strand of
a stitch cut short keeps it in T0 scratch (R32). A line of the lost-line map makes the stitch wait (R194); a corrected line is reported CORR and
probed (R197, R466); an uncorrectable one is reported UNCORR, the stitch waits for it and its recovery begins (R193). RECOVERY_DONE ends every
recovery of its line: read again without error in T1 or T2, the waiting stitches go on and nothing is counted; rebuilt from its home, they go on
and the rebuild counts (R193, R202), but a damaged granule delivers poisoned lines (R195), counted once for each tenant of a stitch (R480); failed, or of working data, which has no home, the line
is lost, and an object's line damages its granule in the epoch read (R194, R195). Strands, queues and the other objects stay as they are. The
model's reading: how a line is named: log 40; which epochs a damage reaches: log 81. -/
def Obligations.TierReads : Prop :=
  (∀ (tier server slot line handle granule : Nat) (member : Option Nat) (late : Bool) (errors : List (Nat × Nat)) (s : State),
    s.dev.up = true → tier ≤ 3 →
    ∃ e, exec (.tierReadReturn tier server slot member late errors line handle granule) s = .next { s with dev := e } ∧
      (∀ (j : Nat) (a : Slot), s.dev.row.slots[j]? = some a → ∃ b, e.row.slots[j]? = some b ∧ b.members = a.members ∧ b.phase = a.phase ∧
        b.inputs = (if j = slot ∧ a.phase = 1 then (tierSrc tier).elim a.inputs (fun x => a.inputs.erase ⟨member, x⟩) else a.inputs) ∧
        b.tierErr = (if j = slot ∧ (s.dev.isLost tier line = true ∨ lineOutcome errors = .uncorrectable) then a.tierErr ++ [member]
          else a.tierErr) ∧
        (s.dev.isLost tier line = false ∨ j ≠ slot → b.poisoned = a.poisoned) ∧
        (s.dev.isLost tier line = true → j = slot → ∀ t ∈ s.dev.readers slot member, t ∈ b.poisoned ∧
          (t ∉ a.poisoned → t ≠ 0 → e.rg (pf (tenantPage t) 0x070) = (s.dev.rg (pf (tenantPage t) 0x070) + 1) % 2 ^ 32))) ∧
      (∀ id x, nget s.dev.strands id = some x → ∃ r k, nget e.strands id = some { x with reading := r, scratch := k }) ∧
      (∀ a id x src, s.dev.row.slots[slot]? = some a → tierSrc tier = some src → a.phase ≠ 1 ∨ ⟨member, src⟩ ∉ a.inputs → member = some id →
        nget s.dev.strands id = some x → src ∈ x.reading →
        nget e.strands id = some { x with reading := x.reading.erase src, scratch := x.scratch ++ [src] }) ∧
      (late = true → e.rg (pf (0x10 + tier) 0x044) = (s.dev.rg (pf (0x10 + tier) 0x044) + 1) % 2 ^ 32 ∧
        ∀ o, lateCounter server = some o → e.rg (pf server o) = (s.dev.rg (pf server o) + 1) % 2 ^ 32) ∧
      (s.dev.isLost tier line = true ∨ lineOutcome errors = .clean →
        e = { s.dev with regs := e.regs, part := e.part, sent := e.sent, free := e.free, strands := e.strands,
                         row := { s.dev.row with slots := e.row.slots } } ∧
        (s.dev.isLost tier line = false → e.sent = s.dev.sent) ∧
        RegsBut ([pf (0x10 + tier) 0x040, pf (0x10 + tier) 0x044] ++ (lateCounter server).toList.map (pf server) ++
          (if zorberMemory server then [pf (engineOf (instOf server / 8)) 0x044, pf server 0x044] else []) ++
          if s.dev.isLost tier line then (s.dev.readers slot member).flatMap (fun t => pf (tenantPage t) 0x070 :: eventRegs t) else []) s.dev e) ∧
      (s.dev.isLost tier line = false → lineOutcome errors ≠ .clean → pfPage server = true → typeOf server ≠ 3 →
        e = { s.dev with regs := e.regs, part := e.part, firsts := e.firsts, sent := e.sent, pages := e.pages, free := e.free, strands := e.strands,
                         row := { s.dev.row with slots := e.row.slots },
                         fault := { s.dev.fault with log := e.fault.log, seen := e.fault.seen, probes := e.fault.probes },
                         tiers := { s.dev.tiers with recoveries := e.tiers.recoveries } } ∧
        bit (e.rg (pf server 0x020)) (if lineOutcome errors = .corrected then 0 else 1) = true ∧
        e.tiers.recoveries = s.dev.tiers.recoveries ++
          (if lineOutcome errors = .uncorrectable then
            [⟨line, tier, server, handle, granule, s.dev.readerStamp slot member handle, slot, member, s.dev.row.number⟩] else []) ∧
        (capProbe (typeOf server) = true → (s.dev.page server).fenced = false →
          ∃ q ∈ e.fault.probes, q.page = server ∧ q.loc = lineLoc server line))) ∧
  (∀ (tier line : Nat) (rebuilt reread : Bool) (r : Recovery) (rest : List Recovery) (s : State),
    s.dev.tiers.recoveries.filter (fun x => x.tier == tier && x.line == line) = r :: rest → tier ≤ 3 →
    ∃ e, exec (.recoveryDone ⟨tier, line⟩ ⟨rebuilt, reread⟩) s = .next { s with dev := e } ∧
      e.tiers.recoveries = s.dev.tiers.recoveries.filter (fun x => !(x.tier == tier && x.line == line)) ∧
      e = { s.dev with regs := e.regs, objs := e.objs, sent := e.sent, row := { s.dev.row with slots := e.row.slots },
                       tiers := { s.dev.tiers with recoveries := e.tiers.recoveries, lost := e.tiers.lost } } ∧
      ((reread = true ∧ (tier = 1 ∨ tier = 2)) ∨
          (rebuilt = true ∧ r.handle ≠ 0 ∧ (s.dev.obj r.handle).isDamaged r.stamp r.granule = false) →
        e.objs = s.dev.objs ∧ e.tiers.lost = s.dev.tiers.lost ∧
        (rest = [] → r.row = s.dev.row.number → ∀ a, s.dev.row.slots[r.slot]? = some a →
          e.row.slots[r.slot]? = some { a with tierErr := a.tierErr.erase r.member })) ∧
      (reread = true → tier = 1 ∨ tier = 2 → e.regs = s.dev.regs) ∧
      (reread = false ∨ (tier ≠ 1 ∧ tier ≠ 2) →
        (rebuilt = true → r.handle ≠ 0 → (s.dev.obj r.handle).isDamaged r.stamp r.granule = false →
          e.rg (pf (0x10 + tier) 0x048) = (s.dev.rg (pf (0x10 + tier) 0x048) + 1) % 2 ^ 32 ∧
          RegsBut [pf (0x10 + tier) 0x048, pf r.server 0x048] s.dev e) ∧
        (rebuilt = true → r.handle ≠ 0 → (s.dev.obj r.handle).isDamaged r.stamp r.granule = true →
          e = { s.dev with regs := e.regs, sent := e.sent, row := { s.dev.row with slots := e.row.slots },
                           tiers := { s.dev.tiers with recoveries := e.tiers.recoveries } } ∧
          (∀ (j : Nat) (a : Slot), s.dev.row.slots[j]? = some a → ∃ p, e.row.slots[j]? = some { a with poisoned := p }) ∧
          ∀ x ∈ r :: rest, x.row = s.dev.row.number → ∀ a, s.dev.row.slots[x.slot]? = some a → ∀ t ∈ s.dev.readers x.slot x.member,
            ∃ b, e.row.slots[x.slot]? = some b ∧ t ∈ b.poisoned ∧
              (rest = [] → t ∉ a.poisoned → t ≠ 0 →
                e.rg (pf (tenantPage t) 0x070) = (s.dev.rg (pf (tenantPage t) 0x070) + 1) % 2 ^ 32)) ∧
        (rebuilt = false ∨ r.handle = 0 → e.row = s.dev.row ∧
          (s.dev.isLost (if r.handle = 0 then tier else 3) line = false →
            e.tiers.lost = s.dev.tiers.lost ++ [(if r.handle = 0 then tier else 3, line, r.handle, r.granule)] ∧
            e.rg (pf (0x10 + (if r.handle = 0 then tier else 3)) 0x04C) =
              (s.dev.rg (pf (0x10 + (if r.handle = 0 then tier else 3)) 0x04C) + 1) % 2 ^ 32) ∧
          (r.handle = 0 → e.objs = s.dev.objs) ∧ (∀ h, h ≠ r.handle → nget e.objs h = nget s.dev.objs h) ∧
          (∀ o b, r.handle ≠ 0 → nget s.dev.objs r.handle = some o → o.epoch r.stamp = some b → r.granule ∉ b.damaged →
            (∃ p c, nget e.objs r.handle = some p ∧ p.epoch r.stamp = some c ∧ r.granule ∈ c.damaged ∧ c = { b with damaged := c.damaged }) ∧
            e.rg (pf 0x13 0x120) = r.handle % 2 ^ 32 ∧ e.rg (pf 0x13 0x050) = (s.dev.rg (pf 0x13 0x050) + 1) % 2 ^ 32 ∧
            (1 ≤ handleOwner r.handle → handleOwner r.handle ≤ 16 →
              e.rg (pf (tenantPage (handleOwner r.handle)) 0x074) =
                (s.dev.rg (pf (tenantPage (handleOwner r.handle)) 0x074) + 1) % 2 ^ 32))))) ∧
  (∀ (tier line : Nat) (rebuilt reread : Bool) (s : State), (∀ r ∈ s.dev.tiers.recoveries, r.tier ≠ tier ∨ r.line ≠ line) →
    exec (.recoveryDone ⟨tier, line⟩ ⟨rebuilt, reread⟩) s = .next s)

/-- COMPRESSED_WRITE: a page is verified before it is acknowledged; each mismatch counts, and after a second it is stored raw, 64 lines
(R184, R185; a page that would not shrink is raw as well, by a free value, log 40). What is stored raw is the page's image alone. SCRUB_PASS of an HBM controller, an LPDDR controller or a flash domain:
every corrected line counts, raises CORR and starts its probe, at a location that is free (R197, R201, R466; log 26); a Zorber memory's waits
while its firmware is rewritten (R507). -/
def Obligations.TierWrites : Prop :=
  (∀ (die mismatches p : Nat) (page : List Nat) (s : State), s.dev.up = true → p = 0xB6 + 8 * (die % 2) →
    ∃ e raw, exec (.compressedWrite die ⟨mismatches, page⟩) s = .next { s with dev := e } ∧
      e = { s.dev with regs := e.regs, part := e.part, tiers := { s.dev.tiers with raw := e.tiers.raw } } ∧ (2 ≤ mismatches → raw = true) ∧
      (page ∈ e.tiers.raw ↔ 2 ≤ mismatches) ∧ (∀ x, x ≠ page → (x ∈ e.tiers.raw ↔ x ∈ s.dev.tiers.raw)) ∧
      (raw = true ↔ storedBytes e.tiers.raw page = 64 * 76) ∧
      e.rg (pf p 0x048) = (s.dev.rg (pf p 0x048) + min mismatches 2) % 2 ^ 32 ∧
      e.rg (pf p 0x04C) = (s.dev.rg (pf p 0x04C) + b2n raw) % 2 ^ 32 ∧
      RegsBut [pf p 0x048, pf p 0x04C, pf p 0x040] s.dev e) ∧
  (∀ (p corrected rewritten : Nat) (s : State), s.dev.up = true → s.dev.scrubWaits p = false →
    typeOf p = 0x15 ∨ (typeOf p = 0x18 ∧ instOf p % 8 < 6) →
    ∃ e, exec (.scrubPass p corrected rewritten) s = .next { s with dev := e } ∧
      e = { s.dev with regs := e.regs, firsts := e.firsts, sent := e.sent, free := s.dev.free + corrected,
                       fault := { s.dev.fault with log := e.fault.log, seen := e.fault.seen, probes := e.fault.probes } } ∧
      (∀ o, scrubCounter p = some o → e.rg (pf p o) = (s.dev.rg (pf p o) + corrected) % 2 ^ 32) ∧
      e.rg (pf 7 0x040) = (s.dev.rg (pf 7 0x040) + corrected) % 2 ^ 32 ∧ e.rg (pf p 0x02C) = (s.dev.rg (pf p 0x02C) + corrected) % 2 ^ 32 ∧
      (corrected ≠ 0 → bit (e.rg (pf p 0x020)) 0 = true ∧ ((s.dev.page p).fenced = false → ∃ q ∈ e.fault.probes, q.page = p)) ∧
      RegsBut (errorRegs p ++ logRegs ++ (scrubCounter p).toList.map (pf p) ++ [pf p 0x02C, pf 7 0x040]) s.dev e) ∧
  (∀ (p corrected rewritten : Nat) (s : State), s.dev.up = false ∨ s.dev.scrubWaits p = true →
    exec (.scrubPass p corrected rewritten) s = .next s)

/-! Errors and probes -/

/-- ERROR_REPORT of classes 0x01 to 0x08 by a page other than a control group's, no pattern-sequencer mismatch: its flag is set, the first
unmasked error is kept with its code, row and location, the class counter and the page's own count it, a record of the fault log holds it
(R197, R462, R463, R481, R482); classes 0x01 to 0x05 quiesce a compute unit, but for a word line of its T0, and plan a probe of the location, on a page that has probes and
is not fenced (R466, R467), the others do not. A control group restarts once, is logged, and its core is probed (R478); CG_RESTART_DONE ends
the restart. The model's reading: log 34. -/
def Obligations.ErrorsReported : Prop :=
  (∀ (p cls detail loc core : Nat) (s : State), pfPage p = true → typeOf p ≠ 3 → 1 ≤ cls → cls ≤ 8 → ¬ (p = 1 ∧ cls = 3) →
    ∃ e, exec (.errorReport p cls detail loc core) s = .next { s with dev := e } ∧
      e = { s.dev with regs := e.regs, part := e.part, firsts := e.firsts, sent := e.sent, pages := e.pages, row := { s.dev.row with slots := e.row.slots },
                       fault := { s.dev.fault with log := e.fault.log, seen := e.fault.seen, probes := e.fault.probes } } ∧
      bit (e.rg (pf p 0x020)) (cls - 1) = true ∧
      (bit (s.dev.rg (pf p 0x024)) (cls - 1) = false → p ∉ s.dev.firsts → p ∈ e.firsts ∧
        e.rg (pf p 0x028) = (cls * 256 + detail % 256) * 65536 + s.dev.row.number % 65536 ∧ e.rg64 (pf p 0x038) = loc % 2 ^ 64) ∧
      (p ∈ s.dev.firsts → e.firsts = s.dev.firsts ∧ e.rg (pf p 0x028) = s.dev.rg (pf p 0x028)) ∧
      (∀ o, classCounter cls = some o → e.rg (pf 7 o) = (s.dev.rg (pf 7 o) + 1) % 2 ^ 32) ∧
      (cls = 1 → e.rg (pf p 0x02C) = (s.dev.rg (pf p 0x02C) + 1) % 2 ^ 32) ∧
      (cls = 2 → e.rg (pf p 0x030) = (s.dev.rg (pf p 0x030) + 1) % 2 ^ 32) ∧
      (∃ r, e.fault.log.getLast? = some r ∧ r.event = (if cls = 6 then 9 else 1) ∧ r.row = s.dev.row.number ∧ r.loc = loc ∧
        r.code = cls * 256 + detail % 256 ∧ some (r.type, r.inst) = pageInfo p) ∧
      (cls ≤ 5 → capProbe (typeOf p) = true → (s.dev.page p).fenced = false →
        (∃ q ∈ e.fault.probes, q.page = p ∧ q.loc = loc) ∧ (isCompute p = true → locKind loc ≠ 2 → (e.page p).quiesced = true) ∧
        (locKind loc = 2 → e.page p = s.dev.page p)) ∧
      (6 ≤ cls → e.fault.probes = s.dev.fault.probes ∧ e.pages = s.dev.pages ∧ e.row = s.dev.row) ∧ (∀ j, j ≠ p → e.page j = s.dev.page j)) ∧
  (∀ (g cls detail loc core : Nat) (s : State), g < 4 → 1 ≤ cls → cls ≤ 5 →
    ∃ e, exec (.errorReport (2 + g) cls detail loc core) s = .next { s with dev := e } ∧ g ∈ e.fault.restarting ∧
      (∀ h, h ≠ g → (h ∈ e.fault.restarting ↔ h ∈ s.dev.fault.restarting)) ∧ bit (e.rg (pf (2 + g) 0x020)) (cls - 1) = true ∧
      (∃ q ∈ e.fault.probes, q.page = 2 + g ∧ q.loc = unitLoc core) ∧
      (g ∉ s.dev.fault.restarting → e.rg (pf 7 0x078) = (s.dev.rg (pf 7 0x078) + 1) % 2 ^ 32 ∧
        e.rg (pf (2 + g) 0x048) = (s.dev.rg (pf (2 + g) 0x048) + 1) % 2 ^ 32) ∧
      e = { s.dev with regs := e.regs, firsts := e.firsts, sent := e.sent, fault := e.fault }) ∧
  (∀ (g : Nat) (s : State), g ∈ s.dev.fault.restarting →
    ∃ l, exec (.cgRestartDone g) s = .next { s with dev := { s.dev with fault := { s.dev.fault with restarting := l } } } ∧ g ∉ l ∧
      ∀ h, h ≠ g → (h ∈ l ↔ h ∈ s.dev.fault.restarting)) ∧
  (∀ (g : Nat) (s : State), g ∉ s.dev.fault.restarting → exec (.cgRestartDone g) s = .next s)

/-- PROBE_START: the first planned probe of the page whose error came in an earlier row starts in a row that is planned, none of that page
running or waiting to act: PROBING reads 1 and FL_PROBES counts (R469). PROBE_END: a pass that is the REPEAT_LIMIT-th of its location within
the window counts as failed; the outcome is kept to act at the next boundary, counted, logged and shown, and a pass joins the history (R465,
R470, R471). A write of 1 to FL_CMD.PROBE plans a probe of kind UNIT of the unit of the page in FL_PROBE_SEL and quiesces a compute unit: no
stitch stays planned on it but one that drops. It is ignored when PG_CAP.PROBE of the page is 0 and when the unit is quiesced, probing or
fenced (R472). The model's reading: log 54. -/
def Obligations.ProbesRun : Prop :=
  (∀ (p i : Nat) (q : Probe) (s : State), s.dev.fault.probes[i]? = some q → q.page = p → q.row < s.dev.row.number →
    (∀ (n : Nat) (x : Probe), n < i → s.dev.fault.probes[n]? = some x → x.page ≠ p ∨ s.dev.row.number ≤ x.row) →
    (s.dev.row.running = true → bit (s.dev.rg (pf 1 0x124)) 0 = false →
      (∀ x ∈ s.dev.fault.probes, x.page = p → x.running = false ∧ x.outcome = none) →
      ∃ e, exec (.probeStart p) s = .next { s with dev := e } ∧
        e = { s.dev with regs := e.regs, pages := e.pages,
                         fault := { s.dev.fault with probes := s.dev.fault.probes.set i { q with running := true } } } ∧
        e.page p = { s.dev.page p with probing := true } ∧ (∀ j, j ≠ p → e.page j = s.dev.page j) ∧
        e.rg (pf 7 0x050) = (s.dev.rg (pf 7 0x050) + 1) % 2 ^ 32 ∧ RegsBut [pf 7 0x050] s.dev e) ∧
    (s.dev.row.running = false ∨ bit (s.dev.rg (pf 1 0x124)) 0 = true ∨ (∃ x ∈ s.dev.fault.probes, x.page = p ∧ (x.running = true ∨ x.outcome ≠ none)) →
      exec (.probeStart p) s = .next s)) ∧
  (∀ (p : Nat) (q : Probe) (passed ok : Bool) (s : State), s.dev.fault.probes.find? (fun x => x.page == p && x.running) = some q →
    ok = (passed && decide (s.dev.passes p q.loc + 1 < bits (s.dev.inForce (pf 7 0x100)) 23 16)) →
    ∃ e, exec (.probeEnd p passed) s = .next { s with dev := e } ∧
      e = { s.dev with regs := e.regs, pages := e.pages,
                       fault := { s.dev.fault with log := e.fault.log, seen := e.fault.seen, history := e.fault.history, probes := e.fault.probes } } ∧
      e.fault.probes = (s.dev.fault.probes.map fun (x : Probe) => if x.page = p ∧ x.running = true then
        { x with running := false, outcome := some ok } else x) ∧
      e.page p = { s.dev.page p with probing := false } ∧ (∀ j, j ≠ p → e.page j = s.dev.page j) ∧
      (ok = true → s.dev.fault.history.length < 4096 → e.fault.history = s.dev.fault.history ++ [(p, q.loc, s.dev.row.timeNs)]) ∧
      (ok = false → e.fault.history = s.dev.fault.history) ∧
      bits (e.rg (pf p 0x034)) 31 30 = (if ok then 1 else 2) ∧ bits (e.rg (pf p 0x034)) 15 0 = s.dev.row.number % 65536 ∧
      e.rg (pf 7 (if ok then 0x054 else 0x058)) = (s.dev.rg (pf 7 (if ok then 0x054 else 0x058)) + 1) % 2 ^ 32 ∧
      e.rg (pf 7 0x06C) = (s.dev.rg (pf 7 0x06C) + b2n (passed && !ok)) % 2 ^ 32 ∧
      (∃ r, e.fault.log.getLast? = some r ∧ r.event = (if ok then 2 else 3) ∧ r.loc = q.loc) ∧
      RegsBut ([pf p 0x034, pf 7 0x054, pf 7 0x058, pf 7 0x06C] ++ logRegs) s.dev e) ∧
  (∀ (p : Nat) (passed : Bool) (s : State), (∀ x ∈ s.dev.fault.probes, x.page = p → x.running = false) → exec (.probeEnd p passed) s = .next s) ∧
  (∀ (p : Nat) (s : State), s.dev.up = true → p = bits (s.dev.rg (pf 7 0x13C)) 11 0 → pfPage p = true → capProbe (typeOf p) = true →
    (s.dev.page p).quiesced = false → (s.dev.page p).probing = false → (s.dev.page p).fenced = false →
    (∀ x ∈ s.dev.fault.probes, x.page ≠ p) →
    ∃ e, exec .flProbe s = .next { s with dev := e } ∧
      e = { s.dev with regs := e.regs, part := e.part, pages := e.pages, row := { s.dev.row with slots := e.row.slots },
                       fault := { s.dev.fault with probes := s.dev.fault.probes ++ [⟨p, unitLoc 0, s.dev.row.number, false, none, 0⟩] } } ∧
      (isCompute p = true → e.page p = { s.dev.page p with quiesced := true } ∧
        ∀ x ∈ e.row.slots, x.unit = p → x.phase = 0 → x.faulted = true) ∧
      (∀ k, k % 4096 ≠ 0x054 → e.rg k = s.dev.rg k) ∧
      (isCompute p = false → e.regs = s.dev.regs ∧ e.pages = s.dev.pages ∧ e.row = s.dev.row) ∧ (∀ j, j ≠ p → e.page j = s.dev.page j)) ∧
  (∀ (p : Nat) (s : State), p = bits (s.dev.rg (pf 7 0x13C)) 11 0 →
    s.dev.up = false ∨ pfPage p = false ∨ capProbe (typeOf p) = false ∨ (s.dev.page p).quiesced = true ∨ (s.dev.page p).probing = true ∨
      (s.dev.page p).fenced = true → exec .flProbe s = .next s)

/-- FL_SEL latches the record with that sequence number into FL_REC0 to FL_REC7; one that the log does not hold reads as zeros (R482). A
failed read of an input buffer completes its command HOST_DMA_ERR, as a strand or while it waits, with DMA_ERR set (R108). A refused write
stops its queue: ERROR and QP_ERR are set, its strands end, its waiting commands go, no completion is posted (R108). The model's reading:
log 34. -/
def Obligations.LogAndHostErrors : Prop :=
  (∀ (v : Word) (s : State), s.dev.up = true →
    ∃ e, exec (.flSelWrite v) s = .next { s with dev := e } ∧ e = { s.dev with regs := e.regs, fault := { s.dev.fault with seen := e.fault.seen } } ∧
      e.rg (pf 7 0x10C) = v.toNat ∧
      (∀ r, s.dev.fault.log.find? (·.seq == v.toNat) = some r → v.toNat ∈ e.fault.seen ∧
        ∀ i, i < 8 → e.rg (pf 7 (0x110 + 4 * i)) = (r.words.getD i 0) % 2 ^ 32) ∧
      ((∀ r ∈ s.dev.fault.log, r.seq ≠ v.toNat) → e.fault.seen = s.dev.fault.seen ∧ ∀ i, i < 8 → e.rg (pf 7 (0x110 + 4 * i)) = 0) ∧
      (∀ k, k ≠ pf 7 0x10C → (∀ i, i < 8 → k ≠ pf 7 (0x110 + 4 * i)) → e.rg k = s.dev.rg k)) ∧
  (∀ (q : QRef) (cid id : Nat) (x : Strand) (s : State), s.dev.up = true → nget s.dev.strands id = some x → x.state ≠ 3 → x.part = none →
    x.cmd.q = q → x.cmd.cid = cid →
    (∀ y ∈ s.dev.strands, y.2.state ≠ 3 → y.2.part = none → y.2.cmd.q = q → y.2.cmd.cid = cid → y = (id, x)) → (id, x) ∈ s.dev.strands →
    ∃ e, exec (.hostDmaReadError q cid) s = .next { s with dev := e } ∧ Works s.dev e ∧ nget e.strands id = some x.ended ∧
      (∀ j, j ≠ id → nget e.strands j = nget s.dev.strands j) ∧ bit (e.rg (queueStat q)) 3 = true ∧
      (∃ slot sqHead phase, Sends (.cqe q slot ((⟨cid, 0, 0, 0x15, 0, id, x.work.released, x.admitRow, x.drops,
        s.dev.row.number - x.admitRow, 0, x.counter⟩ : Cqe).words sqHead phase)) s.dev e) ∧
      (q.tenant ≠ 0 → e.rg (regKey q.tenant 0x044) = (s.dev.rg (regKey q.tenant 0x044) + 1) % 2 ^ 32 ∧
        (s.dev.on (tenantPage q.tenant) = true → bit (e.rg (regKey q.tenant 0x10C)) 1 = true)) ∧
      RegsBut ([queueStat q, regKey q.tenant 0x044] ++ eventRegs q.tenant ++ doneRegs q) s.dev e) ∧
  (∀ (q : QRef) (cid : Nat) (c : Cmd) (s : State), s.dev.up = true → (∀ y ∈ s.dev.strands, y.2.cmd.q = q → y.2.cmd.cid ≠ cid) →
    (s.dev.qp q).waiting.find? (·.cid == cid) = some c → c.q = q →
    ∃ e, exec (.hostDmaReadError q cid) s = .next { s with dev := e } ∧ Posts s.dev e ∧ (e.qp q).waiting = (s.dev.qp q).waiting.erase c ∧
      Completed c 0x15 0 0 0 s.dev e ∧ bit (e.rg (queueStat q)) 3 = true) ∧
  (∀ (q : QRef) (s : State), s.dev.up = true → s.dev.queueOn q = true →
    ∃ e, exec (.hostWriteRefused q) s = .next { s with dev := e } ∧ Works s.dev e ∧ bit (e.rg (queueStat q)) 0 = true ∧ (e.qp q).waiting = [] ∧
      (q.tenant ≠ 0 → s.dev.on (tenantPage q.tenant) = true → bit (e.rg (regKey q.tenant 0x10C)) 0 = true) ∧
      (∀ id x, nget s.dev.strands id = some x → x.cmd.q = q → x.part = none → x.state ≠ 3 → nget e.strands id = some x.ended) ∧
      (∀ id, (∀ x, (id, x) ∈ s.dev.strands → x.cmd.q ≠ q) → nget e.strands id = nget s.dev.strands id) ∧
      (∃ l, e.sent = s.dev.sent ++ l ∧ ∀ o ∈ l, ∀ r slot ws, o ≠ .cqe r slot ws)) ∧
  (∀ (q : QRef) (cid : Nat) (s : State), s.dev.up = false → exec (.hostDmaReadError q cid) s = .next s ∧ exec (.hostWriteRefused q) s = .next s)

/-! Resets -/

/-- VF_FLR and VF_BME_CLEAR are TENANT resets: the function's strands end without completions, its queues and pages start afresh, its
registers of no class that survives return to reset, and the other functions, every object and every other strand stay (R11, R12, R87, R88,
R140, R485). PF_FLR and PERST_N asserted are COLD resets: the row stops, everything in flight ends without a completion, nothing of the
configuration is in force, the configuration itself, the fault log and the counters stay, and the cause is kept (R89, R484, R486, R537). A
wider reset that waits or runs absorbs them (R485; that a POR not yet started does is the model's reading). PERST_N deasserted lets a start
begin and samples the straps for it; a strap that changes later is counted (R539, R542). The model's reading: log 31 and 55. -/
def Obligations.ResetsTaken : Prop :=
  (∀ (t : Nat) (s : State), s.dev.up = true → 1 ≤ t → t ≤ 16 → s.dev.absorbs = false →
    ∃ e, exec (.vfFlr t) s = .next { s with dev := e } ∧ exec (.vfBmeClear t) s = .next { s with dev := e } ∧ e.objs = s.dev.objs ∧ e.row = s.dev.row ∧ e.act = s.dev.act ∧ e.markers = s.dev.markers ∧
      (∀ id x, nget s.dev.strands id = some x → x.cmd.q.tenant = t → x.part = none → x.state ≠ 3 → nget e.strands id = some x.ended) ∧
      (∀ id, (∀ x, (id, x) ∈ s.dev.strands → x.cmd.q.tenant ≠ t) → nget e.strands id = nget s.dev.strands id) ∧
      (∀ q, queueKey q / 64 = t → e.qp q = Qp.fresh) ∧ (∀ p, p / 4096 = t → e.page p = pageReset p) ∧ (∀ p, p / 4096 ≠ t → e.page p = s.dev.page p) ∧
      (∀ k, keyFn k = t → e.rg k = if keepsReg .tenant k then s.dev.rg k else resetOf k) ∧
      (∀ k, keyFn k ≠ t → k ∉ [pf 6 0x064, pf (tenantPage t) 0x050] → e.rg k = s.dev.rg k) ∧
      (∃ l, e.sent = s.dev.sent ++ l ∧ ∀ o ∈ l, ∀ r slot ws, o ≠ .cqe r slot ws)) ∧
  (∀ (t : Nat) (s : State), s.dev.up = false ∨ t = 0 ∨ 16 < t ∨ s.dev.absorbs = true →
    exec (.vfFlr t) s = .next s ∧ exec (.vfBmeClear t) s = .next s) ∧
  (∀ (cause : Nat) (s : State), s.dev.power.stage = 2 → s.dev.power.sag = false →
    s.dev.power.starting = false ∨ s.dev.power.por = false →
    cause = 1 ∨ (cause = 2 ∧ s.dev.power.perst = false) →
    ∃ e, (cause = 1 → exec .perstAssert s = .next { s with dev := e }) ∧ (cause = 2 → exec .pfFlr s = .next { s with dev := e }) ∧ e.power.starting = true ∧ e.power.por = false ∧ e.power.stage = 2 ∧
      e.power.perst = (s.dev.power.perst || cause == 1) ∧ e.row.running = false ∧ e.strands = [] ∧ e.qps = [] ∧ e.pages = [] ∧ e.pub = none ∧
      e.jobs = [] ∧ e.act = [] ∧ e.cas = Cascade.reset ∧ e.fault.log = s.dev.fault.log ∧ e.fault.retired = s.dev.fault.retired ∧
      e.rg (pf 8 0x124) = 2 * 2 ^ 28 + cause ∧ e.rg (pf 8 0x060) = (s.dev.rg (pf 8 0x060) + 1) % 2 ^ 32 ∧
      (∀ k, isConfig k = true → typeOf (keyPage k) ≠ 0x14 → e.rg k = if keepsReg .cold k then s.dev.rg k else resetOf k) ∧
      (cause = 2 → e.mgmt.slotId = s.dev.mgmt.pinSlot ∧ e.mgmt.masterLow = s.dev.mgmt.pinMaster) ∧
      (∃ l, e.sent = s.dev.sent ++ l ∧ ∀ o ∈ l, ∀ r slot ws, o ≠ .cqe r slot ws)) ∧
  (∀ s : State, s.dev.power.perst = true ∨ (s.dev.power.starting = true ∧ s.dev.power.por = true) ∨ s.dev.power.stage ≠ 2 ∨ s.dev.power.sag = true →
    exec .pfFlr s = .next s) ∧
  (∀ s : State, s.dev.power.stage = 2 → s.dev.power.sag = false → s.dev.power.starting = true → s.dev.power.por = true →
    exec .perstAssert s = .next { s with dev := { s.dev with power := { s.dev.power with perst := true } } }) ∧
  (∀ s : State, s.dev.power.stage = 2 → s.dev.power.sag = false → s.dev.power.pwrgd = true →
    ∃ e, exec .perstDeassert s = .next { s with dev := e } ∧
      e = { s.dev with power := { s.dev.power with perst := false },
                       mgmt := { s.dev.mgmt with slotId := e.mgmt.slotId, masterLow := e.mgmt.masterLow } } ∧
      (s.dev.power.starting = true → e.mgmt.slotId = s.dev.mgmt.pinSlot ∧ e.mgmt.masterLow = s.dev.mgmt.pinMaster) ∧
      (s.dev.power.starting = false → e.mgmt = s.dev.mgmt)) ∧
  (∀ (slotId : Nat) (low : Bool) (s : State), ∃ e, exec (.strapChange slotId low) s = .next { s with dev := e } ∧
    e = { s.dev with regs := e.regs, mgmt := { s.dev.mgmt with pinSlot := slotId % 16, pinMaster := low } } ∧
    (s.dev.power.stage ≠ 0 → (s.dev.mgmt.pinSlot ≠ slotId % 16 ∨ s.dev.mgmt.pinMaster ≠ low) →
      e.rg (pf 0xA 0x050) = (s.dev.rg (pf 0xA 0x050) + 1) % 2 ^ 32) ∧
    (s.dev.power.stage = 0 ∨ (s.dev.mgmt.pinSlot = slotId % 16 ∧ s.dev.mgmt.pinMaster = low) → e.regs = s.dev.regs) ∧
    RegsBut [pf 0xA 0x050] s.dev e)

/-! Power -/

/-- Turn-on through a connected feed brings the main rails up with PERST_N low and a POR waiting, or the standby rails alone when a loader
fails verification (R540, R542, R543). A start that waits begins once PERST_N is high: units of the fault record are fenced and those that
fail self-test are quiesced spares; the row runs from row 0 and firmware's publish is due two rows on, or the row timer's page is refused
(R62, R71, R476, R488, R489). A POR that finds a save restores its epochs, its fault log and its lost strands (R502). Admission runs once
the upper tiers are rebuilt and the bank stands at 54 V (R489, R499). The model's reading: log 32 and 37. -/
def Obligations.PowerUp : Prop :=
  (∀ (feedB ok : Bool) (s : State), s.dev.power.stage = 0 → s.dev.power.l3 = false → s.dev.power.connected.getD (b2n feedB) false = true →
    ∃ e, exec (.powerTurnOn feedB ok) s = .next { s with dev := e } ∧ e = { s.dev with power := e.power } ∧
      e.power.stage = (if ok then 2 else 1) ∧ e.power.connected = s.dev.power.connected ∧ e.power.lost = s.dev.power.lost ∧ e.power.dark = false ∧
      (ok = true → e.power.pwrgd = true ∧ e.power.perst = true ∧ e.power.starting = true ∧ e.power.por = true) ∧
      (ok = false → e.power.pwrgd = s.dev.power.pwrgd)) ∧
  (∀ (feedB ok : Bool) (s : State),
    s.dev.power.stage ≠ 0 ∨ s.dev.power.l3 = true ∨ s.dev.power.connected.getD (b2n feedB) false = false → exec (.powerTurnOn feedB ok) s = .next s) ∧
  (∀ (failed : List Nat) (s : State), s.dev.power.starting = true → s.dev.power.perst = false → s.dev.power.stage = 2 → s.dev.power.pwrgd = true →
    ∃ e, exec (.powerOnReset failed) s = .next { s with dev := e } ∧ e.power.starting = false ∧ e.power.por = false ∧ e.power.stage = 2 ∧
      (∀ u p, u < 5 → p ∈ unitSlots u → p ∈ s.perm.fenced → (e.page p).fenced = true ∧ (e.page p).active = 0xFFF) ∧
      (∀ u p, u < 5 → p ∈ unitSlots u → p ∉ s.perm.fenced → p ∈ failed →
        (e.page p).quiesced = true ∧ (e.page p).spare = true ∧ (e.page p).active = 0xFFF) ∧
      (∀ u p, u < 5 → p ∈ unitSlots u → p ∉ s.perm.fenced → p ∉ failed → (e.page p).quiesced = false ∧ (e.page p).fenced = false ∧
        ((e.page p).spare = true ↔ (e.page p).active = 0xFFF)) ∧
      ((e.row.number = 0 ∧ ∃ p, e.pub = some p ∧ p.src = .firmware ∧ p.due = 2) ∨
        ((e.page 1).refused = true ∧ bit (e.rg (pf 1 8)) 0 = false)) ∧
      (s.dev.power.por = true → s.perm.newest = none → e.row.running = true ∧ e.row.number = 0) ∧
      (∀ v, s.dev.power.por = true → s.perm.newest = some v → e.power.lost = v.strands ∧ e.fault.log = v.log ∧
        ∀ h x, nget v.directory h = some x → (e.obj h).cur = some { x with damaged := (nget v.damaged h).getD [] })) ∧
  (∀ (failed : List Nat) (s : State),
    s.dev.power.starting = false ∨ s.dev.power.perst = true ∨ s.dev.power.stage ≠ 2 ∨ s.dev.power.pwrgd = false →
    exec (.powerOnReset failed) s = .next s) ∧
  (∀ s : State, s.dev.row.running = true → s.dev.power.starting = false →
    ∃ e, exec .rebuildDone s = .next { s with dev := e } ∧ e = { s.dev with pages := e.pages, power := { s.dev.power with rebuilt := true } } ∧
      (∀ j, j ≠ 6 → e.page j = s.dev.page j) ∧
      (s.dev.power.bankReady = true → s.dev.enAct 6 = true → s.dev.power.warm = false → e.on 6 = true)) ∧
  (∀ s : State, s.dev.row.running = false ∨ s.dev.power.starting = true → exec .rebuildDone s = .next s) ∧
  (∀ s : State, s.dev.power.stage ≠ 0 → s.dev.power.sag = false →
    ∃ e, exec .bankCharged s = .next { s with dev := e } ∧
      e = { s.dev with regs := e.regs, pages := e.pages, power := { s.dev.power with bankReady := true } } ∧ e.rg (pf 8 0x114) = 5400 ∧
      (∀ j, j ≠ 6 → e.page j = s.dev.page j) ∧
      (s.dev.row.running = true → s.dev.power.rebuilt = true → s.dev.enAct 6 = true → s.dev.power.warm = false → e.on 6 = true) ∧
      RegsBut [pf 8 0x114] s.dev e) ∧
  (∀ s : State, s.dev.power.stage = 0 ∨ s.dev.power.sag = true → exec .bankCharged s = .next s)

/-- Feeds and the bank: a sample counts each feed's microseconds below 42 V, and both feeds' together, a dip of both below 20 µs as a glitch
(R494, R505); one feed alone low for 20 µs is reported once (R494); an overvoltage disconnects a feed until it is connected again (R541); a
transfer changes nothing (R541). A health check runs on a command or when due and ends with the measured capacitance, an alarm below the
limit raises ENVIRONMENT and SPARE_LOW (R500, R501). DROP_LOST forgets the lost strands (R504). The model's reading: log 37. -/
def Obligations.FeedsAndBank : Prop :=
  (∀ (av bv aa ba : Nat) (s : State), s.dev.power.stage ≠ 0 →
    ∃ e, exec (.feedSample av bv aa ba) s = .next { s with dev := e } ∧ e = { s.dev with regs := e.regs, power := e.power } ∧
      e.power = { s.dev.power with
        feedOk := [decide (42000 ≤ av), decide (42000 ≤ bv)]
        lowUs := [if av < 42000 then s.dev.power.lowUs.getD 0 0 + 1 else 0, if bv < 42000 then s.dev.power.lowUs.getD 1 0 + 1 else 0]
        bothLowUs := if av < 42000 ∧ bv < 42000 then s.dev.power.bothLowUs + 1 else 0
        dark := e.power.dark } ∧
      e.rg (pf 8 0x044) = (s.dev.rg (pf 8 0x044) +
        (if 42000 ≤ max av bv ∧ 0 < s.dev.power.bothLowUs ∧ s.dev.power.bothLowUs < 20 then 1 else 0)) % 2 ^ 32 ∧
      (s.dev.managerStopped = false → bits (e.rg (pf 8 0x108)) 15 0 = min 65535 (av / 10) ∧ bits (e.rg (pf 8 0x10C)) 15 0 = min 65535 (bv / 10)) ∧
      RegsBut [pf 8 0x044, pf 8 0x108, pf 8 0x10C, pf 8 0x110] s.dev e) ∧
  (∀ (av bv aa ba : Nat) (s : State), s.dev.power.stage = 0 → exec (.feedSample av bv aa ba) s = .next s) ∧
  (∀ (feedB : Bool) (i : Nat) (s : State), i = b2n feedB → s.dev.power.stage ≠ 0 → s.dev.power.lowUs.length = 2 →
    20 ≤ s.dev.power.lowUs.getD i 0 → s.dev.power.lowUs.getD i 0 < 2 ^ 32 → s.dev.power.lowUs.getD (1 - i) 0 = 0 →
    ∃ e, exec (.feedLow feedB) s = .next { s with dev := e } ∧ Sig { s.dev with power := e.power } e ∧
      e.power = { s.dev.power with lowUs := s.dev.power.lowUs.set i (2 ^ 32) } ∧ bit (e.rg (pf 8 0x020)) 6 = true ∧
      e.rg (pf 8 (if feedB then 0x04C else 0x048)) = (s.dev.rg (pf 8 (if feedB then 0x04C else 0x048)) + 1) % 2 ^ 32 ∧
      RegsBut ([pf 8 0x048, pf 8 0x04C] ++ errorRegs 8 ++ logRegs) s.dev e) ∧
  (∀ (feedB : Bool) (i : Nat) (s : State), i = b2n feedB →
    s.dev.power.stage = 0 ∨ s.dev.power.lowUs.getD i 0 < 20 ∨ 2 ^ 32 ≤ s.dev.power.lowUs.getD i 0 ∨ s.dev.power.lowUs.getD (1 - i) 0 ≠ 0 →
    exec (.feedLow feedB) s = .next s) ∧
  (∀ (feedB : Bool) (s : State), ∃ e, exec (.feedOvervoltage feedB) s = .next { s with dev := e } ∧ Sig { s.dev with power := e.power } e ∧
    e.power = { s.dev.power with connected := s.dev.power.connected.set (b2n feedB) false } ∧
    (s.dev.power.stage ≠ 0 → bit (e.rg (pf 8 0x020)) 6 = true ∧ RegsBut (errorRegs 8 ++ logRegs) s.dev e) ∧
    (s.dev.power.stage = 0 → e.regs = s.dev.regs)) ∧
  (∀ (feedB : Bool) (s : State), exec (.feedReconnect feedB) s =
    .next { s with dev := { s.dev with power := { s.dev.power with connected := s.dev.power.connected.set (b2n feedB) true } } }) ∧
  (∀ s : State, exec .feedTransfer s = .next s) ∧
  (∀ s : State, s.dev.up = true →
    exec .bankCheck s = .next { s with dev := { s.dev with power := { s.dev.power with measuring := true } } }) ∧
  (∀ s : State, s.dev.power.stage ≠ 0 → s.dev.power.sag = false →
    exec .bankCheckDue s = .next { s with dev := { s.dev with power := { s.dev.power with measuring := true } } }) ∧
  (∀ (uF : Nat) (s : State), s.dev.power.measuring = true → s.dev.managerStopped = false →
    ∃ e, exec (.bankCheckDone uF) s = .next { s with dev := e } ∧ Sig { s.dev with power := e.power } e ∧
      e.power = { s.dev.power with measuring := false, bankAt := s.dev.row.timeNs } ∧ e.rg (pf 8 0x118) = uF % 65536 ∧ e.rg (pf 8 0x114) = 5600 ∧
      e.rg (pf 8 0x064) = (s.dev.rg (pf 8 0x064) + 1) % 2 ^ 32 ∧
      (uF % 65536 ≠ 0 → uF % 65536 < bits (s.dev.inForce (pf 8 0x11C)) 15 0 → bit (e.rg (pf 8 0x020)) 6 = true ∧ bit (e.rg (pf 8 0x020)) 11 = true) ∧
      (uF % 65536 = 0 ∨ bits (s.dev.inForce (pf 8 0x11C)) 15 0 ≤ uF % 65536 → RegsBut [pf 8 0x118, pf 8 0x114, pf 8 0x064] s.dev e) ∧
      RegsBut ([pf 8 0x118, pf 8 0x114, pf 8 0x064] ++ errorRegs 8 ++ logRegs) s.dev e) ∧
  (∀ (uF : Nat) (s : State), s.dev.power.measuring = false ∨ s.dev.managerStopped = true → exec (.bankCheckDone uF) s = .next s) ∧
  (∀ s : State, s.dev.up = true → exec .dropLost s = .next { s with dev := { s.dev with power := { s.dev.power with lost := [] } } })

/-- A sag of both feeds for 20 µs halts the row at once and starts the save (R494, R495); before admission has started, power goes without a
save (R495). SAVE_DONE writes the cellar slot that does not hold the newest valid save: the live strands, the current epochs, class K
registers, the log and the row (R496, R497, R502), and the module is off, or waits for POR when the feeds have returned (R495, R498). Both
feeds below 20 V take every rail off, but a save in progress completes (R543). The model's reading: log 37. -/
def Obligations.SagAndSave : Prop :=
  (∀ s : State, s.dev.power.stage = 2 → s.dev.power.sag = false → 20 ≤ s.dev.power.bothLowUs → s.dev.inStart = false →
    ∃ e, exec .sagDeclare s = .next { s with dev := e, perm := s.perm.record s.dev } ∧ Sig { s.dev with row := e.row, power := e.power } e ∧
      e.row = { s.dev.row with running := false, slots := [] } ∧ e.power.sag = true ∧ e.power.saving = true ∧ e.power.trip = false ∧
      e.power.pwrgd = false ∧ e.up = false ∧ RegsBut alertRegs s.dev e) ∧
  (∀ s : State, s.dev.power.stage = 2 → s.dev.power.sag = false → 20 ≤ s.dev.power.bothLowUs → s.dev.inStart = true →
    ∃ e, exec .sagDeclare s = .next { s with dev := e, perm := s.perm.record s.dev } ∧ e.power.stage = 0 ∧ e.strands = [] ∧ e.row.running = false ∧
      e.regs = [] ∧ e.sent = s.dev.sent) ∧
  (∀ s : State, s.dev.power.stage ≠ 2 ∨ s.dev.power.sag = true ∨ s.dev.power.bothLowUs < 20 →
    exec .sagDeclare s = .next { s with perm := s.perm.record s.dev }) ∧
  (∀ (ok : Bool) (tenUs mJ : Nat) (s : State), s.dev.power.sag = true → s.dev.power.saving = true →
    ∃ t v, exec (.saveDone ok tenUs mJ) s = .next t ∧ t.pending = s.pending ∧ t.perm.saves.getLast? = some v ∧ v.valid = ok ∧ v.consumed = false ∧
      (∀ x ∈ s.perm.saves, x.number < v.number) ∧ (∀ x ∈ s.perm.saves, x.valid = true → (∀ y ∈ s.perm.saves, y.valid = true → y.number ≤ x.number) → x ∈ t.perm.saves) ∧
      (∀ id x, (id, x) ∈ s.dev.strands → x.state ≠ 3 → x.part = none → lostOf id x ∈ v.strands) ∧
      (∀ h o x, (h, o) ∈ s.dev.objs → o.cur = some x → (h, x) ∈ v.directory ∧ (x.damaged ≠ [] → (h, x.damaged) ∈ v.damaged)) ∧
      (∀ k, survOf k = .k → isMsix k = false → k ≠ pf 8 0x118 → k ≠ pf 0xA 0x114 → nget v.regs k = nget s.dev.regs k) ∧
      v.log = s.dev.fault.log ∧ v.rowNumber = s.dev.row.number ∧ t.perm.seeds = s.perm.seeds ∧ t.perm.roles = s.perm.roles ∧
      t.dev.regs = [] ∧ t.dev.strands = [] ∧ t.dev.row.running = false ∧
      (s.dev.power.returned = false → t.dev.power.stage = 0) ∧
      (s.dev.power.returned = true → t.dev.power.stage = 2 ∧ t.dev.power.perst = true ∧ t.dev.power.starting = true ∧ t.dev.power.por = true)) ∧
  (∀ (ok : Bool) (tenUs mJ : Nat) (s : State), s.dev.power.sag = false ∨ s.dev.power.saving = false → exec (.saveDone ok tenUs mJ) s = .next s) ∧
  (∀ s : State, s.dev.power.sag = true → s.dev.power.saving = true → exec .feedsReturn s =
    .next { s with dev := { s.dev with power := { s.dev.power with returned := true, dark := false, feedOk := [true, true] } } }) ∧
  (∀ s : State, s.dev.power.sag = false ∨ s.dev.power.saving = false → exec .feedsReturn s = .next s) ∧
  (∀ s : State, s.dev.power.sag = true → s.dev.power.saving = true → exec .feedsOff s = .next { s with
    dev := { s.dev with power := { s.dev.power with feedOk := [false, false], dark := true, returned := false } }, perm := s.perm.record s.dev }) ∧
  (∀ s : State, s.dev.power.sag = false ∨ s.dev.power.saving = false →
    ∃ e, exec .feedsOff s = .next { s with dev := e, perm := s.perm.record s.dev } ∧ e.power.stage = 0 ∧ e.regs = [] ∧ e.strands = [] ∧
      e.row.running = false ∧ e.sent = s.dev.sent)

/-- L2: STANDBY is taken note of, but refused in a cascade (R492); the row stops once no strand is left in flight (R492); STANDBY cleared in
L2 restarts the row with the next number (R493). Temperatures: a warning is set once, raises ENVIRONMENT and is counted, and clears 5 °C
below its threshold; a trip is recorded and halts the module as a sag does (R544, R552). The model's reading: log 38. -/
def Obligations.StandbyAndTemperatures : Prop :=
  (∀ s : State, s.dev.up = true → s.dev.cas.state = 0 ∨ s.dev.cas.state = 3 → s.dev.power.standby = false →
    exec .standbySet s = .next { s with dev := { s.dev with power := { s.dev.power with standby := true, standbyRow := s.dev.row.number } } }) ∧
  (∀ s : State, s.dev.up = true → s.dev.cas.state = 1 ∨ s.dev.cas.state = 2 →
    ∃ e, exec .standbySet s = .next { s with dev := e } ∧ e = { s.dev with regs := e.regs } ∧ e.rg (pf 8 0x100) = 2 ^ 26 ∧
      RegsBut [pf 8 0x100] s.dev e) ∧
  (∀ (n : Dev) (s : State), s.dev.power.standby = true → s.dev.power.l2 = false → s.dev.row.running = true → (∀ x ∈ s.dev.strands, x.2.state = 3) →
    n = s.dev.endSlots.enterAll.countRow.settle.releaseStrands →
    ∃ e, exec .l2Enter s = .next { s with dev := e } ∧
      e = { n with regs := e.regs, row := { n.row with running := false, slots := [] }, power := { n.power with l2 := true }, snapStrands := [] } ∧
      e.rg (pf 8 0x068) = (n.rg (pf 8 0x068) + 1) % 2 ^ 32 ∧ RegsBut [pf 8 0x068] n e) ∧
  (∀ s : State, s.dev.power.standby = false ∨ s.dev.power.l2 = true ∨ s.dev.row.running = false ∨ (∃ x ∈ s.dev.strands, x.2.state ≠ 3) →
    exec .l2Enter s = .next s) ∧
  (∀ s : State, s.dev.up = true → s.dev.power.l2 = false →
    exec .standbyClear s = .next { s with dev := { s.dev with power := { s.dev.power with standby := false } } }) ∧
  (∀ s : State, s.dev.up = true → s.dev.power.l2 = true →
    ∃ t, exec .standbyClear s = .next t ∧ t.pending = s.pending ∧ t.dev.power.l2 = false ∧ t.dev.power.standby = false ∧
      t.dev.row.number = s.dev.row.number + 1) ∧
  (∀ (sensor v : Nat) (s : State), s.dev.power.stage ≠ 0 → sensor < 16 → warnAt sensor ≤ v → sensor ∉ s.dev.mgmt.warm →
    ∃ e, exec (.thermalWarning sensor v) s = .next { s with dev := e } ∧
      Sig { s.dev with mgmt := { s.dev.mgmt with warm := s.dev.mgmt.warm ++ [sensor] } } e ∧ bit (e.rg (pf 0xA 0x114)) 0 = true ∧
      bit (e.rg (pf (sensorPage sensor) 0x020)) 6 = true ∧ e.rg (pf 0xA 0x04C) = (s.dev.rg (pf 0xA 0x04C) + 1) % 2 ^ 32) ∧
  (∀ (sensor v : Nat) (s : State), s.dev.power.stage ≠ 0 → sensor < 16 → v + 40 ≤ warnAt sensor →
    ∃ e, exec (.thermalWarningClear sensor v) s = .next { s with dev := e } ∧
      Sig { s.dev with mgmt := { s.dev.mgmt with warm := e.mgmt.warm } } e ∧ (∀ x, x ∈ e.mgmt.warm ↔ x ∈ s.dev.mgmt.warm ∧ x ≠ sensor) ∧
      (bit (e.rg (pf 0xA 0x114)) 0 = true ↔ e.mgmt.warm ≠ [])) ∧
  (∀ (sensor v limit : Nat) (s : State), s.dev.power.stage = 2 → s.dev.power.sag = false → sensor < 16 → tripAt sensor = some limit → limit ≤ v →
    (s.dev.inStart = false →
      ∃ e, exec (.thermalTrip sensor v) s = .next { s with dev := e, perm := s.perm.record s.dev } ∧ Sig { s.dev with row := e.row, power := e.power } e ∧
        e.row = { s.dev.row with running := false, slots := [] } ∧ e.power.sag = true ∧ e.power.trip = true ∧ e.power.saving = true ∧
        bit (e.rg (pf 0xA 0x114)) 8 = true ∧ e.rg64 (pf 0xA 0x120) = s.dev.row.number % 2 ^ 64) ∧
    (s.dev.inStart = true →
      ∃ e, exec (.thermalTrip sensor v) s = .next { s with dev := e, perm := s.perm.record s.dev } ∧ e.power.stage = 0 ∧ e.regs = [])) ∧
  (∀ (sensor v : Nat) (s : State), s.dev.power.stage = 0 ∨ 16 ≤ sensor →
    exec (.thermalWarning sensor v) s = .next s ∧ exec (.thermalWarningClear sensor v) s = .next s ∧
    exec (.thermalTrip sensor v) s = .next { s with perm := s.perm.record s.dev })

/-! Management -/

/-- From the standby rails up and outside a sag the management block answers each request once (R542, R553, R554). SPDM requests are answered
and counted; before NEGOTIATE_ALGORITHMS those that need it are answered with an error, as are an empty certificate slot, an unknown block and
a request outside a session (R554, R555, R558; message codes: log 44); a session opens with FINISH when the requester's data verify and closes
with END_SESSION. While the security part is rewritten every one gets ResponseNotReady (R507, R554). SEC_LOCK bits are set and never cleared
(R556). An endpoint ID, an I3C address and a trained PCIe link show in their registers (R83, R553, R557); another device's pull shows in
MG_ALERT (R544). -/
def Obligations.ManagementAnswers : Prop :=
  (∀ (code slot offset length index : Nat) (x : List Byte) (m : Mgmt) (s : State), s.dev.managed = true → m = s.dev.mgmt →
    (s.dev.securityStopped = false →
      (∃ e, exec .getVersion s = .next { s with dev := e } ∧
        Answered 0x04 { m with negotiated := false, handshake := false, session := false } s.dev e) ∧
      (∃ e, exec .getCapabilities s = .next { s with dev := e } ∧ Answered 0x61 m s.dev e) ∧
      (∃ e, exec .negotiateAlgorithms s = .next { s with dev := e } ∧ Answered 0x63 { m with negotiated := true } s.dev e) ∧
      (∃ e, exec (.spdmUnsupported code) s = .next { s with dev := e } ∧ Declined 7 [code] m s.dev e)) ∧
    (s.dev.securityStopped = false → m.negotiated = true →
      (∃ e, exec .getDigests s = .next { s with dev := e } ∧ Answered 0x01 m s.dev e) ∧
      (∃ e, exec (.getCertificate 0 offset length) s = .next { s with dev := e } ∧ Answered 0x02 m s.dev e) ∧
      (∃ e, exec (.challenge 0 x) s = .next { s with dev := e } ∧ Answered 0x03 m s.dev e) ∧
      (index ≤ 11 ∨ index = 0xFF → ∃ e, exec (.getMeasurements index x) s = .next { s with dev := e } ∧ Answered 0x60 m s.dev e) ∧
      (∃ e, exec (.keyExchange 0 x) s = .next { s with dev := e } ∧ Answered 0x64 { m with handshake := true } s.dev e) ∧
      (m.handshake = true → ∃ e, exec (.finish x) s = .next { s with dev := e } ∧
        if Config.verifies x then Answered 0x65 { m with handshake := false, session := true } s.dev e
        else Declined 6 [] { m with handshake := false } s.dev e) ∧
      (m.handshake = false → ∃ e, exec (.finish x) s = .next { s with dev := e } ∧ Declined 4 [] m s.dev e) ∧
      (slot ≠ 0 → ∀ c ∈ [Instr.getCertificate slot offset length, .challenge slot x, .keyExchange slot x],
        ∃ e, exec c s = .next { s with dev := e } ∧ Declined 1 [] m s.dev e) ∧
      (11 < index → index ≠ 0xFF → ∃ e, exec (.getMeasurements index x) s = .next { s with dev := e } ∧ Declined 1 [] m s.dev e)) ∧
    (s.dev.securityStopped = false → m.session = true →
      (∃ e, exec .heartbeat s = .next { s with dev := e } ∧ Answered 0x68 m s.dev e) ∧
      (∃ e, exec .endSession s = .next { s with dev := e } ∧ Answered 0x6C { m with session := false } s.dev e)) ∧
    (s.dev.securityStopped = false → m.session = false → ∀ c ∈ [Instr.heartbeat, .endSession],
      ∃ e, exec c s = .next { s with dev := e } ∧ Declined 4 [] m s.dev e) ∧
    (s.dev.securityStopped = false → m.negotiated = false →
      ∀ c ∈ [Instr.getDigests, .getCertificate slot offset length, .challenge slot x, .getMeasurements index x, .keyExchange slot x, .finish x],
        ∃ e, exec c s = .next { s with dev := e } ∧ Declined 4 [] m s.dev e) ∧
    (s.dev.securityStopped = true → ∀ c ∈ [Instr.getVersion, .getCapabilities, .negotiateAlgorithms, .getDigests, .getCertificate slot offset length,
        .challenge slot x, .getMeasurements index x, .keyExchange slot x, .finish x, .heartbeat, .endSession, .spdmUnsupported code],
      ∃ e, exec c s = .next { s with dev := e } ∧ Declined 0x42 [] m s.dev e)) ∧
  (∀ (v : Word) (s : State), s.dev.up = true →
    ∃ e, exec (.secLockWrite v) s = .next { s with dev := e } ∧ e = { s.dev with regs := e.regs } ∧
      (∀ i, i < 6 → bit (e.rg (pf 9 0x104)) i = (bit (s.dev.rg (pf 9 0x104)) i || bit v.toNat i)) ∧
      (e.rg (pf 9 0x104) ≠ s.dev.rg (pf 9 0x104) → e.rg (pf 9 0x04C) = (s.dev.rg (pf 9 0x04C) + 1) % 2 ^ 32) ∧
      RegsBut [pf 9 0x104, pf 9 0x04C] s.dev e) ∧
  (∀ (i3c : Bool) (eid : Nat) (s : State), s.dev.managed = true → i3c = true ∨ s.dev.up = true →
    ∃ e, exec (.setEndpointId i3c eid) s = .next { s with dev := e } ∧
      e = { s.dev with regs := e.regs, sent := s.dev.sent ++ [.mctp 0 1 [eid % 256]] } ∧
      (if i3c then bits (e.rg (pf 0xA 0x104)) 7 0 else bits (e.rg (pf 0xA 0x104)) 15 8) = eid % 256 ∧
      RegsBut [pf 0xA 0x040, pf 0xA 0x044, pf 0xA 0x104] s.dev e) ∧
  (∀ (code sensor : Nat) (s : State), s.dev.managed = true →
    (∃ e, exec (.pldmBaseRequest code) s = .next { s with dev := e } ∧ PldmAnswered 0 s.dev e) ∧
    (∃ e, exec (.pldmPlatformRequest sensor) s = .next { s with dev := e } ∧ PldmAnswered 2 s.dev e) ∧
    (∃ e, exec .pldmFruRequest s = .next { s with dev := e } ∧ PldmAnswered 4 s.dev e)) ∧
  (∀ (addr : Nat) (s : State), s.dev.managed = true →
    ∃ e, exec (.i3cDynamicAddress addr) s = .next { s with dev := e } ∧ e = { s.dev with regs := e.regs } ∧
      bits (e.rg (pf 0xA 0x104)) 22 16 = addr % 128 ∧ RegsBut [pf 0xA 0x104] s.dev e) ∧
  (∀ (low : Bool) (s : State), s.dev.managed = true →
    ∃ e, exec (.alertNLineChange low) s = .next { s with dev := e } ∧
      e = { s.dev with regs := e.regs, sent := e.sent, mgmt := { s.dev.mgmt with lineLow := low } } ∧
      (low = true → bit (e.rg (pf 0xA 0x11C)) 8 = true) ∧ RegsBut alertRegs s.dev e) ∧
  (∀ (rate width corr nonFatal fatal replays poisoned : Nat) (flit : Bool) (s : State), s.dev.up = true →
    ∃ e, exec (.pcieLinkRetrain rate width flit corr nonFatal fatal replays poisoned) s = .next { s with dev := e } ∧ e = { s.dev with regs := e.regs } ∧
      (width ≠ 0 → bits (e.rg (pf 0xC 0x100)) 3 0 = rate % 16 ∧ bits (e.rg (pf 0xC 0x100)) 9 4 = width % 64 ∧ bit (e.rg (pf 0xC 0x100)) 12 = flit) ∧
      (width = 0 → e.rg (pf 0xC 0x100) = s.dev.rg (pf 0xC 0x100)) ∧ e.rg (pf 0xC 0x040) = (s.dev.rg (pf 0xC 0x040) + corr) % 2 ^ 32 ∧
      e.rg (pf 0xC 0x044) = (s.dev.rg (pf 0xC 0x044) + nonFatal) % 2 ^ 32 ∧ e.rg (pf 0xC 0x048) = (s.dev.rg (pf 0xC 0x048) + fatal) % 2 ^ 32 ∧
      e.rg (pf 0xC 0x04C) = (s.dev.rg (pf 0xC 0x04C) + replays) % 2 ^ 32 ∧ e.rg (pf 0xC 0x054) = (s.dev.rg (pf 0xC 0x054) + poisoned) % 2 ^ 32 ∧
      RegsBut [pf 0xC 0x040, pf 0xC 0x044, pf 0xC 0x048, pf 0xC 0x04C, pf 0xC 0x050, pf 0xC 0x054, pf 0xC 0x100] s.dev e) ∧
  (∀ (code slot offset length index : Nat) (x : List Byte) (i3c : Bool) (s : State), s.dev.managed = false →
    ∀ c ∈ [Instr.getVersion, .getCapabilities, .negotiateAlgorithms, .getDigests, .getCertificate slot offset length, .challenge slot x,
      .getMeasurements index x, .keyExchange slot x, .finish x, .heartbeat, .endSession, .spdmUnsupported code, .setEndpointId i3c code,
      .i3cDynamicAddress code], exec c s = .next s)

/-! The cascade -/

/-- The messages of a cascade publish. A row marker is forwarded, latches the cascade swatch, and in CASCADE mode is followed as an edge
(R440, R441, R448). PREPARE makes a member take its snapshot, or refuse; a module without a staged cascade page stays silent (R437, R443,
R459; the local-publish refusal: log 46). Replies are kept by the master until GO (R443, R446). At the deadline the master abandons on a
failure, asks again while a member holds, else sends GO for the next boundary (R443 to R446). GO makes a READY member's publish due, ABANDON
drops it (R443, R445, R446). A forwarded COMMIT starts an exchange (R443). The model's reading: log 60. -/
def Obligations.CascadeMessages : Prop :=
  (∀ (row delay : Nat) (arrival t x : Int) (redundant : Bool) (swatch : Option Nat) (s : State), s.dev.up = true → s.dev.row.running = true →
    s.dev.mgmt.masterLow = false → s.dev.cas.state = 1 ∨ s.dev.cas.state = 2 → t = arrival - delay →
    ∃ e, exec (.rowMarker row arrival delay redundant swatch) s = .next { s with dev := e } ∧
      Sig { s.dev with row := e.row, cas := { s.dev.cas with silent := 0 } } e ∧
      Sends (.cascade 1 (s.dev.position + 1)
        [row, delay + bits (s.dev.rg (pf (0xA0 + if redundant then 2 else 0) 0x108)) 15 0 + Config.forwardDelay]) s.dev e ∧
      (∀ v, swatch = some v → e.rg64 (pf 0xD 0x134) = v % 2 ^ 64) ∧
      (s.dev.syncMode ≠ 2 → e.row = s.dev.row ∧ RegsBut [pf 0xD 0x134, pf 0xD 0x138] s.dev e) ∧
      (s.dev.syncMode = 2 → (if 2 * t ≤ s.dev.rowLen then s.dev.row.edgeHere else s.dev.row.edgeNext) = false → s.dev.syncState ≠ 0 →
        (s.dev.syncState = 3 → s.dev.row.relocking = true) → x = (if 2 * t ≤ s.dev.rowLen then t else t - s.dev.rowLen) →
        x.natAbs ≤ s.dev.captureNs → e.syncState = (if x.natAbs ≤ 2000 then 1 else 2) ∧ e.rg (pf 0xD 0x144) = delay % 65536)) ∧
  (∀ (row delay : Nat) (arrival : Int) (redundant : Bool) (swatch : Option Nat) (s : State), s.dev.up = false ∨ s.dev.row.running = false ∨
    s.dev.mgmt.masterLow = true ∨ s.dev.cas.state = 0 ∨ s.dev.cas.state = 3 → exec (.rowMarker row arrival delay redundant swatch) s = .next s) ∧
  (∀ (index modules : Nat) (s : State), s.dev.up = true → s.dev.row.running = true →
    (s.dev.mgmt.masterLow = false → s.dev.prepared = false → exec (.prepare index modules) s = .next s) ∧
    (∀ code, s.dev.mgmt.masterLow = true ∨ s.dev.prepared = true → s.dev.prepareCode index = some code → exec (.prepare index modules) s =
      .next { s with dev := { s.dev with sent := s.dev.sent ++ [.cascade 3 0 [index, 3, code, 0xFFF, 0, 0, 0]] } }) ∧
    (s.dev.mgmt.masterLow = false → s.dev.prepared = true → s.dev.prepareCode index = none → s.dev.pub = none →
      ∃ e p, exec (.prepare index modules) s = .next { s with dev := e } ∧ e = { s.dev with regs := e.regs, objs := e.objs, pub := some p, cas := e.cas } ∧
        p.src = .cascade ∧ p.due = untilGo ∧ p.row = s.dev.row.number - 1 ∧ p.regs = s.dev.shadows ∧ p.checked = false ∧
        bit (e.rg (pf 0 0x104)) 0 = true ∧ bit (e.rg (pf 0 0x104)) 2 = true ∧
        e.cas = { s.dev.cas with
          state := (if s.dev.cas.state = 0 then 1 else s.dev.cas.state), newIndex := index, modules := modules, silent := 0, ready := false,
          prepared := s.dev.row.number } ∧ RegsBut [pf 0 0x104] s.dev e)) ∧
  (∀ (i reply code slot swatch period topology : Nat) (s : State),
    ∃ e, exec (.memberReply i reply code slot swatch period topology) s = .next { s with dev := e } ∧
      e = { s.dev with cas := { s.dev.cas with members := e.cas.members } } ∧
      (s.dev.mgmt.masterLow = true → s.dev.cas.exchange ≠ none → s.dev.cas.goSent = false → i ≠ 0 →
        (s.dev.cas.state = 2 → ∃ m ∈ s.dev.cas.members, m.index = i) →
        ∃ m ∈ e.cas.members, m.index = i ∧ m.reply = reply % 4 ∧ m.code = code ∧ m.slot = slot ∧ m.swatch = swatch % 2 ^ 64 ∧ m.period = period ∧
          m.topology = topology ∧ m.silent = 0) ∧
      (∀ m, m.index ≠ i → (m ∈ e.cas.members ↔ m ∈ s.dev.cas.members))) ∧
  (∀ (x : Nat) (n : Dev) (p : Pub) (s : State), s.dev.cas.exchange = some x → s.dev.cas.goSent = false → s.dev.mgmt.masterLow = true →
    x + 2 ≤ s.dev.row.number → n = s.dev.checkDone → n.pub = some p →
    (∀ code slot index, n.casCode p = some (code, slot, index) →
      ∃ e, exec .cascadeReplyDeadline s = .next { s with dev := e } ∧ e.pub = none ∧ Sends (.cascade 5 255 []) n e ∧ e.act = s.dev.act ∧
        e.rg (pf 0xD 0x13C) = index % 16 * 65536 ∧ e.rg (pf 0xD 0x044) = (n.rg (pf 0xD 0x044) + 1) % 2 ^ 32) ∧
    (n.casCode p = none → (∃ m ∈ n.cas.members, m.reply = 2) →
      ∃ e, exec .cascadeReplyDeadline s = .next { s with dev := e } ∧ e = { n with pub := some { p with checked := false }, cas := e.cas } ∧
        e.cas.exchange = some s.dev.row.number ∧ ∀ m ∈ e.cas.members, m.reply = 0) ∧
    (n.casCode p = none → (∀ m ∈ n.cas.members, m.reply ≠ 2) →
      exec .cascadeReplyDeadline s = .next { s with dev := { n with
        pub := some { p with due := s.dev.row.number + 2 },
        cas := { n.cas with goSent := true }, sent := n.sent ++ [.cascade 4 255 [s.dev.row.number + 1, n.counter]] } })) ∧
  (∀ s : State, s.dev.cas.exchange = none ∨ s.dev.cas.goSent = true ∨ s.dev.mgmt.masterLow = false ∨
    (∃ x, s.dev.cas.exchange = some x ∧ s.dev.row.number < x + 2) → exec .cascadeReplyDeadline s = .next s) ∧
  (∀ (row counter : Nat) (p : Pub) (s : State), s.dev.pub = some p → p.due = untilGo → s.dev.cas.ready = true → s.dev.mgmt.masterLow = false →
    exec (.go row counter) s = .next { s with dev := { s.dev with
      pub := some { p with due := s.dev.row.number + 1 },
      cas := { s.dev.cas with goGot := true, goRow := row, goCounter := counter, silent := 0 } } }) ∧
  (∀ (row counter : Nat) (s : State), s.dev.pub = none ∨ s.dev.cas.ready = false ∨ s.dev.mgmt.masterLow = true → exec (.go row counter) s = .next s) ∧
  (∀ (p : Pub) (s : State), s.dev.pub = some p → p.due = untilGo ∨ p.due = untilPrepare → s.dev.mgmt.masterLow = false →
    ∃ e, exec .abandon s = .next { s with dev := e } ∧ e.pub = none ∧ e.cas.ready = false ∧ e.act = s.dev.act ∧ e.counter = s.dev.counter ∧
      e.strands = s.dev.strands ∧ (s.dev.cas.state = 1 → e.cas.state = 0) ∧ (s.dev.cas.state = 2 → e.cas.state = 2) ∧
      bit (e.rg (pf 0 0x104)) 0 = false ∧ bit (e.rg (pf 0 0x104)) 1 = true) ∧
  (∀ s : State, s.dev.pub = none ∨ s.dev.mgmt.masterLow = true → exec .abandon s = .next s) ∧
  (∀ s : State, s.dev.servingMaster = true → s.dev.pub = none →
    ∃ e p, exec .commitForward s = .next { s with dev := e } ∧ e = { s.dev with regs := e.regs, objs := e.objs, pub := some p, cas := e.cas } ∧
      p.src = .cascade ∧ p.due = untilGo ∧ p.regs = s.dev.shadows ∧ e.cas.exchange = some s.dev.row.number ∧ e.cas.goSent = false ∧
      (∀ m ∈ e.cas.members, m.reply = 0) ∧ RegsBut [pf 0 0x104] s.dev e) ∧
  (∀ s : State, s.dev.servingMaster = false → exec .commitForward s = .next s)

/-- Members and parts. A member silent for LOST_ROWS rows is marked lost (R456); a member that hears nothing of its master that long is
isolated: its parts end, its publish is dropped (R442); CAS_CMD.LEAVE on it commits one local publish without the cascade page (R442). A
part is admitted ahead of local commands, at the lowest free ID, or refused with its code (R447, R451); gathered lists and passages are kept
once each for their strand (R452, R453); a part ends without a completion (R454); a refusal ends the master's strand REFUSED, a stalled part
STALLED (R451, R454; log 47); a running sum takes this module's own part, if it has one, and goes on downstream, or back to the master from the last module (R455). The model's
reading: log 60. -/
def Obligations.CascadeParts : Prop :=
  (∀ (i : Nat) (m : Member) (s : State), s.dev.cas.members.find? (·.index == i) = some m → s.dev.servingMaster = true → i ≠ 0 → m.lost = false →
    s.dev.lostRows ≤ m.silent →
    ∃ e, exec (.memberLost i) s = .next { s with dev := e } ∧ Sig { s.dev with cas := { s.dev.cas with members := e.cas.members } } e ∧
      (∀ x, x ∈ e.cas.members ↔ ∃ y ∈ s.dev.cas.members, x = if y.index = i then { y with lost := true, locked := false } else y) ∧
      e.rg (pf 0xD 0x058) = (s.dev.rg (pf 0xD 0x058) + 1) % 2 ^ 32 ∧ RegsBut [pf 0xD 0x058, msixPba 0 4] s.dev e) ∧
  (∀ (i : Nat) (s : State), s.dev.servingMaster = false ∨ i = 0 ∨ (∀ m ∈ s.dev.cas.members, m.index ≠ i) → exec (.memberLost i) s = .next s) ∧
  (∀ (i : Nat) (s : State), s.dev.mgmt.masterLow = true →
    ∃ e, exec (.memberReportsLocked i) s = .next { s with dev := e } ∧ e = { s.dev with cas := { s.dev.cas with members := e.cas.members } } ∧
      (∀ x, x ∈ e.cas.members ↔ ∃ y ∈ s.dev.cas.members, x = if y.index = i ∧ y.lost = false then { y with locked := true, silent := 0 } else y)) ∧
  (∀ (i : Nat) (s : State), s.dev.mgmt.masterLow = false → exec (.memberReportsLocked i) s = .next s) ∧
  (∀ s : State, s.dev.casMember = true → s.dev.lostRows ≤ s.dev.cas.silent →
    ∃ e, exec .isolate s = .next { s with dev := e } ∧ e.cas.state = 3 ∧ e.pub = none ∧ e.act = s.dev.act ∧ e.row = s.dev.row ∧
      (∀ id x, nget s.dev.strands id = some x → x.part ≠ none → x.state ≠ 3 → nget e.strands id = some x.ended) ∧
      (∀ id, (∀ x, (id, x) ∈ s.dev.strands → x.part = none) → nget e.strands id = nget s.dev.strands id) ∧
      e.rg (pf 0xD 0x060) = (s.dev.rg (pf 0xD 0x060) + 1) % 2 ^ 32) ∧
  (∀ s : State, s.dev.casMember = false ∨ s.dev.cas.silent < s.dev.lostRows → exec .isolate s = .next s) ∧
  (∀ s : State, s.dev.up = true → s.dev.cas.state = 3 → s.dev.pub = none →
    ∃ e p, exec .casLeave s = .next { s with dev := e } ∧ e = { s.dev with regs := e.regs, pages := e.pages, objs := e.objs, pub := some p } ∧
      p.src = .cascade ∧ p.due = s.dev.row.number + 2 ∧ bit (e.rg (pf 0xD 0x008)) 0 = false ∧ bits (e.rg (pf 1 0x10C)) 1 0 ≠ 2 ∧
      RegsBut [pf 1 0x10C, pf 0xD 0x008, pf 0 0x104] s.dev e) ∧
  (∀ s : State, s.dev.up = false ∨ s.dev.cas.state ≠ 3 ∨ s.dev.pub ≠ none → exec .casLeave s = .next s) ∧
  (∀ (strand counter kPrime passages n : Nat) (en : Entry) (f : SearchF) (query : List Nat) (v : Dev) (c : Cmd) (x : IxDesc) (p : Plan) (s : State),
    s.dev.up = true → s.dev.casMember = true → (∀ y ∈ s.dev.strands, y.2.part = some strand → y.2.state = 3) →
    n = (counter + s.dev.rg64 (pf 0xD 0x124)) % 2 ^ 48 → v = s.dev.heardMaster.asOf n → c = s.dev.partCmd en f kPrime passages →
    x = ixDesc (v.curContent c.object).bytes →
    p = ⟨searchFoot s.dev.period s.dev.budget x (v.curContent c.object).index c.search kPrime (some 0),
      searchSteps s.dev.period s.dev.budget x (v.curContent c.object).index c.search kPrime (some 0), [c.object, c.search.filter].filter (· != 0)⟩ →
    (∀ code, (v.partObjects c query).or (s.dev.heardMaster.partFits p.foot) = some code →
      exec (.partBroadcast strand counter en f kPrime passages query) s =
        .next { s with dev := { s.dev with cas := { s.dev.cas with silent := 0 }, sent := s.dev.sent ++ [.cascade 12 0 [strand, code]] } }) ∧
    ((v.partObjects c query).or (s.dev.heardMaster.partFits p.foot) = none →
      ∃ e y, exec (.partBroadcast strand counter en f kPrime passages query) s = .next { s with dev := e } ∧
        e = { s.dev with regs := e.regs, strands := e.strands, markers := e.markers, cas := { s.dev.cas with silent := 0 } } ∧
        nget e.strands s.dev.freeId = some y ∧ y.part = some strand ∧ y.cmd = c ∧ y.state = 1 ∧ y.counter = n ∧ y.foot = p.foot ∧
        y.start = s.dev.row.number + 1 ∧ y.work.query = query ∧ (∀ id, id ≠ s.dev.freeId → nget e.strands id = nget s.dev.strands id) ∧
        e.rg (pf 0xD 0x04C) = (s.dev.rg (pf 0xD 0x04C) + 1) % 2 ^ 32 ∧ RegsBut [pf 0xD 0x04C] s.dev e)) ∧
  (∀ (strand i left nans : Nat) (entries : List (Nat × Nat)) (x : Strand) (s : State), nget s.dev.strands strand = some x → x.state ≠ 3 →
    x.spans = true → x.part = none → 1 ≤ i → i < s.dev.cas.modules → (∀ l ∈ x.work.lists, l.1 ≠ i) →
    ∃ e, exec (.gatherList strand i entries left nans) s = .next { s with dev := e } ∧
      e = { s.dev with strands := e.strands, cas := { s.dev.cas with members := e.cas.members } } ∧
      nget e.strands strand = some { x with work := { x.work with lists := x.work.lists ++ [(i, entries.map gatherCand, left)], nans := x.work.nans + nans } } ∧
      (∀ id, id ≠ strand → nget e.strands id = nget s.dev.strands id)) ∧
  (∀ (strand : Nat) (pids : List Nat) (s : State), (s.dev.partOf strand = none → exec (.passageFetchRequest strand pids) s = .next s) ∧
    (∀ id x, s.dev.partOf strand = some (id, x) → ∃ data, exec (.passageFetchRequest strand pids) s =
      .next { s with dev := { s.dev with cas := { s.dev.cas with silent := 0 }, sent := s.dev.sent ++ [.cascade 10 0 (strand :: data)] } })) ∧
  (∀ (strand : Nat) (passages : List (Nat × List Nat)) (x : Strand) (s : State), nget s.dev.strands strand = some x → x.state ≠ 3 → x.spans = true →
    x.part = none →
    ∃ e y, exec (.passageFetchReply strand passages) s = .next { s with dev := e } ∧
      e = { s.dev with strands := e.strands, cas := { s.dev.cas with members := e.cas.members } } ∧ nget e.strands strand = some y ∧
      y = { x with work := { x.work with passages := y.work.passages } } ∧
      (∀ z, z ∈ y.work.passages ↔ z ∈ x.work.passages ∨ (z ∈ passages ∧ ∀ w ∈ x.work.passages, w.1 ≠ z.1)) ∧
      (∀ id, id ≠ strand → nget e.strands id = nget s.dev.strands id)) ∧
  (∀ (strand id : Nat) (x : Strand) (s : State), s.dev.partOf strand = some (id, x) → nget s.dev.strands id = some x →
    ∃ e, exec (.partEnd strand) s = .next { s with dev := e } ∧ e = { s.dev with strands := e.strands, cas := { s.dev.cas with silent := 0 } } ∧
      nget e.strands id = some x.ended ∧ (∀ j, j ≠ id → nget e.strands j = nget s.dev.strands j)) ∧
  (∀ (strand code status reason extra : Nat) (x : Strand) (s : State), nget s.dev.strands strand = some x → x.state ≠ 3 → x.spans = true →
    x.part = none → (code < 0x100 ∧ status = 0x11 ∧ reason = 0 ∧ extra = code) ∨ (0x100 ≤ code ∧ status = 0x10 ∧ reason = code ∧ extra = 0) →
    ∃ e, exec (.partRefusal strand code) s = .next { s with dev := e } ∧ Works s.dev e ∧ nget e.strands strand = some x.ended ∧
      (∀ j, j ≠ strand → nget e.strands j = nget s.dev.strands j) ∧
      (∃ slot sqHead phase, Sends (.cqe x.cmd.q slot ((⟨x.cmd.cid, 0, 0, status, reason, strand, if status = 0x10 then 0 else x.work.released, x.admitRow,
        x.drops, s.dev.row.number - x.admitRow, extra, x.counter⟩ : Cqe).words sqHead phase)) s.dev e) ∧
      (status = 0x10 → e.rg (pf 0xD 0x050) = (s.dev.rg (pf 0xD 0x050) + 1) % 2 ^ 32)) ∧
  (∀ (strand id : Nat) (sums own on : List Nat) (x : Strand) (s : State), x.state ≠ 3 → own = Config.modulePart s.dev.cas.index x.cmd.sqe →
    on = (if s.dev.mgmt.masterLow = true ∨ own = [] then sums else chainStep (Config.partInteger x.cmd.sqe) sums own) →
    (s.dev.mgmt.masterLow = true ∧ id = strand ∧ nget s.dev.strands id = some x) ∨ (s.dev.mgmt.masterLow = false ∧ s.dev.partOf strand = some (id, x)) →
    ∃ e, exec (.runningSumArrival strand sums) s = .next { s with dev := e } ∧
      e = { s.dev with strands := e.strands, row := { s.dev.row with slots := e.row.slots }, sent := e.sent } ∧
      nget e.strands id = some { x with work := { x.work with sums := on } } ∧
      (∀ j, j ≠ id → nget e.strands j = nget s.dev.strands j) ∧
      (∀ (j : Nat) (a : Slot), s.dev.row.slots[j]? = some a → id ∈ a.members → ∃ l, e.row.slots[j]? = some { a with inputs := l } ∧
        ∀ i : Input, i ∈ l ↔ i ∈ a.inputs ∧ ¬ (i.src = .link ∧ (i.member = none ∨ i.member = some id))) ∧
      e.sent = s.dev.sent ++ (if s.dev.mgmt.masterLow then [] else
        [.cascade 13 (if s.dev.cas.index + 1 < s.dev.cas.modules then s.dev.cas.index + 1 else 0) (strand :: on)]))

/-- Links: a retry counts, and after three that fail the link retrains with a LINK error (R431); training gives width 8, or width 4 on 4 to
7 lanes, or no link (R432, R433); a failed lane narrows the link and is reported, a fifth takes it down (R432, R460); a link that is down
shows nothing, and the transfers over it do not arrive (R435, R459). A die-to-die retry counts; after two that fail the line is
corrected or marked uncorrectable by its errors (R199, R200, R206). The model's reading: log 40, 45 and 60. -/
def Obligations.LinksFollow : Prop :=
  (∀ (port p n : Nat) (failed : Bool) (s : State), port < 4 → p = 0xA0 + port → s.dev.linkUp port = true →
    n = (if failed then s.dev.cas.retries.getD port 0 + 1 else 0) →
    ∃ e, exec (.linkRetry port failed) s = .next { s with dev := e } ∧ e.free = s.dev.free + 1 ∧
      e.cas = { s.dev.cas with retries := s.dev.cas.retries.set port (if n < 3 then n else 0) } ∧
      e.rg (pf p 0x048) = (s.dev.rg (pf p 0x048) + 1) % 2 ^ 32 ∧
      (n < 3 → e = { s.dev with regs := e.regs, free := e.free, cas := e.cas } ∧ RegsBut [pf p 0x048, pf p 0x044] s.dev e) ∧
      (3 ≤ n → bits (e.rg (pf p 0x104)) 1 0 = 1 ∧ bit (e.rg (pf p 0x020)) 3 = true ∧ e.rg (pf p 0x04C) = (s.dev.rg (pf p 0x04C) + 1) % 2 ^ 32 ∧
        e.strands = s.dev.strands ∧ e.objs = s.dev.objs)) ∧
  (∀ (port : Nat) (failed : Bool) (s : State), 4 ≤ port ∨ s.dev.linkUp port = false → exec (.linkRetry port failed) s = .next s) ∧
  (∀ (port lanes delay peer peerPort p : Nat) (master : Bool) (s : State), port < 4 → p = 0xA0 + port → s.dev.up = true →
    s.dev.partStopped 5 = false →
    (4 ≤ lanes →
      ∃ e, exec (.linkTrainingDone port lanes delay peer master peerPort) s = .next { s with dev := e } ∧
        e = { s.dev with regs := e.regs, cas := { s.dev.cas with lostPorts := e.cas.lostPorts, retries := s.dev.cas.retries.set port 0, badLanes := e.cas.badLanes } } ∧
        e.rg (pf p 0x104) = (if 8 ≤ lanes then 0x802 else 0x403) ∧ e.rg (pf p 0x108) = delay % 65536 ∧
        e.rg (pf p 0x10C) = peer % 16 * 65536 + b2n master * 256 + peerPort % 4 ∧ (∀ x, x ∈ e.cas.lostPorts ↔ x ∈ s.dev.cas.lostPorts ∧ x ≠ port) ∧
        (8 ≤ lanes → ∀ x ∈ e.cas.badLanes, x / 8 ≠ port) ∧ RegsBut [pf p 0x104, pf p 0x108, pf p 0x10C, pf p 0x050] s.dev e) ∧
    (lanes < 4 → exec (.linkTrainingDone port lanes delay peer master peerPort) s = exec (.linkDown port) s)) ∧
  (∀ (port lanes delay peer peerPort : Nat) (master : Bool) (s : State), s.dev.partStopped 5 = true →
    exec (.linkTrainingDone port lanes delay peer master peerPort) s = .next s) ∧
  (∀ (port lane p : Nat) (s : State), port < 4 → lane < 8 → p = 0xA0 + port → 8 * port + lane ∉ s.dev.cas.badLanes →
    ∃ e, exec (.laneFail port lane) s = .next { s with dev := e } ∧ e.cas.badLanes = s.dev.cas.badLanes ++ [8 * port + lane] ∧
      bit (e.rg (pf p 0x020)) 3 = true ∧ e.strands = s.dev.strands ∧ e.objs = s.dev.objs ∧
      ((s.dev.cas.badLanes.filter fun x => x / 8 == port).length < 4 → bits (s.dev.rg (pf p 0x104)) 11 8 = 8 →
        bits (e.rg (pf p 0x104)) 11 8 = 4 ∧ bits (e.rg (pf p 0x104)) 1 0 = 3) ∧
      (4 ≤ (s.dev.cas.badLanes.filter fun x => x / 8 == port).length → bits (e.rg (pf p 0x104)) 1 0 = 0)) ∧
  (∀ (port lane : Nat) (s : State), 4 ≤ port ∨ 8 ≤ lane ∨ 8 * port + lane ∈ s.dev.cas.badLanes → exec (.laneFail port lane) s = .next s) ∧
  (∀ (port p : Nat) (s : State), port < 4 → p = 0xA0 + port → s.dev.linkState port ≠ 0 →
    ∃ e, exec (.linkDown port) s = .next { s with dev := e } ∧
      e = { s.dev with regs := e.regs, cas := { s.dev.cas with lostPorts := e.cas.lostPorts }, row := { s.dev.row with slots := e.row.slots } } ∧
      e.rg (pf p 0x104) = 0 ∧ e.rg (pf p 0x108) = 0 ∧ e.rg (pf p 0x10C) = 0 ∧ (∀ x, x ∈ e.cas.lostPorts ↔ x ∈ s.dev.cas.lostPorts ∨ x = port) ∧
      (∀ (j : Nat) (a : Slot), s.dev.row.slots[j]? = some a →
        e.row.slots[j]? = some (if a.utype = 5 ∧ a.phase < 2 then { a with inputs := a.inputs ++ [⟨none, .link⟩] } else a)) ∧
      RegsBut [pf p 0x104, pf p 0x108, pf p 0x10C, pf 0xD 0x054] s.dev e) ∧
  (∀ (port : Nat) (s : State), 4 ≤ port ∨ s.dev.linkState port = 0 → exec (.linkDown port) s = .next s) ∧
  (∀ (link p n : Nat) (failed : Bool) (errors : List (Nat × Nat)) (s : State), link < 2 → p = 0xA4 + link → s.dev.up = true →
    n = (if failed then s.dev.cas.d2dRetries.getD link 0 + 1 else 0) →
    ∃ e, exec (.d2dRetry link ⟨failed, errors⟩) s = .next { s with dev := e } ∧
      e.cas = { s.dev.cas with d2dRetries := s.dev.cas.d2dRetries.set link (if n < 2 then n else 0) } ∧
      e.rg (pf p 0x040) = (s.dev.rg (pf p 0x040) + 1) % 2 ^ 32 ∧
      (n < 2 ∨ symbolErrors errors = 0 → e = { s.dev with regs := e.regs, cas := e.cas } ∧ RegsBut [pf p 0x040] s.dev e) ∧
      (2 ≤ n → 1 ≤ symbolErrors errors → symbolErrors errors ≤ 4 → e.strands = s.dev.strands ∧ e.objs = s.dev.objs ∧ e.free = s.dev.free + 1 ∧
        bit (e.rg (pf p 0x020)) (if symbolErrors errors ≤ 2 then 0 else 1) = true ∧
        e.rg (pf p (if symbolErrors errors ≤ 2 then 0x02C else 0x030)) =
          (s.dev.rg (pf p (if symbolErrors errors ≤ 2 then 0x02C else 0x030)) + 1) % 2 ^ 32)) ∧
  (∀ (link : Nat) (failed : Bool) (errors : List (Nat × Nat)) (s : State), 2 ≤ link ∨ s.dev.up = false →
    exec (.d2dRetry link ⟨failed, errors⟩) s = .next s)

end
end

