-- ==== Sys2Proof/Laws/Maps.lean ====
section
/-! SUPPORT. The laws of sparse maps and object bytes: a read after a write, and that every operation keeps the canonical form. -/

namespace Sys2Proof.Machine

variable {α : Type}

@[simp] theorem nget_nil (k : Nat) : nget ([] : NMap α) k = none := rfl

/-- What was set at a key is read there. -/
@[simp] theorem nget_nset_same (m : NMap α) (k : Nat) (v : α) : nget (nset m k v) k = some v := by
  induction m with
  | nil => simp [nset, nget]
  | cons p m ih =>
    obtain ⟨a, b⟩ := p
    unfold nset
    split
    · rename_i h; simp [nget, Nat.ne_of_lt h, ih]
    · split <;> simp [nget]

/-- Setting a key leaves every other key. -/
theorem nget_nset_ne (m : NMap α) {k j : Nat} (v : α) (h : j ≠ k) : nget (nset m k v) j = nget m j := by
  induction m with
  | nil => simp [nset, nget, Ne.symm h]
  | cons p m ih =>
    obtain ⟨a, b⟩ := p
    unfold nset
    split
    · simp only [nget, ih]
    · split
      · rename_i h2; simp [nget, h2, Ne.symm h]
      · simp [nget, Ne.symm h]

/-- An erased key is not listed. -/
@[simp] theorem nget_nerase_same (m : NMap α) (k : Nat) : nget (nerase m k) k = none := by
  induction m with
  | nil => rfl
  | cons p m ih =>
    obtain ⟨a, b⟩ := p
    unfold nerase at *
    by_cases h : a = k
    · simp [List.filter, h, ih]
    · have : (a != k) = true := by simp [h]
      simp [List.filter, this, nget, h, ih]

/-- Erasing a key leaves every other key. -/
theorem nget_nerase_ne (m : NMap α) {k j : Nat} (h : j ≠ k) : nget (nerase m k) j = nget m j := by
  induction m with
  | nil => rfl
  | cons p m ih =>
    obtain ⟨a, b⟩ := p
    unfold nerase at *
    by_cases e : a = k
    · have h2 : k ≠ j := Ne.symm h
      simp [List.filter, e, nget, h2, ih]
    · have : (a != k) = true := by simp [e]
      simp only [List.filter, this, nget, ih]

/-- The value at a key after a change of that key. -/
theorem nget_nmod_same (m : NMap α) (k : Nat) (f : α → α) : nget (nmod m k f) k = (nget m k).map f := by
  induction m with
  | nil => rfl
  | cons p m ih =>
    obtain ⟨a, b⟩ := p
    unfold nmod at *
    by_cases h : a = k
    · simp [nget, h]
    · simp [nget, h, ih]

/-- A change of a key leaves every other key. -/
theorem nget_nmod_ne (m : NMap α) {k j : Nat} (f : α → α) (h : j ≠ k) : nget (nmod m k f) j = nget m j := by
  induction m with
  | nil => rfl
  | cons p m ih =>
    obtain ⟨a, b⟩ := p
    unfold nmod at *
    by_cases e : a = k
    · have h2 : k ≠ j := Ne.symm h
      simp [nget, e, h2, ih]
    · simp only [List.map, e, if_false, nget, ih]

/-- Keys of a map with one key set. -/
theorem mem_nset {m : NMap α} {k : Nat} {v : α} {p : Nat × α} (h : p ∈ nset m k v) : p = (k, v) ∨ p ∈ m := by
  induction m with
  | nil => simp [nset] at h; exact .inl h
  | cons q m ih =>
    obtain ⟨a, b⟩ := q
    unfold nset at h
    split at h
    · rcases List.mem_cons.mp h with h | h
      · exact .inr (by simp [h])
      · rcases ih h with h | h
        · exact .inl h
        · exact .inr (List.mem_cons_of_mem _ h)
    · split at h
      · rcases List.mem_cons.mp h with h | h
        · exact .inl h
        · exact .inr (List.mem_cons_of_mem _ h)
      · rcases List.mem_cons.mp h with h | h
        · exact .inl h
        · exact .inr h

/-- Setting a key keeps the keys rising. -/
theorem nset_wf {m : NMap α} (h : NMap.wf m) (k : Nat) (v : α) : NMap.wf (nset m k v) := by
  induction m with
  | nil => simp [nset, NMap.wf]
  | cons p m ih =>
    obtain ⟨a, b⟩ := p
    have hm := (List.pairwise_cons.mp h)
    unfold nset
    split
    · rename_i hk
      refine List.pairwise_cons.mpr ⟨?_, ih hm.2⟩
      intro q hq
      rcases mem_nset hq with rfl | hq
      · exact hk
      · exact hm.1 q hq
    · split
      · rename_i h1 h2
        refine List.pairwise_cons.mpr ⟨?_, hm.2⟩
        intro q hq
        have := hm.1 q hq
        simp_all
      · rename_i h1 h2
        refine List.pairwise_cons.mpr ⟨?_, h⟩
        intro q hq
        rcases List.mem_cons.mp hq with rfl | hq
        · simp; omega
        · have := hm.1 q hq; simp at this ⊢; omega

/-- Erasing a key keeps the keys rising. -/
theorem nerase_wf {m : NMap α} (h : NMap.wf m) (k : Nat) : NMap.wf (nerase m k) := List.Pairwise.filter _ h

/-- Changing a value keeps the keys rising. -/
theorem nmod_wf {m : NMap α} (h : NMap.wf m) (k : Nat) (f : α → α) : NMap.wf (nmod m k f) := by
  unfold NMap.wf nmod at *
  rw [List.pairwise_map]
  refine h.imp ?_
  intro a b hab
  split <;> split <;> simpa using hab

/-! Object bytes -/

/-- A byte written is the byte read there. -/
@[simp] theorem Bytes.read_write_same (m : Bytes) (a : Nat) (b : Byte) : (m.write a b).read a = b := by
  unfold Bytes.write Bytes.read
  split
  · rename_i h; simp [h]
  · simp

/-- A byte written leaves every other byte. -/
theorem Bytes.read_write_ne (m : Bytes) {a c : Nat} (b : Byte) (h : c ≠ a) : (m.write a b).read c = m.read c := by
  unfold Bytes.write Bytes.read
  split
  · rw [nget_nerase_ne _ h]
  · rw [nget_nset_ne _ _ h]

/-- Writing one byte keeps the canonical form. -/
theorem Bytes.write_wf {m : Bytes} (h : m.wf) (a : Nat) (b : Byte) : (m.write a b).wf := by
  unfold Bytes.write
  split
  · exact ⟨nerase_wf h.1 a, fun p hp => h.2 p (List.mem_filter.mp hp).1⟩
  · rename_i hb
    refine ⟨nset_wf h.1 a b, fun p hp => ?_⟩
    rcases mem_nset hp with rfl | hp
    · exact hb
    · exact h.2 p hp

/-- Writing bytes from an address up keeps the canonical form. -/
theorem Bytes.writeN_wf {m : Bytes} (h : m.wf) (a : Nat) (bs : List Byte) : (m.writeN a bs).wf := by
  induction bs generalizing m a with
  | nil => exact h
  | cons b bs ih => exact ih (Bytes.write_wf h a b) (a + 1)

/-- Bytes written leave every byte outside them. -/
theorem Bytes.read_writeN_out (m : Bytes) (a : Nat) (bs : List Byte) (c : Nat) (h : c < a ∨ a + bs.length ≤ c) :
    (m.writeN a bs).read c = m.read c := by
  induction bs generalizing m a with
  | nil => rfl
  | cons b bs ih =>
    simp only [List.length_cons] at h
    unfold Bytes.writeN
    rw [ih _ _ (by omega), Bytes.read_write_ne _ _ (by omega)]

/-- Bytes written are read back. -/
theorem Bytes.read_writeN_in (m : Bytes) (a : Nat) (bs : List Byte) (i : Nat) (h : i < bs.length) :
    (m.writeN a bs).read (a + i) = bs[i] := by
  induction bs generalizing m a i with
  | nil => simp at h
  | cons b bs ih =>
    unfold Bytes.writeN
    cases i with
    | zero => rw [Bytes.read_writeN_out _ _ _ _ (by omega)]; simp
    | succ i =>
      have := ih (m.write a b) (a + 1) i (by simpa using h)
      simpa [Nat.add_assoc, Nat.add_comm 1 i] using this

/-- The object bytes at reset are in canonical form. -/
theorem Bytes.nil_wf : Bytes.wf [] := ⟨List.Pairwise.nil, by simp⟩

end Sys2Proof.Machine
end

