-- ==== Sys2Proof/Laws/State.lean ====
section
/-! SUPPORT. One lemma for each field of the device and each named update of it: the fields that the update leaves as they are. -/

namespace Sys2Proof.Machine

@[simp] theorem Dev.put_act (d : Dev) (k v : Nat) : (d.put k v).act = d.act := rfl
@[simp] theorem Dev.put_hold (d : Dev) (k v : Nat) : (d.put k v).hold = d.hold := rfl
@[simp] theorem Dev.put_part (d : Dev) (k v : Nat) : (d.put k v).part = d.part := rfl
@[simp] theorem Dev.put_pages (d : Dev) (k v : Nat) : (d.put k v).pages = d.pages := rfl
@[simp] theorem Dev.put_firsts (d : Dev) (k v : Nat) : (d.put k v).firsts = d.firsts := rfl
@[simp] theorem Dev.put_cleared (d : Dev) (k v : Nat) : (d.put k v).cleared = d.cleared := rfl
@[simp] theorem Dev.put_blank (d : Dev) (k v : Nat) : (d.put k v).blank = d.blank := rfl
@[simp] theorem Dev.put_checks (d : Dev) (k v : Nat) : (d.put k v).checks = d.checks := rfl
@[simp] theorem Dev.put_pub (d : Dev) (k v : Nat) : (d.put k v).pub = d.pub := rfl
@[simp] theorem Dev.put_row (d : Dev) (k v : Nat) : (d.put k v).row = d.row := rfl
@[simp] theorem Dev.put_qps (d : Dev) (k v : Nat) : (d.put k v).qps = d.qps := rfl
@[simp] theorem Dev.put_decided (d : Dev) (k v : Nat) : (d.put k v).decided = d.decided := rfl
@[simp] theorem Dev.put_served (d : Dev) (k v : Nat) : (d.put k v).served = d.served := rfl
@[simp] theorem Dev.put_aborts (d : Dev) (k v : Nat) : (d.put k v).aborts = d.aborts := rfl
@[simp] theorem Dev.put_unpicks (d : Dev) (k v : Nat) : (d.put k v).unpicks = d.unpicks := rfl
@[simp] theorem Dev.put_forces (d : Dev) (k v : Nat) : (d.put k v).forces = d.forces := rfl
@[simp] theorem Dev.put_strands (d : Dev) (k v : Nat) : (d.put k v).strands = d.strands := rfl
@[simp] theorem Dev.put_objs (d : Dev) (k v : Nat) : (d.put k v).objs = d.objs := rfl
@[simp] theorem Dev.put_jobs (d : Dev) (k v : Nat) : (d.put k v).jobs = d.jobs := rfl
@[simp] theorem Dev.put_lanes (d : Dev) (k v : Nat) : (d.put k v).lanes = d.lanes := rfl
@[simp] theorem Dev.put_markers (d : Dev) (k v : Nat) : (d.put k v).markers = d.markers := rfl
@[simp] theorem Dev.put_tiers (d : Dev) (k v : Nat) : (d.put k v).tiers = d.tiers := rfl
@[simp] theorem Dev.put_cores (d : Dev) (k v : Nat) : (d.put k v).cores = d.cores := rfl
@[simp] theorem Dev.put_fault (d : Dev) (k v : Nat) : (d.put k v).fault = d.fault := rfl
@[simp] theorem Dev.put_power (d : Dev) (k v : Nat) : (d.put k v).power = d.power := rfl
@[simp] theorem Dev.put_fw (d : Dev) (k v : Nat) : (d.put k v).fw = d.fw := rfl
@[simp] theorem Dev.put_owed (d : Dev) (k v : Nat) : (d.put k v).owed = d.owed := rfl
@[simp] theorem Dev.put_cas (d : Dev) (k v : Nat) : (d.put k v).cas = d.cas := rfl
@[simp] theorem Dev.put_mgmt (d : Dev) (k v : Nat) : (d.put k v).mgmt = d.mgmt := rfl
@[simp] theorem Dev.put_snapStrands (d : Dev) (k v : Nat) : (d.put k v).snapStrands = d.snapStrands := rfl
@[simp] theorem Dev.put_snapObjs (d : Dev) (k v : Nat) : (d.put k v).snapObjs = d.snapObjs := rfl
@[simp] theorem Dev.put_snapJobs (d : Dev) (k v : Nat) : (d.put k v).snapJobs = d.snapJobs := rfl
@[simp] theorem Dev.put_snapLanes (d : Dev) (k v : Nat) : (d.put k v).snapLanes = d.snapLanes := rfl
@[simp] theorem Dev.put_free (d : Dev) (k v : Nat) : (d.put k v).free = d.free := rfl
@[simp] theorem Dev.put_sent (d : Dev) (k v : Nat) : (d.put k v).sent = d.sent := rfl
@[simp] theorem Dev.putAct_regs (d : Dev) (k v : Nat) : (d.putAct k v).regs = d.regs := rfl
@[simp] theorem Dev.putAct_hold (d : Dev) (k v : Nat) : (d.putAct k v).hold = d.hold := rfl
@[simp] theorem Dev.putAct_part (d : Dev) (k v : Nat) : (d.putAct k v).part = d.part := rfl
@[simp] theorem Dev.putAct_pages (d : Dev) (k v : Nat) : (d.putAct k v).pages = d.pages := rfl
@[simp] theorem Dev.putAct_firsts (d : Dev) (k v : Nat) : (d.putAct k v).firsts = d.firsts := rfl
@[simp] theorem Dev.putAct_cleared (d : Dev) (k v : Nat) : (d.putAct k v).cleared = d.cleared := rfl
@[simp] theorem Dev.putAct_blank (d : Dev) (k v : Nat) : (d.putAct k v).blank = d.blank := rfl
@[simp] theorem Dev.putAct_checks (d : Dev) (k v : Nat) : (d.putAct k v).checks = d.checks := rfl
@[simp] theorem Dev.putAct_pub (d : Dev) (k v : Nat) : (d.putAct k v).pub = d.pub := rfl
@[simp] theorem Dev.putAct_row (d : Dev) (k v : Nat) : (d.putAct k v).row = d.row := rfl
@[simp] theorem Dev.putAct_qps (d : Dev) (k v : Nat) : (d.putAct k v).qps = d.qps := rfl
@[simp] theorem Dev.putAct_decided (d : Dev) (k v : Nat) : (d.putAct k v).decided = d.decided := rfl
@[simp] theorem Dev.putAct_served (d : Dev) (k v : Nat) : (d.putAct k v).served = d.served := rfl
@[simp] theorem Dev.putAct_aborts (d : Dev) (k v : Nat) : (d.putAct k v).aborts = d.aborts := rfl
@[simp] theorem Dev.putAct_unpicks (d : Dev) (k v : Nat) : (d.putAct k v).unpicks = d.unpicks := rfl
@[simp] theorem Dev.putAct_forces (d : Dev) (k v : Nat) : (d.putAct k v).forces = d.forces := rfl
@[simp] theorem Dev.putAct_strands (d : Dev) (k v : Nat) : (d.putAct k v).strands = d.strands := rfl
@[simp] theorem Dev.putAct_objs (d : Dev) (k v : Nat) : (d.putAct k v).objs = d.objs := rfl
@[simp] theorem Dev.putAct_jobs (d : Dev) (k v : Nat) : (d.putAct k v).jobs = d.jobs := rfl
@[simp] theorem Dev.putAct_lanes (d : Dev) (k v : Nat) : (d.putAct k v).lanes = d.lanes := rfl
@[simp] theorem Dev.putAct_markers (d : Dev) (k v : Nat) : (d.putAct k v).markers = d.markers := rfl
@[simp] theorem Dev.putAct_tiers (d : Dev) (k v : Nat) : (d.putAct k v).tiers = d.tiers := rfl
@[simp] theorem Dev.putAct_cores (d : Dev) (k v : Nat) : (d.putAct k v).cores = d.cores := rfl
@[simp] theorem Dev.putAct_fault (d : Dev) (k v : Nat) : (d.putAct k v).fault = d.fault := rfl
@[simp] theorem Dev.putAct_power (d : Dev) (k v : Nat) : (d.putAct k v).power = d.power := rfl
@[simp] theorem Dev.putAct_fw (d : Dev) (k v : Nat) : (d.putAct k v).fw = d.fw := rfl
@[simp] theorem Dev.putAct_owed (d : Dev) (k v : Nat) : (d.putAct k v).owed = d.owed := rfl
@[simp] theorem Dev.putAct_cas (d : Dev) (k v : Nat) : (d.putAct k v).cas = d.cas := rfl
@[simp] theorem Dev.putAct_mgmt (d : Dev) (k v : Nat) : (d.putAct k v).mgmt = d.mgmt := rfl
@[simp] theorem Dev.putAct_snapStrands (d : Dev) (k v : Nat) : (d.putAct k v).snapStrands = d.snapStrands := rfl
@[simp] theorem Dev.putAct_snapObjs (d : Dev) (k v : Nat) : (d.putAct k v).snapObjs = d.snapObjs := rfl
@[simp] theorem Dev.putAct_snapJobs (d : Dev) (k v : Nat) : (d.putAct k v).snapJobs = d.snapJobs := rfl
@[simp] theorem Dev.putAct_snapLanes (d : Dev) (k v : Nat) : (d.putAct k v).snapLanes = d.snapLanes := rfl
@[simp] theorem Dev.putAct_free (d : Dev) (k v : Nat) : (d.putAct k v).free = d.free := rfl
@[simp] theorem Dev.putAct_sent (d : Dev) (k v : Nat) : (d.putAct k v).sent = d.sent := rfl
@[simp] theorem Dev.setPage_regs (d : Dev) (p : Nat) (x : Page) : (d.setPage p x).regs = d.regs := rfl
@[simp] theorem Dev.setPage_act (d : Dev) (p : Nat) (x : Page) : (d.setPage p x).act = d.act := rfl
@[simp] theorem Dev.setPage_hold (d : Dev) (p : Nat) (x : Page) : (d.setPage p x).hold = d.hold := rfl
@[simp] theorem Dev.setPage_part (d : Dev) (p : Nat) (x : Page) : (d.setPage p x).part = d.part := rfl
@[simp] theorem Dev.setPage_firsts (d : Dev) (p : Nat) (x : Page) : (d.setPage p x).firsts = d.firsts := rfl
@[simp] theorem Dev.setPage_cleared (d : Dev) (p : Nat) (x : Page) : (d.setPage p x).cleared = d.cleared := rfl
@[simp] theorem Dev.setPage_blank (d : Dev) (p : Nat) (x : Page) : (d.setPage p x).blank = d.blank := rfl
@[simp] theorem Dev.setPage_checks (d : Dev) (p : Nat) (x : Page) : (d.setPage p x).checks = d.checks := rfl
@[simp] theorem Dev.setPage_pub (d : Dev) (p : Nat) (x : Page) : (d.setPage p x).pub = d.pub := rfl
@[simp] theorem Dev.setPage_row (d : Dev) (p : Nat) (x : Page) : (d.setPage p x).row = d.row := rfl
@[simp] theorem Dev.setPage_qps (d : Dev) (p : Nat) (x : Page) : (d.setPage p x).qps = d.qps := rfl
@[simp] theorem Dev.setPage_decided (d : Dev) (p : Nat) (x : Page) : (d.setPage p x).decided = d.decided := rfl
@[simp] theorem Dev.setPage_served (d : Dev) (p : Nat) (x : Page) : (d.setPage p x).served = d.served := rfl
@[simp] theorem Dev.setPage_aborts (d : Dev) (p : Nat) (x : Page) : (d.setPage p x).aborts = d.aborts := rfl
@[simp] theorem Dev.setPage_unpicks (d : Dev) (p : Nat) (x : Page) : (d.setPage p x).unpicks = d.unpicks := rfl
@[simp] theorem Dev.setPage_forces (d : Dev) (p : Nat) (x : Page) : (d.setPage p x).forces = d.forces := rfl
@[simp] theorem Dev.setPage_strands (d : Dev) (p : Nat) (x : Page) : (d.setPage p x).strands = d.strands := rfl
@[simp] theorem Dev.setPage_objs (d : Dev) (p : Nat) (x : Page) : (d.setPage p x).objs = d.objs := rfl
@[simp] theorem Dev.setPage_jobs (d : Dev) (p : Nat) (x : Page) : (d.setPage p x).jobs = d.jobs := rfl
@[simp] theorem Dev.setPage_lanes (d : Dev) (p : Nat) (x : Page) : (d.setPage p x).lanes = d.lanes := rfl
@[simp] theorem Dev.setPage_markers (d : Dev) (p : Nat) (x : Page) : (d.setPage p x).markers = d.markers := rfl
@[simp] theorem Dev.setPage_tiers (d : Dev) (p : Nat) (x : Page) : (d.setPage p x).tiers = d.tiers := rfl
@[simp] theorem Dev.setPage_cores (d : Dev) (p : Nat) (x : Page) : (d.setPage p x).cores = d.cores := rfl
@[simp] theorem Dev.setPage_fault (d : Dev) (p : Nat) (x : Page) : (d.setPage p x).fault = d.fault := rfl
@[simp] theorem Dev.setPage_power (d : Dev) (p : Nat) (x : Page) : (d.setPage p x).power = d.power := rfl
@[simp] theorem Dev.setPage_fw (d : Dev) (p : Nat) (x : Page) : (d.setPage p x).fw = d.fw := rfl
@[simp] theorem Dev.setPage_owed (d : Dev) (p : Nat) (x : Page) : (d.setPage p x).owed = d.owed := rfl
@[simp] theorem Dev.setPage_cas (d : Dev) (p : Nat) (x : Page) : (d.setPage p x).cas = d.cas := rfl
@[simp] theorem Dev.setPage_mgmt (d : Dev) (p : Nat) (x : Page) : (d.setPage p x).mgmt = d.mgmt := rfl
@[simp] theorem Dev.setPage_snapStrands (d : Dev) (p : Nat) (x : Page) : (d.setPage p x).snapStrands = d.snapStrands := rfl
@[simp] theorem Dev.setPage_snapObjs (d : Dev) (p : Nat) (x : Page) : (d.setPage p x).snapObjs = d.snapObjs := rfl
@[simp] theorem Dev.setPage_snapJobs (d : Dev) (p : Nat) (x : Page) : (d.setPage p x).snapJobs = d.snapJobs := rfl
@[simp] theorem Dev.setPage_snapLanes (d : Dev) (p : Nat) (x : Page) : (d.setPage p x).snapLanes = d.snapLanes := rfl
@[simp] theorem Dev.setPage_free (d : Dev) (p : Nat) (x : Page) : (d.setPage p x).free = d.free := rfl
@[simp] theorem Dev.setPage_sent (d : Dev) (p : Nat) (x : Page) : (d.setPage p x).sent = d.sent := rfl
@[simp] theorem Dev.modPage_regs (d : Dev) (p : Nat) (f : Page → Page) : (d.modPage p f).regs = d.regs := rfl
@[simp] theorem Dev.modPage_act (d : Dev) (p : Nat) (f : Page → Page) : (d.modPage p f).act = d.act := rfl
@[simp] theorem Dev.modPage_hold (d : Dev) (p : Nat) (f : Page → Page) : (d.modPage p f).hold = d.hold := rfl
@[simp] theorem Dev.modPage_part (d : Dev) (p : Nat) (f : Page → Page) : (d.modPage p f).part = d.part := rfl
@[simp] theorem Dev.modPage_firsts (d : Dev) (p : Nat) (f : Page → Page) : (d.modPage p f).firsts = d.firsts := rfl
@[simp] theorem Dev.modPage_cleared (d : Dev) (p : Nat) (f : Page → Page) : (d.modPage p f).cleared = d.cleared := rfl
@[simp] theorem Dev.modPage_blank (d : Dev) (p : Nat) (f : Page → Page) : (d.modPage p f).blank = d.blank := rfl
@[simp] theorem Dev.modPage_checks (d : Dev) (p : Nat) (f : Page → Page) : (d.modPage p f).checks = d.checks := rfl
@[simp] theorem Dev.modPage_pub (d : Dev) (p : Nat) (f : Page → Page) : (d.modPage p f).pub = d.pub := rfl
@[simp] theorem Dev.modPage_row (d : Dev) (p : Nat) (f : Page → Page) : (d.modPage p f).row = d.row := rfl
@[simp] theorem Dev.modPage_qps (d : Dev) (p : Nat) (f : Page → Page) : (d.modPage p f).qps = d.qps := rfl
@[simp] theorem Dev.modPage_decided (d : Dev) (p : Nat) (f : Page → Page) : (d.modPage p f).decided = d.decided := rfl
@[simp] theorem Dev.modPage_served (d : Dev) (p : Nat) (f : Page → Page) : (d.modPage p f).served = d.served := rfl
@[simp] theorem Dev.modPage_aborts (d : Dev) (p : Nat) (f : Page → Page) : (d.modPage p f).aborts = d.aborts := rfl
@[simp] theorem Dev.modPage_unpicks (d : Dev) (p : Nat) (f : Page → Page) : (d.modPage p f).unpicks = d.unpicks := rfl
@[simp] theorem Dev.modPage_forces (d : Dev) (p : Nat) (f : Page → Page) : (d.modPage p f).forces = d.forces := rfl
@[simp] theorem Dev.modPage_strands (d : Dev) (p : Nat) (f : Page → Page) : (d.modPage p f).strands = d.strands := rfl
@[simp] theorem Dev.modPage_objs (d : Dev) (p : Nat) (f : Page → Page) : (d.modPage p f).objs = d.objs := rfl
@[simp] theorem Dev.modPage_jobs (d : Dev) (p : Nat) (f : Page → Page) : (d.modPage p f).jobs = d.jobs := rfl
@[simp] theorem Dev.modPage_lanes (d : Dev) (p : Nat) (f : Page → Page) : (d.modPage p f).lanes = d.lanes := rfl
@[simp] theorem Dev.modPage_markers (d : Dev) (p : Nat) (f : Page → Page) : (d.modPage p f).markers = d.markers := rfl
@[simp] theorem Dev.modPage_tiers (d : Dev) (p : Nat) (f : Page → Page) : (d.modPage p f).tiers = d.tiers := rfl
@[simp] theorem Dev.modPage_cores (d : Dev) (p : Nat) (f : Page → Page) : (d.modPage p f).cores = d.cores := rfl
@[simp] theorem Dev.modPage_fault (d : Dev) (p : Nat) (f : Page → Page) : (d.modPage p f).fault = d.fault := rfl
@[simp] theorem Dev.modPage_power (d : Dev) (p : Nat) (f : Page → Page) : (d.modPage p f).power = d.power := rfl
@[simp] theorem Dev.modPage_fw (d : Dev) (p : Nat) (f : Page → Page) : (d.modPage p f).fw = d.fw := rfl
@[simp] theorem Dev.modPage_owed (d : Dev) (p : Nat) (f : Page → Page) : (d.modPage p f).owed = d.owed := rfl
@[simp] theorem Dev.modPage_cas (d : Dev) (p : Nat) (f : Page → Page) : (d.modPage p f).cas = d.cas := rfl
@[simp] theorem Dev.modPage_mgmt (d : Dev) (p : Nat) (f : Page → Page) : (d.modPage p f).mgmt = d.mgmt := rfl
@[simp] theorem Dev.modPage_snapStrands (d : Dev) (p : Nat) (f : Page → Page) : (d.modPage p f).snapStrands = d.snapStrands := rfl
@[simp] theorem Dev.modPage_snapObjs (d : Dev) (p : Nat) (f : Page → Page) : (d.modPage p f).snapObjs = d.snapObjs := rfl
@[simp] theorem Dev.modPage_snapJobs (d : Dev) (p : Nat) (f : Page → Page) : (d.modPage p f).snapJobs = d.snapJobs := rfl
@[simp] theorem Dev.modPage_snapLanes (d : Dev) (p : Nat) (f : Page → Page) : (d.modPage p f).snapLanes = d.snapLanes := rfl
@[simp] theorem Dev.modPage_free (d : Dev) (p : Nat) (f : Page → Page) : (d.modPage p f).free = d.free := rfl
@[simp] theorem Dev.modPage_sent (d : Dev) (p : Nat) (f : Page → Page) : (d.modPage p f).sent = d.sent := rfl
@[simp] theorem Dev.putBits_act (d : Dev) (k hi lo v : Nat) : (d.putBits k hi lo v).act = d.act := rfl
@[simp] theorem Dev.putBits_hold (d : Dev) (k hi lo v : Nat) : (d.putBits k hi lo v).hold = d.hold := rfl
@[simp] theorem Dev.putBits_part (d : Dev) (k hi lo v : Nat) : (d.putBits k hi lo v).part = d.part := rfl
@[simp] theorem Dev.putBits_pages (d : Dev) (k hi lo v : Nat) : (d.putBits k hi lo v).pages = d.pages := rfl
@[simp] theorem Dev.putBits_firsts (d : Dev) (k hi lo v : Nat) : (d.putBits k hi lo v).firsts = d.firsts := rfl
@[simp] theorem Dev.putBits_cleared (d : Dev) (k hi lo v : Nat) : (d.putBits k hi lo v).cleared = d.cleared := rfl
@[simp] theorem Dev.putBits_blank (d : Dev) (k hi lo v : Nat) : (d.putBits k hi lo v).blank = d.blank := rfl
@[simp] theorem Dev.putBits_checks (d : Dev) (k hi lo v : Nat) : (d.putBits k hi lo v).checks = d.checks := rfl
@[simp] theorem Dev.putBits_pub (d : Dev) (k hi lo v : Nat) : (d.putBits k hi lo v).pub = d.pub := rfl
@[simp] theorem Dev.putBits_row (d : Dev) (k hi lo v : Nat) : (d.putBits k hi lo v).row = d.row := rfl
@[simp] theorem Dev.putBits_qps (d : Dev) (k hi lo v : Nat) : (d.putBits k hi lo v).qps = d.qps := rfl
@[simp] theorem Dev.putBits_decided (d : Dev) (k hi lo v : Nat) : (d.putBits k hi lo v).decided = d.decided := rfl
@[simp] theorem Dev.putBits_served (d : Dev) (k hi lo v : Nat) : (d.putBits k hi lo v).served = d.served := rfl
@[simp] theorem Dev.putBits_aborts (d : Dev) (k hi lo v : Nat) : (d.putBits k hi lo v).aborts = d.aborts := rfl
@[simp] theorem Dev.putBits_unpicks (d : Dev) (k hi lo v : Nat) : (d.putBits k hi lo v).unpicks = d.unpicks := rfl
@[simp] theorem Dev.putBits_forces (d : Dev) (k hi lo v : Nat) : (d.putBits k hi lo v).forces = d.forces := rfl
@[simp] theorem Dev.putBits_strands (d : Dev) (k hi lo v : Nat) : (d.putBits k hi lo v).strands = d.strands := rfl
@[simp] theorem Dev.putBits_objs (d : Dev) (k hi lo v : Nat) : (d.putBits k hi lo v).objs = d.objs := rfl
@[simp] theorem Dev.putBits_jobs (d : Dev) (k hi lo v : Nat) : (d.putBits k hi lo v).jobs = d.jobs := rfl
@[simp] theorem Dev.putBits_lanes (d : Dev) (k hi lo v : Nat) : (d.putBits k hi lo v).lanes = d.lanes := rfl
@[simp] theorem Dev.putBits_markers (d : Dev) (k hi lo v : Nat) : (d.putBits k hi lo v).markers = d.markers := rfl
@[simp] theorem Dev.putBits_tiers (d : Dev) (k hi lo v : Nat) : (d.putBits k hi lo v).tiers = d.tiers := rfl
@[simp] theorem Dev.putBits_cores (d : Dev) (k hi lo v : Nat) : (d.putBits k hi lo v).cores = d.cores := rfl
@[simp] theorem Dev.putBits_fault (d : Dev) (k hi lo v : Nat) : (d.putBits k hi lo v).fault = d.fault := rfl
@[simp] theorem Dev.putBits_power (d : Dev) (k hi lo v : Nat) : (d.putBits k hi lo v).power = d.power := rfl
@[simp] theorem Dev.putBits_fw (d : Dev) (k hi lo v : Nat) : (d.putBits k hi lo v).fw = d.fw := rfl
@[simp] theorem Dev.putBits_owed (d : Dev) (k hi lo v : Nat) : (d.putBits k hi lo v).owed = d.owed := rfl
@[simp] theorem Dev.putBits_cas (d : Dev) (k hi lo v : Nat) : (d.putBits k hi lo v).cas = d.cas := rfl
@[simp] theorem Dev.putBits_mgmt (d : Dev) (k hi lo v : Nat) : (d.putBits k hi lo v).mgmt = d.mgmt := rfl
@[simp] theorem Dev.putBits_snapStrands (d : Dev) (k hi lo v : Nat) : (d.putBits k hi lo v).snapStrands = d.snapStrands := rfl
@[simp] theorem Dev.putBits_snapObjs (d : Dev) (k hi lo v : Nat) : (d.putBits k hi lo v).snapObjs = d.snapObjs := rfl
@[simp] theorem Dev.putBits_snapJobs (d : Dev) (k hi lo v : Nat) : (d.putBits k hi lo v).snapJobs = d.snapJobs := rfl
@[simp] theorem Dev.putBits_snapLanes (d : Dev) (k hi lo v : Nat) : (d.putBits k hi lo v).snapLanes = d.snapLanes := rfl
@[simp] theorem Dev.putBits_free (d : Dev) (k hi lo v : Nat) : (d.putBits k hi lo v).free = d.free := rfl
@[simp] theorem Dev.putBits_sent (d : Dev) (k hi lo v : Nat) : (d.putBits k hi lo v).sent = d.sent := rfl
@[simp] theorem Dev.put64_act (d : Dev) (k v : Nat) : (d.put64 k v).act = d.act := rfl
@[simp] theorem Dev.put64_hold (d : Dev) (k v : Nat) : (d.put64 k v).hold = d.hold := rfl
@[simp] theorem Dev.put64_part (d : Dev) (k v : Nat) : (d.put64 k v).part = d.part := rfl
@[simp] theorem Dev.put64_pages (d : Dev) (k v : Nat) : (d.put64 k v).pages = d.pages := rfl
@[simp] theorem Dev.put64_firsts (d : Dev) (k v : Nat) : (d.put64 k v).firsts = d.firsts := rfl
@[simp] theorem Dev.put64_cleared (d : Dev) (k v : Nat) : (d.put64 k v).cleared = d.cleared := rfl
@[simp] theorem Dev.put64_blank (d : Dev) (k v : Nat) : (d.put64 k v).blank = d.blank := rfl
@[simp] theorem Dev.put64_checks (d : Dev) (k v : Nat) : (d.put64 k v).checks = d.checks := rfl
@[simp] theorem Dev.put64_pub (d : Dev) (k v : Nat) : (d.put64 k v).pub = d.pub := rfl
@[simp] theorem Dev.put64_row (d : Dev) (k v : Nat) : (d.put64 k v).row = d.row := rfl
@[simp] theorem Dev.put64_qps (d : Dev) (k v : Nat) : (d.put64 k v).qps = d.qps := rfl
@[simp] theorem Dev.put64_decided (d : Dev) (k v : Nat) : (d.put64 k v).decided = d.decided := rfl
@[simp] theorem Dev.put64_served (d : Dev) (k v : Nat) : (d.put64 k v).served = d.served := rfl
@[simp] theorem Dev.put64_aborts (d : Dev) (k v : Nat) : (d.put64 k v).aborts = d.aborts := rfl
@[simp] theorem Dev.put64_unpicks (d : Dev) (k v : Nat) : (d.put64 k v).unpicks = d.unpicks := rfl
@[simp] theorem Dev.put64_forces (d : Dev) (k v : Nat) : (d.put64 k v).forces = d.forces := rfl
@[simp] theorem Dev.put64_strands (d : Dev) (k v : Nat) : (d.put64 k v).strands = d.strands := rfl
@[simp] theorem Dev.put64_objs (d : Dev) (k v : Nat) : (d.put64 k v).objs = d.objs := rfl
@[simp] theorem Dev.put64_jobs (d : Dev) (k v : Nat) : (d.put64 k v).jobs = d.jobs := rfl
@[simp] theorem Dev.put64_lanes (d : Dev) (k v : Nat) : (d.put64 k v).lanes = d.lanes := rfl
@[simp] theorem Dev.put64_markers (d : Dev) (k v : Nat) : (d.put64 k v).markers = d.markers := rfl
@[simp] theorem Dev.put64_tiers (d : Dev) (k v : Nat) : (d.put64 k v).tiers = d.tiers := rfl
@[simp] theorem Dev.put64_cores (d : Dev) (k v : Nat) : (d.put64 k v).cores = d.cores := rfl
@[simp] theorem Dev.put64_fault (d : Dev) (k v : Nat) : (d.put64 k v).fault = d.fault := rfl
@[simp] theorem Dev.put64_power (d : Dev) (k v : Nat) : (d.put64 k v).power = d.power := rfl
@[simp] theorem Dev.put64_fw (d : Dev) (k v : Nat) : (d.put64 k v).fw = d.fw := rfl
@[simp] theorem Dev.put64_owed (d : Dev) (k v : Nat) : (d.put64 k v).owed = d.owed := rfl
@[simp] theorem Dev.put64_cas (d : Dev) (k v : Nat) : (d.put64 k v).cas = d.cas := rfl
@[simp] theorem Dev.put64_mgmt (d : Dev) (k v : Nat) : (d.put64 k v).mgmt = d.mgmt := rfl
@[simp] theorem Dev.put64_snapStrands (d : Dev) (k v : Nat) : (d.put64 k v).snapStrands = d.snapStrands := rfl
@[simp] theorem Dev.put64_snapObjs (d : Dev) (k v : Nat) : (d.put64 k v).snapObjs = d.snapObjs := rfl
@[simp] theorem Dev.put64_snapJobs (d : Dev) (k v : Nat) : (d.put64 k v).snapJobs = d.snapJobs := rfl
@[simp] theorem Dev.put64_snapLanes (d : Dev) (k v : Nat) : (d.put64 k v).snapLanes = d.snapLanes := rfl
@[simp] theorem Dev.put64_free (d : Dev) (k v : Nat) : (d.put64 k v).free = d.free := rfl
@[simp] theorem Dev.put64_sent (d : Dev) (k v : Nat) : (d.put64 k v).sent = d.sent := rfl
@[simp] theorem Dev.emit_regs (d : Dev) (o : Out) : (d.emit o).regs = d.regs := rfl
@[simp] theorem Dev.emit_act (d : Dev) (o : Out) : (d.emit o).act = d.act := rfl
@[simp] theorem Dev.emit_hold (d : Dev) (o : Out) : (d.emit o).hold = d.hold := rfl
@[simp] theorem Dev.emit_part (d : Dev) (o : Out) : (d.emit o).part = d.part := rfl
@[simp] theorem Dev.emit_pages (d : Dev) (o : Out) : (d.emit o).pages = d.pages := rfl
@[simp] theorem Dev.emit_firsts (d : Dev) (o : Out) : (d.emit o).firsts = d.firsts := rfl
@[simp] theorem Dev.emit_cleared (d : Dev) (o : Out) : (d.emit o).cleared = d.cleared := rfl
@[simp] theorem Dev.emit_blank (d : Dev) (o : Out) : (d.emit o).blank = d.blank := rfl
@[simp] theorem Dev.emit_checks (d : Dev) (o : Out) : (d.emit o).checks = d.checks := rfl
@[simp] theorem Dev.emit_pub (d : Dev) (o : Out) : (d.emit o).pub = d.pub := rfl
@[simp] theorem Dev.emit_row (d : Dev) (o : Out) : (d.emit o).row = d.row := rfl
@[simp] theorem Dev.emit_qps (d : Dev) (o : Out) : (d.emit o).qps = d.qps := rfl
@[simp] theorem Dev.emit_decided (d : Dev) (o : Out) : (d.emit o).decided = d.decided := rfl
@[simp] theorem Dev.emit_served (d : Dev) (o : Out) : (d.emit o).served = d.served := rfl
@[simp] theorem Dev.emit_aborts (d : Dev) (o : Out) : (d.emit o).aborts = d.aborts := rfl
@[simp] theorem Dev.emit_unpicks (d : Dev) (o : Out) : (d.emit o).unpicks = d.unpicks := rfl
@[simp] theorem Dev.emit_forces (d : Dev) (o : Out) : (d.emit o).forces = d.forces := rfl
@[simp] theorem Dev.emit_strands (d : Dev) (o : Out) : (d.emit o).strands = d.strands := rfl
@[simp] theorem Dev.emit_objs (d : Dev) (o : Out) : (d.emit o).objs = d.objs := rfl
@[simp] theorem Dev.emit_jobs (d : Dev) (o : Out) : (d.emit o).jobs = d.jobs := rfl
@[simp] theorem Dev.emit_lanes (d : Dev) (o : Out) : (d.emit o).lanes = d.lanes := rfl
@[simp] theorem Dev.emit_markers (d : Dev) (o : Out) : (d.emit o).markers = d.markers := rfl
@[simp] theorem Dev.emit_tiers (d : Dev) (o : Out) : (d.emit o).tiers = d.tiers := rfl
@[simp] theorem Dev.emit_cores (d : Dev) (o : Out) : (d.emit o).cores = d.cores := rfl
@[simp] theorem Dev.emit_fault (d : Dev) (o : Out) : (d.emit o).fault = d.fault := rfl
@[simp] theorem Dev.emit_power (d : Dev) (o : Out) : (d.emit o).power = d.power := rfl
@[simp] theorem Dev.emit_fw (d : Dev) (o : Out) : (d.emit o).fw = d.fw := rfl
@[simp] theorem Dev.emit_owed (d : Dev) (o : Out) : (d.emit o).owed = d.owed := rfl
@[simp] theorem Dev.emit_cas (d : Dev) (o : Out) : (d.emit o).cas = d.cas := rfl
@[simp] theorem Dev.emit_mgmt (d : Dev) (o : Out) : (d.emit o).mgmt = d.mgmt := rfl
@[simp] theorem Dev.emit_snapStrands (d : Dev) (o : Out) : (d.emit o).snapStrands = d.snapStrands := rfl
@[simp] theorem Dev.emit_snapObjs (d : Dev) (o : Out) : (d.emit o).snapObjs = d.snapObjs := rfl
@[simp] theorem Dev.emit_snapJobs (d : Dev) (o : Out) : (d.emit o).snapJobs = d.snapJobs := rfl
@[simp] theorem Dev.emit_snapLanes (d : Dev) (o : Out) : (d.emit o).snapLanes = d.snapLanes := rfl
@[simp] theorem Dev.emit_free (d : Dev) (o : Out) : (d.emit o).free = d.free := rfl
@[simp] theorem Dev.setQp_regs (d : Dev) (q : QRef) (x : Qp) : (d.setQp q x).regs = d.regs := rfl
@[simp] theorem Dev.setQp_act (d : Dev) (q : QRef) (x : Qp) : (d.setQp q x).act = d.act := rfl
@[simp] theorem Dev.setQp_hold (d : Dev) (q : QRef) (x : Qp) : (d.setQp q x).hold = d.hold := rfl
@[simp] theorem Dev.setQp_part (d : Dev) (q : QRef) (x : Qp) : (d.setQp q x).part = d.part := rfl
@[simp] theorem Dev.setQp_pages (d : Dev) (q : QRef) (x : Qp) : (d.setQp q x).pages = d.pages := rfl
@[simp] theorem Dev.setQp_firsts (d : Dev) (q : QRef) (x : Qp) : (d.setQp q x).firsts = d.firsts := rfl
@[simp] theorem Dev.setQp_cleared (d : Dev) (q : QRef) (x : Qp) : (d.setQp q x).cleared = d.cleared := rfl
@[simp] theorem Dev.setQp_blank (d : Dev) (q : QRef) (x : Qp) : (d.setQp q x).blank = d.blank := rfl
@[simp] theorem Dev.setQp_checks (d : Dev) (q : QRef) (x : Qp) : (d.setQp q x).checks = d.checks := rfl
@[simp] theorem Dev.setQp_pub (d : Dev) (q : QRef) (x : Qp) : (d.setQp q x).pub = d.pub := rfl
@[simp] theorem Dev.setQp_row (d : Dev) (q : QRef) (x : Qp) : (d.setQp q x).row = d.row := rfl
@[simp] theorem Dev.setQp_decided (d : Dev) (q : QRef) (x : Qp) : (d.setQp q x).decided = d.decided := rfl
@[simp] theorem Dev.setQp_served (d : Dev) (q : QRef) (x : Qp) : (d.setQp q x).served = d.served := rfl
@[simp] theorem Dev.setQp_aborts (d : Dev) (q : QRef) (x : Qp) : (d.setQp q x).aborts = d.aborts := rfl
@[simp] theorem Dev.setQp_unpicks (d : Dev) (q : QRef) (x : Qp) : (d.setQp q x).unpicks = d.unpicks := rfl
@[simp] theorem Dev.setQp_forces (d : Dev) (q : QRef) (x : Qp) : (d.setQp q x).forces = d.forces := rfl
@[simp] theorem Dev.setQp_strands (d : Dev) (q : QRef) (x : Qp) : (d.setQp q x).strands = d.strands := rfl
@[simp] theorem Dev.setQp_objs (d : Dev) (q : QRef) (x : Qp) : (d.setQp q x).objs = d.objs := rfl
@[simp] theorem Dev.setQp_jobs (d : Dev) (q : QRef) (x : Qp) : (d.setQp q x).jobs = d.jobs := rfl
@[simp] theorem Dev.setQp_lanes (d : Dev) (q : QRef) (x : Qp) : (d.setQp q x).lanes = d.lanes := rfl
@[simp] theorem Dev.setQp_markers (d : Dev) (q : QRef) (x : Qp) : (d.setQp q x).markers = d.markers := rfl
@[simp] theorem Dev.setQp_tiers (d : Dev) (q : QRef) (x : Qp) : (d.setQp q x).tiers = d.tiers := rfl
@[simp] theorem Dev.setQp_cores (d : Dev) (q : QRef) (x : Qp) : (d.setQp q x).cores = d.cores := rfl
@[simp] theorem Dev.setQp_fault (d : Dev) (q : QRef) (x : Qp) : (d.setQp q x).fault = d.fault := rfl
@[simp] theorem Dev.setQp_power (d : Dev) (q : QRef) (x : Qp) : (d.setQp q x).power = d.power := rfl
@[simp] theorem Dev.setQp_fw (d : Dev) (q : QRef) (x : Qp) : (d.setQp q x).fw = d.fw := rfl
@[simp] theorem Dev.setQp_owed (d : Dev) (q : QRef) (x : Qp) : (d.setQp q x).owed = d.owed := rfl
@[simp] theorem Dev.setQp_cas (d : Dev) (q : QRef) (x : Qp) : (d.setQp q x).cas = d.cas := rfl
@[simp] theorem Dev.setQp_mgmt (d : Dev) (q : QRef) (x : Qp) : (d.setQp q x).mgmt = d.mgmt := rfl
@[simp] theorem Dev.setQp_snapStrands (d : Dev) (q : QRef) (x : Qp) : (d.setQp q x).snapStrands = d.snapStrands := rfl
@[simp] theorem Dev.setQp_snapObjs (d : Dev) (q : QRef) (x : Qp) : (d.setQp q x).snapObjs = d.snapObjs := rfl
@[simp] theorem Dev.setQp_snapJobs (d : Dev) (q : QRef) (x : Qp) : (d.setQp q x).snapJobs = d.snapJobs := rfl
@[simp] theorem Dev.setQp_snapLanes (d : Dev) (q : QRef) (x : Qp) : (d.setQp q x).snapLanes = d.snapLanes := rfl
@[simp] theorem Dev.setQp_free (d : Dev) (q : QRef) (x : Qp) : (d.setQp q x).free = d.free := rfl
@[simp] theorem Dev.setQp_sent (d : Dev) (q : QRef) (x : Qp) : (d.setQp q x).sent = d.sent := rfl
@[simp] theorem Dev.modQp_regs (d : Dev) (q : QRef) (f : Qp → Qp) : (d.modQp q f).regs = d.regs := rfl
@[simp] theorem Dev.modQp_act (d : Dev) (q : QRef) (f : Qp → Qp) : (d.modQp q f).act = d.act := rfl
@[simp] theorem Dev.modQp_hold (d : Dev) (q : QRef) (f : Qp → Qp) : (d.modQp q f).hold = d.hold := rfl
@[simp] theorem Dev.modQp_part (d : Dev) (q : QRef) (f : Qp → Qp) : (d.modQp q f).part = d.part := rfl
@[simp] theorem Dev.modQp_pages (d : Dev) (q : QRef) (f : Qp → Qp) : (d.modQp q f).pages = d.pages := rfl
@[simp] theorem Dev.modQp_firsts (d : Dev) (q : QRef) (f : Qp → Qp) : (d.modQp q f).firsts = d.firsts := rfl
@[simp] theorem Dev.modQp_cleared (d : Dev) (q : QRef) (f : Qp → Qp) : (d.modQp q f).cleared = d.cleared := rfl
@[simp] theorem Dev.modQp_blank (d : Dev) (q : QRef) (f : Qp → Qp) : (d.modQp q f).blank = d.blank := rfl
@[simp] theorem Dev.modQp_checks (d : Dev) (q : QRef) (f : Qp → Qp) : (d.modQp q f).checks = d.checks := rfl
@[simp] theorem Dev.modQp_pub (d : Dev) (q : QRef) (f : Qp → Qp) : (d.modQp q f).pub = d.pub := rfl
@[simp] theorem Dev.modQp_row (d : Dev) (q : QRef) (f : Qp → Qp) : (d.modQp q f).row = d.row := rfl
@[simp] theorem Dev.modQp_decided (d : Dev) (q : QRef) (f : Qp → Qp) : (d.modQp q f).decided = d.decided := rfl
@[simp] theorem Dev.modQp_served (d : Dev) (q : QRef) (f : Qp → Qp) : (d.modQp q f).served = d.served := rfl
@[simp] theorem Dev.modQp_aborts (d : Dev) (q : QRef) (f : Qp → Qp) : (d.modQp q f).aborts = d.aborts := rfl
@[simp] theorem Dev.modQp_unpicks (d : Dev) (q : QRef) (f : Qp → Qp) : (d.modQp q f).unpicks = d.unpicks := rfl
@[simp] theorem Dev.modQp_forces (d : Dev) (q : QRef) (f : Qp → Qp) : (d.modQp q f).forces = d.forces := rfl
@[simp] theorem Dev.modQp_strands (d : Dev) (q : QRef) (f : Qp → Qp) : (d.modQp q f).strands = d.strands := rfl
@[simp] theorem Dev.modQp_objs (d : Dev) (q : QRef) (f : Qp → Qp) : (d.modQp q f).objs = d.objs := rfl
@[simp] theorem Dev.modQp_jobs (d : Dev) (q : QRef) (f : Qp → Qp) : (d.modQp q f).jobs = d.jobs := rfl
@[simp] theorem Dev.modQp_lanes (d : Dev) (q : QRef) (f : Qp → Qp) : (d.modQp q f).lanes = d.lanes := rfl
@[simp] theorem Dev.modQp_markers (d : Dev) (q : QRef) (f : Qp → Qp) : (d.modQp q f).markers = d.markers := rfl
@[simp] theorem Dev.modQp_tiers (d : Dev) (q : QRef) (f : Qp → Qp) : (d.modQp q f).tiers = d.tiers := rfl
@[simp] theorem Dev.modQp_cores (d : Dev) (q : QRef) (f : Qp → Qp) : (d.modQp q f).cores = d.cores := rfl
@[simp] theorem Dev.modQp_fault (d : Dev) (q : QRef) (f : Qp → Qp) : (d.modQp q f).fault = d.fault := rfl
@[simp] theorem Dev.modQp_power (d : Dev) (q : QRef) (f : Qp → Qp) : (d.modQp q f).power = d.power := rfl
@[simp] theorem Dev.modQp_fw (d : Dev) (q : QRef) (f : Qp → Qp) : (d.modQp q f).fw = d.fw := rfl
@[simp] theorem Dev.modQp_owed (d : Dev) (q : QRef) (f : Qp → Qp) : (d.modQp q f).owed = d.owed := rfl
@[simp] theorem Dev.modQp_cas (d : Dev) (q : QRef) (f : Qp → Qp) : (d.modQp q f).cas = d.cas := rfl
@[simp] theorem Dev.modQp_mgmt (d : Dev) (q : QRef) (f : Qp → Qp) : (d.modQp q f).mgmt = d.mgmt := rfl
@[simp] theorem Dev.modQp_snapStrands (d : Dev) (q : QRef) (f : Qp → Qp) : (d.modQp q f).snapStrands = d.snapStrands := rfl
@[simp] theorem Dev.modQp_snapObjs (d : Dev) (q : QRef) (f : Qp → Qp) : (d.modQp q f).snapObjs = d.snapObjs := rfl
@[simp] theorem Dev.modQp_snapJobs (d : Dev) (q : QRef) (f : Qp → Qp) : (d.modQp q f).snapJobs = d.snapJobs := rfl
@[simp] theorem Dev.modQp_snapLanes (d : Dev) (q : QRef) (f : Qp → Qp) : (d.modQp q f).snapLanes = d.snapLanes := rfl
@[simp] theorem Dev.modQp_free (d : Dev) (q : QRef) (f : Qp → Qp) : (d.modQp q f).free = d.free := rfl
@[simp] theorem Dev.modQp_sent (d : Dev) (q : QRef) (f : Qp → Qp) : (d.modQp q f).sent = d.sent := rfl
@[simp] theorem Dev.setObj_regs (d : Dev) (h : Nat) (o : Obj) : (d.setObj h o).regs = d.regs := rfl
@[simp] theorem Dev.setObj_act (d : Dev) (h : Nat) (o : Obj) : (d.setObj h o).act = d.act := rfl
@[simp] theorem Dev.setObj_hold (d : Dev) (h : Nat) (o : Obj) : (d.setObj h o).hold = d.hold := rfl
@[simp] theorem Dev.setObj_part (d : Dev) (h : Nat) (o : Obj) : (d.setObj h o).part = d.part := rfl
@[simp] theorem Dev.setObj_pages (d : Dev) (h : Nat) (o : Obj) : (d.setObj h o).pages = d.pages := rfl
@[simp] theorem Dev.setObj_firsts (d : Dev) (h : Nat) (o : Obj) : (d.setObj h o).firsts = d.firsts := rfl
@[simp] theorem Dev.setObj_cleared (d : Dev) (h : Nat) (o : Obj) : (d.setObj h o).cleared = d.cleared := rfl
@[simp] theorem Dev.setObj_blank (d : Dev) (h : Nat) (o : Obj) : (d.setObj h o).blank = d.blank := rfl
@[simp] theorem Dev.setObj_checks (d : Dev) (h : Nat) (o : Obj) : (d.setObj h o).checks = d.checks := rfl
@[simp] theorem Dev.setObj_pub (d : Dev) (h : Nat) (o : Obj) : (d.setObj h o).pub = d.pub := rfl
@[simp] theorem Dev.setObj_row (d : Dev) (h : Nat) (o : Obj) : (d.setObj h o).row = d.row := rfl
@[simp] theorem Dev.setObj_qps (d : Dev) (h : Nat) (o : Obj) : (d.setObj h o).qps = d.qps := rfl
@[simp] theorem Dev.setObj_decided (d : Dev) (h : Nat) (o : Obj) : (d.setObj h o).decided = d.decided := rfl
@[simp] theorem Dev.setObj_served (d : Dev) (h : Nat) (o : Obj) : (d.setObj h o).served = d.served := rfl
@[simp] theorem Dev.setObj_aborts (d : Dev) (h : Nat) (o : Obj) : (d.setObj h o).aborts = d.aborts := rfl
@[simp] theorem Dev.setObj_unpicks (d : Dev) (h : Nat) (o : Obj) : (d.setObj h o).unpicks = d.unpicks := rfl
@[simp] theorem Dev.setObj_forces (d : Dev) (h : Nat) (o : Obj) : (d.setObj h o).forces = d.forces := rfl
@[simp] theorem Dev.setObj_strands (d : Dev) (h : Nat) (o : Obj) : (d.setObj h o).strands = d.strands := rfl
@[simp] theorem Dev.setObj_jobs (d : Dev) (h : Nat) (o : Obj) : (d.setObj h o).jobs = d.jobs := rfl
@[simp] theorem Dev.setObj_lanes (d : Dev) (h : Nat) (o : Obj) : (d.setObj h o).lanes = d.lanes := rfl
@[simp] theorem Dev.setObj_markers (d : Dev) (h : Nat) (o : Obj) : (d.setObj h o).markers = d.markers := rfl
@[simp] theorem Dev.setObj_tiers (d : Dev) (h : Nat) (o : Obj) : (d.setObj h o).tiers = d.tiers := rfl
@[simp] theorem Dev.setObj_cores (d : Dev) (h : Nat) (o : Obj) : (d.setObj h o).cores = d.cores := rfl
@[simp] theorem Dev.setObj_fault (d : Dev) (h : Nat) (o : Obj) : (d.setObj h o).fault = d.fault := rfl
@[simp] theorem Dev.setObj_power (d : Dev) (h : Nat) (o : Obj) : (d.setObj h o).power = d.power := rfl
@[simp] theorem Dev.setObj_fw (d : Dev) (h : Nat) (o : Obj) : (d.setObj h o).fw = d.fw := rfl
@[simp] theorem Dev.setObj_owed (d : Dev) (h : Nat) (o : Obj) : (d.setObj h o).owed = d.owed := rfl
@[simp] theorem Dev.setObj_cas (d : Dev) (h : Nat) (o : Obj) : (d.setObj h o).cas = d.cas := rfl
@[simp] theorem Dev.setObj_mgmt (d : Dev) (h : Nat) (o : Obj) : (d.setObj h o).mgmt = d.mgmt := rfl
@[simp] theorem Dev.setObj_snapStrands (d : Dev) (h : Nat) (o : Obj) : (d.setObj h o).snapStrands = d.snapStrands := rfl
@[simp] theorem Dev.setObj_snapObjs (d : Dev) (h : Nat) (o : Obj) : (d.setObj h o).snapObjs = d.snapObjs := rfl
@[simp] theorem Dev.setObj_snapJobs (d : Dev) (h : Nat) (o : Obj) : (d.setObj h o).snapJobs = d.snapJobs := rfl
@[simp] theorem Dev.setObj_snapLanes (d : Dev) (h : Nat) (o : Obj) : (d.setObj h o).snapLanes = d.snapLanes := rfl
@[simp] theorem Dev.setObj_free (d : Dev) (h : Nat) (o : Obj) : (d.setObj h o).free = d.free := rfl
@[simp] theorem Dev.setObj_sent (d : Dev) (h : Nat) (o : Obj) : (d.setObj h o).sent = d.sent := rfl
@[simp] theorem Dev.setMarker_regs (d : Dev) (i : Nat) (m : Marker) : (d.setMarker i m).regs = d.regs := rfl
@[simp] theorem Dev.setMarker_act (d : Dev) (i : Nat) (m : Marker) : (d.setMarker i m).act = d.act := rfl
@[simp] theorem Dev.setMarker_hold (d : Dev) (i : Nat) (m : Marker) : (d.setMarker i m).hold = d.hold := rfl
@[simp] theorem Dev.setMarker_part (d : Dev) (i : Nat) (m : Marker) : (d.setMarker i m).part = d.part := rfl
@[simp] theorem Dev.setMarker_pages (d : Dev) (i : Nat) (m : Marker) : (d.setMarker i m).pages = d.pages := rfl
@[simp] theorem Dev.setMarker_firsts (d : Dev) (i : Nat) (m : Marker) : (d.setMarker i m).firsts = d.firsts := rfl
@[simp] theorem Dev.setMarker_cleared (d : Dev) (i : Nat) (m : Marker) : (d.setMarker i m).cleared = d.cleared := rfl
@[simp] theorem Dev.setMarker_blank (d : Dev) (i : Nat) (m : Marker) : (d.setMarker i m).blank = d.blank := rfl
@[simp] theorem Dev.setMarker_checks (d : Dev) (i : Nat) (m : Marker) : (d.setMarker i m).checks = d.checks := rfl
@[simp] theorem Dev.setMarker_pub (d : Dev) (i : Nat) (m : Marker) : (d.setMarker i m).pub = d.pub := rfl
@[simp] theorem Dev.setMarker_row (d : Dev) (i : Nat) (m : Marker) : (d.setMarker i m).row = d.row := rfl
@[simp] theorem Dev.setMarker_qps (d : Dev) (i : Nat) (m : Marker) : (d.setMarker i m).qps = d.qps := rfl
@[simp] theorem Dev.setMarker_decided (d : Dev) (i : Nat) (m : Marker) : (d.setMarker i m).decided = d.decided := rfl
@[simp] theorem Dev.setMarker_served (d : Dev) (i : Nat) (m : Marker) : (d.setMarker i m).served = d.served := rfl
@[simp] theorem Dev.setMarker_aborts (d : Dev) (i : Nat) (m : Marker) : (d.setMarker i m).aborts = d.aborts := rfl
@[simp] theorem Dev.setMarker_unpicks (d : Dev) (i : Nat) (m : Marker) : (d.setMarker i m).unpicks = d.unpicks := rfl
@[simp] theorem Dev.setMarker_forces (d : Dev) (i : Nat) (m : Marker) : (d.setMarker i m).forces = d.forces := rfl
@[simp] theorem Dev.setMarker_strands (d : Dev) (i : Nat) (m : Marker) : (d.setMarker i m).strands = d.strands := rfl
@[simp] theorem Dev.setMarker_objs (d : Dev) (i : Nat) (m : Marker) : (d.setMarker i m).objs = d.objs := rfl
@[simp] theorem Dev.setMarker_jobs (d : Dev) (i : Nat) (m : Marker) : (d.setMarker i m).jobs = d.jobs := rfl
@[simp] theorem Dev.setMarker_lanes (d : Dev) (i : Nat) (m : Marker) : (d.setMarker i m).lanes = d.lanes := rfl
@[simp] theorem Dev.setMarker_tiers (d : Dev) (i : Nat) (m : Marker) : (d.setMarker i m).tiers = d.tiers := rfl
@[simp] theorem Dev.setMarker_cores (d : Dev) (i : Nat) (m : Marker) : (d.setMarker i m).cores = d.cores := rfl
@[simp] theorem Dev.setMarker_fault (d : Dev) (i : Nat) (m : Marker) : (d.setMarker i m).fault = d.fault := rfl
@[simp] theorem Dev.setMarker_power (d : Dev) (i : Nat) (m : Marker) : (d.setMarker i m).power = d.power := rfl
@[simp] theorem Dev.setMarker_fw (d : Dev) (i : Nat) (m : Marker) : (d.setMarker i m).fw = d.fw := rfl
@[simp] theorem Dev.setMarker_owed (d : Dev) (i : Nat) (m : Marker) : (d.setMarker i m).owed = d.owed := rfl
@[simp] theorem Dev.setMarker_cas (d : Dev) (i : Nat) (m : Marker) : (d.setMarker i m).cas = d.cas := rfl
@[simp] theorem Dev.setMarker_mgmt (d : Dev) (i : Nat) (m : Marker) : (d.setMarker i m).mgmt = d.mgmt := rfl
@[simp] theorem Dev.setMarker_snapStrands (d : Dev) (i : Nat) (m : Marker) : (d.setMarker i m).snapStrands = d.snapStrands := rfl
@[simp] theorem Dev.setMarker_snapObjs (d : Dev) (i : Nat) (m : Marker) : (d.setMarker i m).snapObjs = d.snapObjs := rfl
@[simp] theorem Dev.setMarker_snapJobs (d : Dev) (i : Nat) (m : Marker) : (d.setMarker i m).snapJobs = d.snapJobs := rfl
@[simp] theorem Dev.setMarker_snapLanes (d : Dev) (i : Nat) (m : Marker) : (d.setMarker i m).snapLanes = d.snapLanes := rfl
@[simp] theorem Dev.setMarker_free (d : Dev) (i : Nat) (m : Marker) : (d.setMarker i m).free = d.free := rfl
@[simp] theorem Dev.setMarker_sent (d : Dev) (i : Nat) (m : Marker) : (d.setMarker i m).sent = d.sent := rfl
@[simp] theorem Dev.modSlot_regs (d : Dev) (i : Nat) (f : Slot → Slot) : (d.modSlot i f).regs = d.regs := rfl
@[simp] theorem Dev.modSlot_act (d : Dev) (i : Nat) (f : Slot → Slot) : (d.modSlot i f).act = d.act := rfl
@[simp] theorem Dev.modSlot_hold (d : Dev) (i : Nat) (f : Slot → Slot) : (d.modSlot i f).hold = d.hold := rfl
@[simp] theorem Dev.modSlot_part (d : Dev) (i : Nat) (f : Slot → Slot) : (d.modSlot i f).part = d.part := rfl
@[simp] theorem Dev.modSlot_pages (d : Dev) (i : Nat) (f : Slot → Slot) : (d.modSlot i f).pages = d.pages := rfl
@[simp] theorem Dev.modSlot_firsts (d : Dev) (i : Nat) (f : Slot → Slot) : (d.modSlot i f).firsts = d.firsts := rfl
@[simp] theorem Dev.modSlot_cleared (d : Dev) (i : Nat) (f : Slot → Slot) : (d.modSlot i f).cleared = d.cleared := rfl
@[simp] theorem Dev.modSlot_blank (d : Dev) (i : Nat) (f : Slot → Slot) : (d.modSlot i f).blank = d.blank := rfl
@[simp] theorem Dev.modSlot_checks (d : Dev) (i : Nat) (f : Slot → Slot) : (d.modSlot i f).checks = d.checks := rfl
@[simp] theorem Dev.modSlot_pub (d : Dev) (i : Nat) (f : Slot → Slot) : (d.modSlot i f).pub = d.pub := rfl
@[simp] theorem Dev.modSlot_qps (d : Dev) (i : Nat) (f : Slot → Slot) : (d.modSlot i f).qps = d.qps := rfl
@[simp] theorem Dev.modSlot_decided (d : Dev) (i : Nat) (f : Slot → Slot) : (d.modSlot i f).decided = d.decided := rfl
@[simp] theorem Dev.modSlot_served (d : Dev) (i : Nat) (f : Slot → Slot) : (d.modSlot i f).served = d.served := rfl
@[simp] theorem Dev.modSlot_aborts (d : Dev) (i : Nat) (f : Slot → Slot) : (d.modSlot i f).aborts = d.aborts := rfl
@[simp] theorem Dev.modSlot_unpicks (d : Dev) (i : Nat) (f : Slot → Slot) : (d.modSlot i f).unpicks = d.unpicks := rfl
@[simp] theorem Dev.modSlot_forces (d : Dev) (i : Nat) (f : Slot → Slot) : (d.modSlot i f).forces = d.forces := rfl
@[simp] theorem Dev.modSlot_strands (d : Dev) (i : Nat) (f : Slot → Slot) : (d.modSlot i f).strands = d.strands := rfl
@[simp] theorem Dev.modSlot_objs (d : Dev) (i : Nat) (f : Slot → Slot) : (d.modSlot i f).objs = d.objs := rfl
@[simp] theorem Dev.modSlot_jobs (d : Dev) (i : Nat) (f : Slot → Slot) : (d.modSlot i f).jobs = d.jobs := rfl
@[simp] theorem Dev.modSlot_lanes (d : Dev) (i : Nat) (f : Slot → Slot) : (d.modSlot i f).lanes = d.lanes := rfl
@[simp] theorem Dev.modSlot_markers (d : Dev) (i : Nat) (f : Slot → Slot) : (d.modSlot i f).markers = d.markers := rfl
@[simp] theorem Dev.modSlot_tiers (d : Dev) (i : Nat) (f : Slot → Slot) : (d.modSlot i f).tiers = d.tiers := rfl
@[simp] theorem Dev.modSlot_cores (d : Dev) (i : Nat) (f : Slot → Slot) : (d.modSlot i f).cores = d.cores := rfl
@[simp] theorem Dev.modSlot_fault (d : Dev) (i : Nat) (f : Slot → Slot) : (d.modSlot i f).fault = d.fault := rfl
@[simp] theorem Dev.modSlot_power (d : Dev) (i : Nat) (f : Slot → Slot) : (d.modSlot i f).power = d.power := rfl
@[simp] theorem Dev.modSlot_fw (d : Dev) (i : Nat) (f : Slot → Slot) : (d.modSlot i f).fw = d.fw := rfl
@[simp] theorem Dev.modSlot_owed (d : Dev) (i : Nat) (f : Slot → Slot) : (d.modSlot i f).owed = d.owed := rfl
@[simp] theorem Dev.modSlot_cas (d : Dev) (i : Nat) (f : Slot → Slot) : (d.modSlot i f).cas = d.cas := rfl
@[simp] theorem Dev.modSlot_mgmt (d : Dev) (i : Nat) (f : Slot → Slot) : (d.modSlot i f).mgmt = d.mgmt := rfl
@[simp] theorem Dev.modSlot_snapStrands (d : Dev) (i : Nat) (f : Slot → Slot) : (d.modSlot i f).snapStrands = d.snapStrands := rfl
@[simp] theorem Dev.modSlot_snapObjs (d : Dev) (i : Nat) (f : Slot → Slot) : (d.modSlot i f).snapObjs = d.snapObjs := rfl
@[simp] theorem Dev.modSlot_snapJobs (d : Dev) (i : Nat) (f : Slot → Slot) : (d.modSlot i f).snapJobs = d.snapJobs := rfl
@[simp] theorem Dev.modSlot_snapLanes (d : Dev) (i : Nat) (f : Slot → Slot) : (d.modSlot i f).snapLanes = d.snapLanes := rfl
@[simp] theorem Dev.modSlot_free (d : Dev) (i : Nat) (f : Slot → Slot) : (d.modSlot i f).free = d.free := rfl
@[simp] theorem Dev.modSlot_sent (d : Dev) (i : Nat) (f : Slot → Slot) : (d.modSlot i f).sent = d.sent := rfl
@[simp] theorem Dev.modStrand_regs (d : Dev) (id : Nat) (f : Strand → Strand) : (d.modStrand id f).regs = d.regs := rfl
@[simp] theorem Dev.modStrand_act (d : Dev) (id : Nat) (f : Strand → Strand) : (d.modStrand id f).act = d.act := rfl
@[simp] theorem Dev.modStrand_hold (d : Dev) (id : Nat) (f : Strand → Strand) : (d.modStrand id f).hold = d.hold := rfl
@[simp] theorem Dev.modStrand_part (d : Dev) (id : Nat) (f : Strand → Strand) : (d.modStrand id f).part = d.part := rfl
@[simp] theorem Dev.modStrand_pages (d : Dev) (id : Nat) (f : Strand → Strand) : (d.modStrand id f).pages = d.pages := rfl
@[simp] theorem Dev.modStrand_firsts (d : Dev) (id : Nat) (f : Strand → Strand) : (d.modStrand id f).firsts = d.firsts := rfl
@[simp] theorem Dev.modStrand_cleared (d : Dev) (id : Nat) (f : Strand → Strand) : (d.modStrand id f).cleared = d.cleared := rfl
@[simp] theorem Dev.modStrand_blank (d : Dev) (id : Nat) (f : Strand → Strand) : (d.modStrand id f).blank = d.blank := rfl
@[simp] theorem Dev.modStrand_checks (d : Dev) (id : Nat) (f : Strand → Strand) : (d.modStrand id f).checks = d.checks := rfl
@[simp] theorem Dev.modStrand_pub (d : Dev) (id : Nat) (f : Strand → Strand) : (d.modStrand id f).pub = d.pub := rfl
@[simp] theorem Dev.modStrand_row (d : Dev) (id : Nat) (f : Strand → Strand) : (d.modStrand id f).row = d.row := rfl
@[simp] theorem Dev.modStrand_qps (d : Dev) (id : Nat) (f : Strand → Strand) : (d.modStrand id f).qps = d.qps := rfl
@[simp] theorem Dev.modStrand_decided (d : Dev) (id : Nat) (f : Strand → Strand) : (d.modStrand id f).decided = d.decided := rfl
@[simp] theorem Dev.modStrand_served (d : Dev) (id : Nat) (f : Strand → Strand) : (d.modStrand id f).served = d.served := rfl
@[simp] theorem Dev.modStrand_aborts (d : Dev) (id : Nat) (f : Strand → Strand) : (d.modStrand id f).aborts = d.aborts := rfl
@[simp] theorem Dev.modStrand_unpicks (d : Dev) (id : Nat) (f : Strand → Strand) : (d.modStrand id f).unpicks = d.unpicks := rfl
@[simp] theorem Dev.modStrand_forces (d : Dev) (id : Nat) (f : Strand → Strand) : (d.modStrand id f).forces = d.forces := rfl
@[simp] theorem Dev.modStrand_objs (d : Dev) (id : Nat) (f : Strand → Strand) : (d.modStrand id f).objs = d.objs := rfl
@[simp] theorem Dev.modStrand_jobs (d : Dev) (id : Nat) (f : Strand → Strand) : (d.modStrand id f).jobs = d.jobs := rfl
@[simp] theorem Dev.modStrand_lanes (d : Dev) (id : Nat) (f : Strand → Strand) : (d.modStrand id f).lanes = d.lanes := rfl
@[simp] theorem Dev.modStrand_markers (d : Dev) (id : Nat) (f : Strand → Strand) : (d.modStrand id f).markers = d.markers := rfl
@[simp] theorem Dev.modStrand_tiers (d : Dev) (id : Nat) (f : Strand → Strand) : (d.modStrand id f).tiers = d.tiers := rfl
@[simp] theorem Dev.modStrand_cores (d : Dev) (id : Nat) (f : Strand → Strand) : (d.modStrand id f).cores = d.cores := rfl
@[simp] theorem Dev.modStrand_fault (d : Dev) (id : Nat) (f : Strand → Strand) : (d.modStrand id f).fault = d.fault := rfl
@[simp] theorem Dev.modStrand_power (d : Dev) (id : Nat) (f : Strand → Strand) : (d.modStrand id f).power = d.power := rfl
@[simp] theorem Dev.modStrand_fw (d : Dev) (id : Nat) (f : Strand → Strand) : (d.modStrand id f).fw = d.fw := rfl
@[simp] theorem Dev.modStrand_owed (d : Dev) (id : Nat) (f : Strand → Strand) : (d.modStrand id f).owed = d.owed := rfl
@[simp] theorem Dev.modStrand_cas (d : Dev) (id : Nat) (f : Strand → Strand) : (d.modStrand id f).cas = d.cas := rfl
@[simp] theorem Dev.modStrand_mgmt (d : Dev) (id : Nat) (f : Strand → Strand) : (d.modStrand id f).mgmt = d.mgmt := rfl
@[simp] theorem Dev.modStrand_snapStrands (d : Dev) (id : Nat) (f : Strand → Strand) : (d.modStrand id f).snapStrands = d.snapStrands := rfl
@[simp] theorem Dev.modStrand_snapObjs (d : Dev) (id : Nat) (f : Strand → Strand) : (d.modStrand id f).snapObjs = d.snapObjs := rfl
@[simp] theorem Dev.modStrand_snapJobs (d : Dev) (id : Nat) (f : Strand → Strand) : (d.modStrand id f).snapJobs = d.snapJobs := rfl
@[simp] theorem Dev.modStrand_snapLanes (d : Dev) (id : Nat) (f : Strand → Strand) : (d.modStrand id f).snapLanes = d.snapLanes := rfl
@[simp] theorem Dev.modStrand_free (d : Dev) (id : Nat) (f : Strand → Strand) : (d.modStrand id f).free = d.free := rfl
@[simp] theorem Dev.modStrand_sent (d : Dev) (id : Nat) (f : Strand → Strand) : (d.modStrand id f).sent = d.sent := rfl
@[simp] theorem Dev.bump_act (d : Dev) (k n : Nat) : (d.bump k n).act = d.act := by unfold Dev.bump; split <;> rfl
@[simp] theorem Dev.bump_hold (d : Dev) (k n : Nat) : (d.bump k n).hold = d.hold := by unfold Dev.bump; split <;> rfl
@[simp] theorem Dev.bump_part (d : Dev) (k n : Nat) : (d.bump k n).part = d.part := by unfold Dev.bump; split <;> rfl
@[simp] theorem Dev.bump_pages (d : Dev) (k n : Nat) : (d.bump k n).pages = d.pages := by unfold Dev.bump; split <;> rfl
@[simp] theorem Dev.bump_firsts (d : Dev) (k n : Nat) : (d.bump k n).firsts = d.firsts := by unfold Dev.bump; split <;> rfl
@[simp] theorem Dev.bump_cleared (d : Dev) (k n : Nat) : (d.bump k n).cleared = d.cleared := by unfold Dev.bump; split <;> rfl
@[simp] theorem Dev.bump_blank (d : Dev) (k n : Nat) : (d.bump k n).blank = d.blank := by unfold Dev.bump; split <;> rfl
@[simp] theorem Dev.bump_checks (d : Dev) (k n : Nat) : (d.bump k n).checks = d.checks := by unfold Dev.bump; split <;> rfl
@[simp] theorem Dev.bump_pub (d : Dev) (k n : Nat) : (d.bump k n).pub = d.pub := by unfold Dev.bump; split <;> rfl
@[simp] theorem Dev.bump_row (d : Dev) (k n : Nat) : (d.bump k n).row = d.row := by unfold Dev.bump; split <;> rfl
@[simp] theorem Dev.bump_qps (d : Dev) (k n : Nat) : (d.bump k n).qps = d.qps := by unfold Dev.bump; split <;> rfl
@[simp] theorem Dev.bump_decided (d : Dev) (k n : Nat) : (d.bump k n).decided = d.decided := by unfold Dev.bump; split <;> rfl
@[simp] theorem Dev.bump_served (d : Dev) (k n : Nat) : (d.bump k n).served = d.served := by unfold Dev.bump; split <;> rfl
@[simp] theorem Dev.bump_aborts (d : Dev) (k n : Nat) : (d.bump k n).aborts = d.aborts := by unfold Dev.bump; split <;> rfl
@[simp] theorem Dev.bump_unpicks (d : Dev) (k n : Nat) : (d.bump k n).unpicks = d.unpicks := by unfold Dev.bump; split <;> rfl
@[simp] theorem Dev.bump_forces (d : Dev) (k n : Nat) : (d.bump k n).forces = d.forces := by unfold Dev.bump; split <;> rfl
@[simp] theorem Dev.bump_strands (d : Dev) (k n : Nat) : (d.bump k n).strands = d.strands := by unfold Dev.bump; split <;> rfl
@[simp] theorem Dev.bump_objs (d : Dev) (k n : Nat) : (d.bump k n).objs = d.objs := by unfold Dev.bump; split <;> rfl
@[simp] theorem Dev.bump_jobs (d : Dev) (k n : Nat) : (d.bump k n).jobs = d.jobs := by unfold Dev.bump; split <;> rfl
@[simp] theorem Dev.bump_lanes (d : Dev) (k n : Nat) : (d.bump k n).lanes = d.lanes := by unfold Dev.bump; split <;> rfl
@[simp] theorem Dev.bump_markers (d : Dev) (k n : Nat) : (d.bump k n).markers = d.markers := by unfold Dev.bump; split <;> rfl
@[simp] theorem Dev.bump_tiers (d : Dev) (k n : Nat) : (d.bump k n).tiers = d.tiers := by unfold Dev.bump; split <;> rfl
@[simp] theorem Dev.bump_cores (d : Dev) (k n : Nat) : (d.bump k n).cores = d.cores := by unfold Dev.bump; split <;> rfl
@[simp] theorem Dev.bump_fault (d : Dev) (k n : Nat) : (d.bump k n).fault = d.fault := by unfold Dev.bump; split <;> rfl
@[simp] theorem Dev.bump_power (d : Dev) (k n : Nat) : (d.bump k n).power = d.power := by unfold Dev.bump; split <;> rfl
@[simp] theorem Dev.bump_fw (d : Dev) (k n : Nat) : (d.bump k n).fw = d.fw := by unfold Dev.bump; split <;> rfl
@[simp] theorem Dev.bump_owed (d : Dev) (k n : Nat) : (d.bump k n).owed = d.owed := by unfold Dev.bump; split <;> rfl
@[simp] theorem Dev.bump_cas (d : Dev) (k n : Nat) : (d.bump k n).cas = d.cas := by unfold Dev.bump; split <;> rfl
@[simp] theorem Dev.bump_mgmt (d : Dev) (k n : Nat) : (d.bump k n).mgmt = d.mgmt := by unfold Dev.bump; split <;> rfl
@[simp] theorem Dev.bump_snapStrands (d : Dev) (k n : Nat) : (d.bump k n).snapStrands = d.snapStrands := by unfold Dev.bump; split <;> rfl
@[simp] theorem Dev.bump_snapObjs (d : Dev) (k n : Nat) : (d.bump k n).snapObjs = d.snapObjs := by unfold Dev.bump; split <;> rfl
@[simp] theorem Dev.bump_snapJobs (d : Dev) (k n : Nat) : (d.bump k n).snapJobs = d.snapJobs := by unfold Dev.bump; split <;> rfl
@[simp] theorem Dev.bump_snapLanes (d : Dev) (k n : Nat) : (d.bump k n).snapLanes = d.snapLanes := by unfold Dev.bump; split <;> rfl
@[simp] theorem Dev.bump_free (d : Dev) (k n : Nat) : (d.bump k n).free = d.free := by unfold Dev.bump; split <;> rfl
@[simp] theorem Dev.bump_sent (d : Dev) (k n : Nat) : (d.bump k n).sent = d.sent := by unfold Dev.bump; split <;> rfl

@[simp] theorem Dev.bumpK_part_only (d : Dev) (k n : Nat) : (d.bumpK k n).pages = d.pages ∧ (d.bumpK k n).row = d.row ∧ (d.bumpK k n).strands = d.strands ∧
    (d.bumpK k n).objs = d.objs ∧ (d.bumpK k n).qps = d.qps := by
  refine ⟨?_, ?_, ?_, ?_, ?_⟩ <;> simp [Dev.bumpK]

@[simp] theorem Dev.modSlot_number (d : Dev) (i : Nat) (f : Slot → Slot) : (d.modSlot i f).row.number = d.row.number := rfl
@[simp] theorem Dev.modSlot_running (d : Dev) (i : Nat) (f : Slot → Slot) : (d.modSlot i f).row.running = d.row.running := rfl
@[simp] theorem Dev.modSlot_timeNs (d : Dev) (i : Nat) (f : Slot → Slot) : (d.modSlot i f).row.timeNs = d.row.timeNs := rfl

end Sys2Proof.Machine
end

