-- ==== Sys2Proof/Laws/Registers.lean ====
section
/-! SUPPORT. What the operations on registers do: the value stored and every other register. -/

namespace Sys2Proof.Machine

theorem resetOf_lt (k : Nat) : resetOf k < 2 ^ 32 := Nat.mod_lt _ (by decide)

/-- A register set reads as the value, one word wide. -/
@[simp] theorem Dev.rg_put_same (d : Dev) (k v : Nat) : (d.put k v).rg k = v % 2 ^ 32 := by
  show (match nget (if wd v = wd (resetOf k) then nerase d.regs k else nset d.regs k (wd v)) k with
    | some v => v.toNat | none => resetOf k) = _
  by_cases h : wd v = wd (resetOf k)
  · rw [if_pos h, nget_nerase_same]
    have h2 := congrArg BitVec.toNat h
    simp only [wd, BitVec.toNat_ofNat] at h2
    have := Nat.mod_eq_of_lt (resetOf_lt k)
    show resetOf k = _
    omega
  · rw [if_neg h, nget_nset_same]
    simp [wd]

/-- Setting a register leaves every other register. -/
theorem Dev.rg_put_ne (d : Dev) {k j : Nat} (v : Nat) (h : j ≠ k) : (d.put k v).rg j = d.rg j := by
  have e : nget (d.put k v).regs j = nget d.regs j := by
    show nget (if wd v = wd (resetOf k) then nerase d.regs k else nset d.regs k (wd v)) j = _
    split
    · exact nget_nerase_ne _ h
    · exact nget_nset_ne _ _ h
  unfold Dev.rg
  rw [e]

theorem Dev.rg_put (d : Dev) (k v j : Nat) : (d.put k v).rg j = if j = k then v % 2 ^ 32 else d.rg j := by
  split
  · rename_i h; subst h; simp
  · rename_i h; exact d.rg_put_ne v h

/-- A register holds one word. -/
theorem Dev.rg_lt (d : Dev) (k : Nat) : d.rg k < 2 ^ 32 := by
  unfold Dev.rg
  split
  · exact BitVec.isLt _
  · exact resetOf_lt k

/-- A counter raised: its new value, modulo 2^32; every other register stays (R6, log 15). -/
theorem Dev.rg_bump (d : Dev) (k n j : Nat) : (d.bump k n).rg j = if j = k then (d.rg k + n) % 2 ^ 32 else d.rg j := by
  unfold Dev.bump
  split
  · rename_i h
    split
    · rename_i e; subst e; subst h; simpa using (Nat.mod_eq_of_lt (d.rg_lt j)).symm
    · rfl
  · rw [Dev.rg_put]; simp

theorem Dev.rg_bump_ne (d : Dev) {k j : Nat} (n : Nat) (h : j ≠ k) : (d.bump k n).rg j = d.rg j := by rw [Dev.rg_bump, if_neg h]
theorem Dev.rg_putBits_ne (d : Dev) {k j : Nat} (hi lo v : Nat) (h : j ≠ k) : (d.putBits k hi lo v).rg j = d.rg j := d.rg_put_ne _ h
theorem Dev.rg_put64 (d : Dev) (k v j : Nat) :
    (d.put64 k v).rg j = if j = k + 4 then v / 2 ^ 32 % 2 ^ 32 else if j = k then v % 2 ^ 32 else d.rg j := by
  unfold Dev.put64
  rw [Dev.rg_put, Dev.rg_put]
  split
  · simp
  · split <;> simp

@[simp] theorem Dev.rg_emit (d : Dev) (o : Out) (k : Nat) : (d.emit o).rg k = d.rg k := rfl
@[simp] theorem Dev.rg_setPage (d : Dev) (p : Nat) (x : Page) (k : Nat) : (d.setPage p x).rg k = d.rg k := rfl
@[simp] theorem Dev.rg_modPage (d : Dev) (p : Nat) (f : Page → Page) (k : Nat) : (d.modPage p f).rg k = d.rg k := rfl
@[simp] theorem Dev.rg_setQp (d : Dev) (q : QRef) (x : Qp) (k : Nat) : (d.setQp q x).rg k = d.rg k := rfl
@[simp] theorem Dev.rg_modQp (d : Dev) (q : QRef) (f : Qp → Qp) (k : Nat) : (d.modQp q f).rg k = d.rg k := rfl
@[simp] theorem Dev.rg_setObj (d : Dev) (h : Nat) (o : Obj) (k : Nat) : (d.setObj h o).rg k = d.rg k := rfl
@[simp] theorem Dev.rg_setMarker (d : Dev) (i : Nat) (m : Marker) (k : Nat) : (d.setMarker i m).rg k = d.rg k := rfl
@[simp] theorem Dev.rg_modSlot (d : Dev) (i : Nat) (f : Slot → Slot) (k : Nat) : (d.modSlot i f).rg k = d.rg k := rfl
@[simp] theorem Dev.rg_modStrand (d : Dev) (i : Nat) (f : Strand → Strand) (k : Nat) : (d.modStrand i f).rg k = d.rg k := rfl
@[simp] theorem Dev.rg_putAct (d : Dev) (a v k : Nat) : (d.putAct a v).rg k = d.rg k := rfl

/-- A page set is the page read; every other page stays. -/
theorem Dev.page_setPage (d : Dev) (p : Nat) (x : Page) (j : Nat) : (d.setPage p x).page j = if j = p then x else d.page j := by
  unfold Dev.setPage Dev.page
  split
  · rename_i h; subst h; simp
  · rename_i h; simp only [nget_nset_ne _ _ h]

theorem Dev.page_modPage (d : Dev) (p : Nat) (f : Page → Page) (j : Nat) :
    (d.modPage p f).page j = if j = p then f (d.page p) else d.page j := Dev.page_setPage d p (f (d.page p)) j

/-- A queue set is the queue read. -/
@[simp] theorem Dev.qp_setQp_same (d : Dev) (q : QRef) (x : Qp) : (d.setQp q x).qp q = x := by simp [Dev.setQp, Dev.qp]

@[simp] theorem Dev.qp_modQp_same (d : Dev) (q : QRef) (f : Qp → Qp) : (d.modQp q f).qp q = f (d.qp q) := by simp [Dev.modQp]

theorem Dev.qp_setQp_ne (d : Dev) {q r : QRef} (x : Qp) (h : queueKey r ≠ queueKey q) : (d.setQp q x).qp r = d.qp r := by
  simp [Dev.setQp, Dev.qp, nget_nset_ne _ _ h]

theorem Dev.qp_modQp_ne (d : Dev) {q r : QRef} (f : Qp → Qp) (h : queueKey r ≠ queueKey q) : (d.modQp q f).qp r = d.qp r :=
  d.qp_setQp_ne _ h

/-- An object set is the object read. -/
@[simp] theorem Dev.obj_setObj_same (d : Dev) (h : Nat) (o : Obj) : (d.setObj h o).obj h = o := by simp [Dev.setObj, Dev.obj]
theorem Dev.obj_setObj_ne (d : Dev) {h j : Nat} (o : Obj) (e : j ≠ h) : (d.setObj h o).obj j = d.obj j := by
  simp [Dev.setObj, Dev.obj, nget_nset_ne _ _ e]

/-- A marker set is the marker read. -/
@[simp] theorem Dev.marker_setMarker_same (d : Dev) (i : Nat) (m : Marker) : (d.setMarker i m).marker i = m := by
  unfold Dev.setMarker Dev.marker
  split
  · rename_i h; simp [h]
  · simp
theorem Dev.marker_setMarker_ne (d : Dev) {i j : Nat} (m : Marker) (h : j ≠ i) : (d.setMarker i m).marker j = d.marker j := by
  unfold Dev.setMarker Dev.marker
  split
  · simp [nget_nerase_ne _ h]
  · simp [nget_nset_ne _ _ h]

/-- The strand of an ID after a change of that ID, and of another. -/
theorem Dev.strand_modStrand (d : Dev) (id : Nat) (f : Strand → Strand) (j : Nat) :
    nget (d.modStrand id f).strands j = if j = id then (nget d.strands id).map f else nget d.strands j := by
  unfold Dev.modStrand
  split
  · rename_i h; subst h; exact nget_nmod_same _ _ _
  · rename_i h; exact nget_nmod_ne _ _ h

end Sys2Proof.Machine
end

