-- ==== Sys2Proof/Laws/Bits.lean ====
section
/-! SUPPORT. Bit fields: a field replaced reads as what it was given, and a register keeps its width. -/

namespace Sys2Proof.Machine

/-- A number with a field replaced, in its three parts: above the field, the field, below it. -/
theorem setBits_eq (w hi lo v : Nat) :
    setBits w hi lo v = (w / 2 ^ lo / 2 ^ (hi + 1 - lo) * 2 ^ (hi + 1 - lo) + v % 2 ^ (hi + 1 - lo)) * 2 ^ lo + w % 2 ^ lo := by
  unfold setBits bits
  dsimp only
  rw [Nat.shiftRight_eq_div_pow]
  generalize 2 ^ (hi + 1 - lo) = m
  generalize 2 ^ lo = P
  have e : w / P * P = w / P / m * m * P + w / P % m * P := by rw [← Nat.add_mul, Nat.mul_comm (w / P / m) m, Nat.div_add_mod]
  have s := Nat.div_add_mod w P
  rw [Nat.mul_comm] at s
  rw [Nat.add_mul]
  omega

/-- The field replaced reads as the low bits given. -/
theorem bits_setBits (w hi lo v : Nat) : bits (setBits w hi lo v) hi lo = v % 2 ^ (hi + 1 - lo) := by
  rw [setBits_eq]
  unfold bits
  rw [Nat.shiftRight_eq_div_pow]
  have hp : 0 < 2 ^ lo := Nat.two_pow_pos lo
  rw [Nat.mul_comm _ (2 ^ lo), Nat.mul_add_div hp, Nat.div_eq_of_lt (Nat.mod_lt _ hp), Nat.add_zero, Nat.mul_add_mod', Nat.mod_mod]

/-- A bit set or cleared reads so. -/
theorem bit_setBit (w n : Nat) (b : Bool) : bit (setBit w n b) n = b := by
  have h := bits_setBits w n n (b2n b)
  unfold bits at h
  unfold bit setBit
  have e : n + 1 - n = 1 := by omega
  rw [e, Nat.pow_one] at h
  rw [h]
  cases b <;> rfl

/-- A field within a word leaves it a word. -/
theorem setBits_lt {w hi lo v : Nat} (hw : w < 2 ^ 32) (h : lo ≤ hi) (hi32 : hi < 32) : setBits w hi lo v < 2 ^ 32 := by
  rw [setBits_eq]
  have hm : 0 < 2 ^ (hi + 1 - lo) := Nat.two_pow_pos _
  have hp : 0 < 2 ^ lo := Nat.two_pow_pos _
  have split : 2 ^ 32 = 2 ^ (31 - hi) * 2 ^ (hi + 1 - lo) * 2 ^ lo := by
    rw [← Nat.pow_add, ← Nat.pow_add]; congr 1; omega
  rw [split] at hw ⊢
  generalize 2 ^ (hi + 1 - lo) = m at *
  generalize 2 ^ lo = P at *
  generalize 2 ^ (31 - hi) = T at *
  have h1 : w / P < T * m := Nat.div_lt_of_lt_mul (by rwa [Nat.mul_comm])
  have h2 : w / P / m < T := Nat.div_lt_of_lt_mul (by rwa [Nat.mul_comm])
  have h3 : (w / P / m + 1) * m ≤ T * m := Nat.mul_le_mul_right _ h2
  have h4 := Nat.mod_lt v hm
  have h5 := Nat.mod_lt w hp
  rw [Nat.add_mul] at h3
  have h6 : (w / P / m * m + v % m + 1) * P ≤ T * m * P := Nat.mul_le_mul_right _ (by omega)
  rw [Nat.add_mul] at h6
  omega

theorem setBit_lt {w n : Nat} (b : Bool) (hw : w < 2 ^ 32) (h : n < 32) : setBit w n b < 2 ^ 32 := setBits_lt hw (Nat.le_refl _) h

/-- A field of a register set reads as the low bits given. -/
theorem Dev.bits_putBits (d : Dev) (k hi lo v : Nat) (h : lo ≤ hi) (hi32 : hi < 32) :
    bits ((d.putBits k hi lo v).rg k) hi lo = v % 2 ^ (hi + 1 - lo) := by
  unfold Dev.putBits
  rw [Dev.rg_put_same, Nat.mod_eq_of_lt (setBits_lt (d.rg_lt k) h hi32), bits_setBits]

/-- A bit of a register set or cleared reads so. -/
theorem Dev.bit_put_setBit (d : Dev) (k n : Nat) (b : Bool) (h : n < 32) : bit ((d.put k (setBit (d.rg k) n b)).rg k) n = b := by
  rw [Dev.rg_put_same, Nat.mod_eq_of_lt (setBit_lt b (d.rg_lt k) h), bit_setBit]

end Sys2Proof.Machine
end

