-- ==== Sys2Proof/Laws/Signals.lean ====
section
/-! SUPPORT. What the operations that only signal can do: counters, vectors, events, errors, refusals, log records and completions change
registers, counter remainders, first errors, the fault log and what is sent, and completions their queue besides; nothing else. -/

namespace Sys2Proof.Machine

theorem Sig.refl (d : Dev) : Sig d d := ⟨_, _, _, _, _, _, rfl⟩
theorem Sig.trans {d e f : Dev} (h : Sig d e) (g : Sig e f) : Sig d f := by
  obtain ⟨_, _, _, _, _, _, rfl⟩ := h; obtain ⟨_, _, _, _, _, _, rfl⟩ := g; exact ⟨_, _, _, _, _, _, rfl⟩
theorem Posts.refl (d : Dev) : Posts d d := ⟨_, _, _, _, _, _, _, rfl⟩
theorem Posts.trans {d e f : Dev} (h : Posts d e) (g : Posts e f) : Posts d f := by
  obtain ⟨_, _, _, _, _, _, _, rfl⟩ := h; obtain ⟨_, _, _, _, _, _, _, rfl⟩ := g; exact ⟨_, _, _, _, _, _, _, rfl⟩
theorem Sig.ite {d a b : Dev} {c : Prop} [Decidable c] (h : Sig d a) (g : Sig d b) : Sig d (if c then a else b) := by
  split
  · exact h
  · exact g
theorem Sig.posts {d e : Dev} (h : Sig d e) : Posts d e := by
  obtain ⟨_, _, _, _, _, _, rfl⟩ := h; exact ⟨_, _, _, _, _, _, _, rfl⟩

theorem Sig.act {d e : Dev} (h : Sig d e) : e.act = d.act := by obtain ⟨_, _, _, _, _, _, rfl⟩ := h; rfl
theorem Sig.hold {d e : Dev} (h : Sig d e) : e.hold = d.hold := by obtain ⟨_, _, _, _, _, _, rfl⟩ := h; rfl
theorem Sig.pages {d e : Dev} (h : Sig d e) : e.pages = d.pages := by obtain ⟨_, _, _, _, _, _, rfl⟩ := h; rfl
theorem Sig.checks {d e : Dev} (h : Sig d e) : e.checks = d.checks := by obtain ⟨_, _, _, _, _, _, rfl⟩ := h; rfl
theorem Sig.pub {d e : Dev} (h : Sig d e) : e.pub = d.pub := by obtain ⟨_, _, _, _, _, _, rfl⟩ := h; rfl
theorem Sig.row {d e : Dev} (h : Sig d e) : e.row = d.row := by obtain ⟨_, _, _, _, _, _, rfl⟩ := h; rfl
theorem Sig.qps {d e : Dev} (h : Sig d e) : e.qps = d.qps := by obtain ⟨_, _, _, _, _, _, rfl⟩ := h; rfl
theorem Sig.decided {d e : Dev} (h : Sig d e) : e.decided = d.decided := by obtain ⟨_, _, _, _, _, _, rfl⟩ := h; rfl
theorem Sig.served {d e : Dev} (h : Sig d e) : e.served = d.served := by obtain ⟨_, _, _, _, _, _, rfl⟩ := h; rfl
theorem Sig.aborts {d e : Dev} (h : Sig d e) : e.aborts = d.aborts := by obtain ⟨_, _, _, _, _, _, rfl⟩ := h; rfl
theorem Sig.unpicks {d e : Dev} (h : Sig d e) : e.unpicks = d.unpicks := by obtain ⟨_, _, _, _, _, _, rfl⟩ := h; rfl
theorem Sig.forces {d e : Dev} (h : Sig d e) : e.forces = d.forces := by obtain ⟨_, _, _, _, _, _, rfl⟩ := h; rfl
theorem Sig.strands {d e : Dev} (h : Sig d e) : e.strands = d.strands := by obtain ⟨_, _, _, _, _, _, rfl⟩ := h; rfl
theorem Sig.objs {d e : Dev} (h : Sig d e) : e.objs = d.objs := by obtain ⟨_, _, _, _, _, _, rfl⟩ := h; rfl
theorem Sig.jobs {d e : Dev} (h : Sig d e) : e.jobs = d.jobs := by obtain ⟨_, _, _, _, _, _, rfl⟩ := h; rfl
theorem Sig.lanes {d e : Dev} (h : Sig d e) : e.lanes = d.lanes := by obtain ⟨_, _, _, _, _, _, rfl⟩ := h; rfl
theorem Sig.markers {d e : Dev} (h : Sig d e) : e.markers = d.markers := by obtain ⟨_, _, _, _, _, _, rfl⟩ := h; rfl
theorem Sig.tiers {d e : Dev} (h : Sig d e) : e.tiers = d.tiers := by obtain ⟨_, _, _, _, _, _, rfl⟩ := h; rfl
theorem Sig.power {d e : Dev} (h : Sig d e) : e.power = d.power := by obtain ⟨_, _, _, _, _, _, rfl⟩ := h; rfl
theorem Sig.fw {d e : Dev} (h : Sig d e) : e.fw = d.fw := by obtain ⟨_, _, _, _, _, _, rfl⟩ := h; rfl
theorem Sig.owed {d e : Dev} (h : Sig d e) : e.owed = d.owed := by obtain ⟨_, _, _, _, _, _, rfl⟩ := h; rfl
theorem Sig.cas {d e : Dev} (h : Sig d e) : e.cas = d.cas := by obtain ⟨_, _, _, _, _, _, rfl⟩ := h; rfl
theorem Sig.mgmt {d e : Dev} (h : Sig d e) : e.mgmt = d.mgmt := by obtain ⟨_, _, _, _, _, _, rfl⟩ := h; rfl
theorem Sig.snapStrands {d e : Dev} (h : Sig d e) : e.snapStrands = d.snapStrands := by obtain ⟨_, _, _, _, _, _, rfl⟩ := h; rfl
theorem Sig.snapObjs {d e : Dev} (h : Sig d e) : e.snapObjs = d.snapObjs := by obtain ⟨_, _, _, _, _, _, rfl⟩ := h; rfl
theorem Sig.snapJobs {d e : Dev} (h : Sig d e) : e.snapJobs = d.snapJobs := by obtain ⟨_, _, _, _, _, _, rfl⟩ := h; rfl
theorem Sig.snapLanes {d e : Dev} (h : Sig d e) : e.snapLanes = d.snapLanes := by obtain ⟨_, _, _, _, _, _, rfl⟩ := h; rfl
theorem Sig.free {d e : Dev} (h : Sig d e) : e.free = d.free := by obtain ⟨_, _, _, _, _, _, rfl⟩ := h; rfl
theorem Sig.probes {d e : Dev} (h : Sig d e) : e.fault.probes = d.fault.probes := by obtain ⟨_, _, _, _, _, _, rfl⟩ := h; rfl
theorem Sig.history {d e : Dev} (h : Sig d e) : e.fault.history = d.fault.history := by obtain ⟨_, _, _, _, _, _, rfl⟩ := h; rfl
theorem Sig.restarting {d e : Dev} (h : Sig d e) : e.fault.restarting = d.fault.restarting := by obtain ⟨_, _, _, _, _, _, rfl⟩ := h; rfl
theorem Sig.cores {d e : Dev} (h : Sig d e) : e.fault.cores = d.fault.cores := by obtain ⟨_, _, _, _, _, _, rfl⟩ := h; rfl
theorem Sig.retired {d e : Dev} (h : Sig d e) : e.fault.retired = d.fault.retired := by obtain ⟨_, _, _, _, _, _, rfl⟩ := h; rfl
theorem Posts.act {d e : Dev} (h : Posts d e) : e.act = d.act := by obtain ⟨_, _, _, _, _, _, _, rfl⟩ := h; rfl
theorem Posts.hold {d e : Dev} (h : Posts d e) : e.hold = d.hold := by obtain ⟨_, _, _, _, _, _, _, rfl⟩ := h; rfl
theorem Posts.pages {d e : Dev} (h : Posts d e) : e.pages = d.pages := by obtain ⟨_, _, _, _, _, _, _, rfl⟩ := h; rfl
theorem Posts.checks {d e : Dev} (h : Posts d e) : e.checks = d.checks := by obtain ⟨_, _, _, _, _, _, _, rfl⟩ := h; rfl
theorem Posts.pub {d e : Dev} (h : Posts d e) : e.pub = d.pub := by obtain ⟨_, _, _, _, _, _, _, rfl⟩ := h; rfl
theorem Posts.row {d e : Dev} (h : Posts d e) : e.row = d.row := by obtain ⟨_, _, _, _, _, _, _, rfl⟩ := h; rfl
theorem Posts.decided {d e : Dev} (h : Posts d e) : e.decided = d.decided := by obtain ⟨_, _, _, _, _, _, _, rfl⟩ := h; rfl
theorem Posts.served {d e : Dev} (h : Posts d e) : e.served = d.served := by obtain ⟨_, _, _, _, _, _, _, rfl⟩ := h; rfl
theorem Posts.aborts {d e : Dev} (h : Posts d e) : e.aborts = d.aborts := by obtain ⟨_, _, _, _, _, _, _, rfl⟩ := h; rfl
theorem Posts.unpicks {d e : Dev} (h : Posts d e) : e.unpicks = d.unpicks := by obtain ⟨_, _, _, _, _, _, _, rfl⟩ := h; rfl
theorem Posts.forces {d e : Dev} (h : Posts d e) : e.forces = d.forces := by obtain ⟨_, _, _, _, _, _, _, rfl⟩ := h; rfl
theorem Posts.strands {d e : Dev} (h : Posts d e) : e.strands = d.strands := by obtain ⟨_, _, _, _, _, _, _, rfl⟩ := h; rfl
theorem Posts.objs {d e : Dev} (h : Posts d e) : e.objs = d.objs := by obtain ⟨_, _, _, _, _, _, _, rfl⟩ := h; rfl
theorem Posts.jobs {d e : Dev} (h : Posts d e) : e.jobs = d.jobs := by obtain ⟨_, _, _, _, _, _, _, rfl⟩ := h; rfl
theorem Posts.lanes {d e : Dev} (h : Posts d e) : e.lanes = d.lanes := by obtain ⟨_, _, _, _, _, _, _, rfl⟩ := h; rfl
theorem Posts.markers {d e : Dev} (h : Posts d e) : e.markers = d.markers := by obtain ⟨_, _, _, _, _, _, _, rfl⟩ := h; rfl
theorem Posts.tiers {d e : Dev} (h : Posts d e) : e.tiers = d.tiers := by obtain ⟨_, _, _, _, _, _, _, rfl⟩ := h; rfl
theorem Posts.power {d e : Dev} (h : Posts d e) : e.power = d.power := by obtain ⟨_, _, _, _, _, _, _, rfl⟩ := h; rfl
theorem Posts.fw {d e : Dev} (h : Posts d e) : e.fw = d.fw := by obtain ⟨_, _, _, _, _, _, _, rfl⟩ := h; rfl
theorem Posts.owed {d e : Dev} (h : Posts d e) : e.owed = d.owed := by obtain ⟨_, _, _, _, _, _, _, rfl⟩ := h; rfl
theorem Posts.cas {d e : Dev} (h : Posts d e) : e.cas = d.cas := by obtain ⟨_, _, _, _, _, _, _, rfl⟩ := h; rfl
theorem Posts.mgmt {d e : Dev} (h : Posts d e) : e.mgmt = d.mgmt := by obtain ⟨_, _, _, _, _, _, _, rfl⟩ := h; rfl
theorem Posts.snapStrands {d e : Dev} (h : Posts d e) : e.snapStrands = d.snapStrands := by obtain ⟨_, _, _, _, _, _, _, rfl⟩ := h; rfl
theorem Posts.snapObjs {d e : Dev} (h : Posts d e) : e.snapObjs = d.snapObjs := by obtain ⟨_, _, _, _, _, _, _, rfl⟩ := h; rfl
theorem Posts.snapJobs {d e : Dev} (h : Posts d e) : e.snapJobs = d.snapJobs := by obtain ⟨_, _, _, _, _, _, _, rfl⟩ := h; rfl
theorem Posts.snapLanes {d e : Dev} (h : Posts d e) : e.snapLanes = d.snapLanes := by obtain ⟨_, _, _, _, _, _, _, rfl⟩ := h; rfl
theorem Posts.free {d e : Dev} (h : Posts d e) : e.free = d.free := by obtain ⟨_, _, _, _, _, _, _, rfl⟩ := h; rfl
theorem Posts.probes {d e : Dev} (h : Posts d e) : e.fault.probes = d.fault.probes := by obtain ⟨_, _, _, _, _, _, _, rfl⟩ := h; rfl
theorem Posts.history {d e : Dev} (h : Posts d e) : e.fault.history = d.fault.history := by obtain ⟨_, _, _, _, _, _, _, rfl⟩ := h; rfl
theorem Posts.restarting {d e : Dev} (h : Posts d e) : e.fault.restarting = d.fault.restarting := by obtain ⟨_, _, _, _, _, _, _, rfl⟩ := h; rfl
theorem Posts.cores {d e : Dev} (h : Posts d e) : e.fault.cores = d.fault.cores := by obtain ⟨_, _, _, _, _, _, _, rfl⟩ := h; rfl
theorem Posts.retired {d e : Dev} (h : Posts d e) : e.fault.retired = d.fault.retired := by obtain ⟨_, _, _, _, _, _, _, rfl⟩ := h; rfl

/-! Operations that signal -/

theorem Dev.put_sig (d : Dev) (k v : Nat) : Sig d (d.put k v) := ⟨_, _, _, _, _, _, rfl⟩
theorem Dev.emit_sig (d : Dev) (x : Out) : Sig d (d.emit x) := ⟨_, _, _, _, _, _, rfl⟩
theorem Dev.putBits_sig (d : Dev) (k hi lo v : Nat) : Sig d (d.putBits k hi lo v) := d.put_sig _ _
theorem Dev.put64_sig (d : Dev) (k v : Nat) : Sig d (d.put64 k v) := (d.put_sig _ _).trans (Dev.put_sig _ _ _)
theorem Dev.bump_sig (d : Dev) (k n : Nat) : Sig d (d.bump k n) := by
  unfold Dev.bump; split
  · exact .refl d
  · exact d.put_sig _ _
theorem Dev.bumpK_sig (d : Dev) (k n : Nat) : Sig d (d.bumpK k n) :=
  (d.bump_sig k _).trans ⟨_, _, _, _, _, _, rfl⟩
theorem Dev.vector_sig (d : Dev) (fn v : Nat) : Sig d (d.vector fn v) := by
  unfold Dev.vector; split
  · exact d.put_sig _ _
  · exact d.emit_sig _
theorem Dev.event_sig (d : Dev) (t b : Nat) : Sig d (d.event t b) := by
  unfold Dev.event; split
  · dsimp only; split
    · exact d.put_sig _ _
    · exact (d.put_sig _ _).trans (Dev.vector_sig _ _ _)
  · exact .refl d
theorem Dev.alert_sig (d : Dev) : Sig d d.alert := by
  unfold Dev.alert; dsimp only; split
  · exact .refl d
  · exact ((d.put_sig _ _).trans (Dev.bump_sig _ _ _)).trans (Dev.emit_sig _ _)
theorem Dev.errFlag_sig (d : Dev) (p b : Nat) : Sig d (d.errFlag p b) := by
  unfold Dev.errFlag; dsimp only
  refine Sig.trans ?_ (Dev.alert_sig _)
  split
  · exact d.put_sig _ _
  · exact (d.put_sig _ _).trans (Dev.vector_sig _ _ _)
theorem Dev.error_sig (d : Dev) (p b code loc : Nat) : Sig d (d.error p b code loc) := by
  unfold Dev.error; dsimp only
  refine Sig.trans ?_ (Dev.errFlag_sig _ _ _)
  split
  · exact (Sig.trans ⟨_, _, _, _, _, _, rfl⟩ (Dev.put_sig _ _ _)).trans (Dev.put64_sig _ _ _)
  · exact .refl d
theorem Dev.pass_sig (d : Dev) (p : Nat) : Sig d (d.pass p) := d.put_sig _ _
theorem Dev.logEvent_sig (d : Dev) (a b c e f g : Nat) : Sig d (d.logEvent a b c e f g) := by
  unfold Dev.logEvent; dsimp only
  exact (Sig.trans ⟨_, _, _, _, _, _, rfl⟩ (Dev.put_sig _ _ _)).trans (Dev.bump_sig _ _ _)
theorem Dev.environment_sig (d : Dev) (p : Nat) : Sig d (d.environment p) := (d.error_sig _ _ _ _).trans (Dev.logEvent_sig _ _ _ _ _ _ _)
theorem Dev.tenantFault_sig (d : Dev) (t off n : Nat) : Sig d (d.tenantFault t off n) := by
  unfold Dev.tenantFault; split
  · exact .refl d
  · exact (d.bump_sig _ _).trans (Dev.event_sig _ _ _)
theorem Dev.setQueueBit_sig (d : Dev) (q : QRef) (n : Nat) (b : Bool) : Sig d (d.setQueueBit q n b) := d.put_sig _ _
theorem Dev.bumpQp_sig (d : Dev) (q : QRef) (off : Nat) : Sig d (d.bumpQp q off) := by
  unfold Dev.bumpQp; split
  · exact .refl d
  · exact d.bump_sig _ _
theorem Dev.dbError_sig (d : Dev) (q : QRef) : Sig d (d.dbError q) := by
  unfold Dev.dbError; dsimp only; split
  · exact d.setQueueBit_sig _ _ _
  · exact ((d.setQueueBit_sig _ _ _).trans (Dev.bump_sig _ _ _)).trans (Dev.event_sig _ _ _)
theorem Dev.countRefusal_sig (d : Dev) (c : Cmd) (code r : Nat) : Sig d (d.countRefusal c code r) := by
  unfold Dev.countRefusal; dsimp only
  have h1 : Sig d ((d.bump (pf 6 0x044) 1).bump (pf 6 (refusalCounter code)) 1) := (d.bump_sig _ _).trans (Dev.bump_sig _ _ _)
  split
  · exact h1
  · have h2 := (h1.trans (Dev.bump_sig _ (pf (tenantPage c.q.tenant) 0x044) 1)).trans (Dev.put_sig _ (pf (tenantPage c.q.tenant) 0x130) (code * 65536 + r))
    refine Sig.ite (Sig.trans ?_ (Dev.tenantFault_sig _ _ _ _)) ?_ <;> exact Sig.ite (h2.trans (Dev.bump_sig _ _ _)) h2
theorem Dev.countLock_sig (d : Dev) (code : Nat) : Sig d (d.countLock code) := by
  unfold Dev.countLock; split
  · exact d.bump_sig _ _
  · exact .refl d
theorem Dev.countEnd_sig (d : Dev) (t status : Nat) : Sig d (d.countEnd t status) := by
  have tn (e : Dev) (off : Nat) : Sig e (if t = 0 then e else e.bump (pf (tenantPage t) off) 1) := Sig.ite (.refl e) (e.bump_sig _ _)
  unfold Dev.countEnd; dsimp only
  refine Sig.ite (Sig.ite ?_ ?_) (Sig.ite ?_ (Sig.ite ?_ (Sig.ite ?_ (.refl d))))
  · exact ((d.bump_sig _ _).trans (tn _ _)).trans (tn _ _)
  · exact (d.bump_sig _ _).trans (tn _ _)
  · exact (d.bump_sig _ _).trans (tn _ _)
  · exact (d.bump_sig _ _).trans (tn _ _)
  · exact (d.bump_sig _ _).trans (tn _ _)
theorem Dev.endParts_sig (d : Dev) (id : Nat) (s : Strand) : Sig d (d.endParts id s) := by
  unfold Dev.endParts; split
  · exact d.emit_sig _
  · exact .refl d

/-- A fold of steps that each only signal only signals. -/
theorem Sig.foldl {β : Type} (f : Dev → β → Dev) (h : ∀ d b, Sig d (f d b)) (l : List β) (d : Dev) : Sig d (l.foldl f d) := by
  induction l generalizing d with
  | nil => exact .refl d
  | cons b l ih => exact (h d b).trans (ih (f d b))

theorem Dev.writeOut_sig (d : Dev) (c : Cmd) (l : List (Nat × List Byte)) : Sig d (d.writeOut c l) :=
  Sig.foldl _ (fun d _ => Sig.ite (.refl d) (d.emit_sig _)) l d

/-! Operations that post -/

theorem Dev.modQp_posts (d : Dev) (q : QRef) (f : Qp → Qp) : Posts d (d.modQp q f) := ⟨_, _, _, _, _, _, _, rfl⟩
theorem Dev.sendIrq_posts (d : Dev) (q : QRef) : Posts d (d.sendIrq q) :=
  (d.modQp_posts q _).trans (Sig.ite ((Dev.vector_sig _ _ _).trans (Dev.bumpQp_sig _ _ _)) (Dev.vector_sig _ _ _)).posts
theorem Dev.countIrq_posts (d : Dev) (q : QRef) : Posts d (d.countIrq q) := by
  unfold Dev.countIrq; dsimp only; split
  · exact (d.modQp_posts q _).trans (Dev.sendIrq_posts _ _)
  · exact d.modQp_posts q _
theorem Dev.post_posts (d : Dev) (q : QRef) (n : Bool) (c : Cqe) : Posts d (d.post q n c) := by
  unfold Dev.post; dsimp only; split
  · exact (d.emit_sig _).posts.trans (Dev.modQp_posts _ _ _)
  · exact ((d.emit_sig _).posts.trans (Dev.modQp_posts _ _ _)).trans (Dev.countIrq_posts _ _)
theorem Dev.finish_posts (d : Dev) (c : Cmd) (e : Cqe) : Posts d (d.finish c e) := by
  unfold Dev.finish; dsimp only
  have h := (d.modQp_posts c.q fun x => { x with outstanding := x.outstanding - 1 }).trans (Dev.bumpQp_sig _ c.q 0x044).posts
  split
  · exact (h.trans (Dev.bumpQp_sig _ _ _).posts).trans (Dev.post_posts _ _ _ _)
  · exact h.trans (Dev.post_posts _ _ _ _)
theorem Dev.finishNoStrand_posts (d : Dev) (c : Cmd) (a b e f : Nat) : Posts d (d.finishNoStrand c a b e f) := d.finish_posts _ _
theorem Dev.finishStrand_posts (d : Dev) (id : Nat) (s : Strand) (a b e f g : Nat) : Posts d (d.finishStrand id s a b e f g) := d.finish_posts _ _
theorem Dev.stream_posts (d : Dev) (c : Cmd) (e : Cqe) : Posts d (d.stream c e) := by
  unfold Dev.stream; dsimp only; split
  · exact d.post_posts _ _ _
  · exact (d.bumpQp_sig _ _).posts
theorem Dev.refuseCmd_posts (d : Dev) (c : Cmd) (a b : Nat) : Posts d (d.refuseCmd c a b) :=
  (d.countRefusal_sig c a b).posts.trans (Dev.finishNoStrand_posts _ _ _ _ _ _)

/-- A fold of steps that each only post only posts. -/
theorem Posts.foldl {β : Type} (f : Dev → β → Dev) (h : ∀ d b, Posts d (f d b)) (l : List β) (d : Dev) : Posts d (l.foldl f d) := by
  induction l generalizing d with
  | nil => exact .refl d
  | cons b l ih => exact (h d b).trans (ih (f d b))

end Sys2Proof.Machine
end

