-- ==== Sys2Proof/Laws/Reports.lean ====
section
/-! SUPPORT. Which registers the operations that report can change: each changes the registers of a short list and signals (Sig), no more. -/

namespace Sys2Proof.Machine

theorem RegsBut.refl (ks : List Nat) (d : Dev) : RegsBut ks d d := fun _ _ => rfl
theorem RegsBut.trans {ks : List Nat} {d e f : Dev} (h : RegsBut ks d e) (g : RegsBut ks e f) : RegsBut ks d f :=
  fun k hk => (g k hk).trans (h k hk)
theorem RegsBut.mono {ks js : List Nat} {d e : Dev} (h : RegsBut ks d e) (s : ks ⊆ js) : RegsBut js d e := fun k hk => h k fun m => hk (s m)
/-- A change of other fields leaves every register. -/
theorem RegsBut.of_regs {ks : List Nat} {d e : Dev} (h : e.regs = d.regs) : RegsBut ks d e := fun k _ => by unfold Dev.rg; rw [h]

theorem Dev.put_regs {ks : List Nat} (d : Dev) {k : Nat} (v : Nat) (h : k ∈ ks) : RegsBut ks d (d.put k v) :=
  fun _ hj => d.rg_put_ne v fun e => hj (e ▸ h)
theorem Dev.bump_regs {ks : List Nat} (d : Dev) {k : Nat} (n : Nat) (h : k ∈ ks) : RegsBut ks d (d.bump k n) :=
  fun _ hj => d.rg_bump_ne n fun e => hj (e ▸ h)

theorem SigOn.refl (ks : List Nat) (d : Dev) : SigOn ks d d := ⟨.refl d, .refl ks d⟩
theorem SigOn.trans {ks : List Nat} {d e f : Dev} (h : SigOn ks d e) (g : SigOn ks e f) : SigOn ks d f := ⟨h.1.trans g.1, h.2.trans g.2⟩
theorem SigOn.mono {ks js : List Nat} {d e : Dev} (h : SigOn ks d e) (s : ks ⊆ js) : SigOn js d e := ⟨h.1, h.2.mono s⟩
theorem SigOn.ite {ks : List Nat} {d a b : Dev} {c : Prop} [Decidable c] (h : SigOn ks d a) (g : SigOn ks d b) : SigOn ks d (if c then a else b) := by
  split
  · exact h
  · exact g
theorem SigOn.foldl {ks : List Nat} {β : Type} (f : Dev → β → Dev) (h : ∀ d b, SigOn ks d (f d b)) (l : List β) (d : Dev) :
    SigOn ks d (l.foldl f d) := by
  induction l generalizing d with
  | nil => exact .refl ks d
  | cons b l ih => exact (h d b).trans (ih (f d b))

theorem Dev.put_on {ks : List Nat} (d : Dev) {k : Nat} (v : Nat) (h : k ∈ ks) : SigOn ks d (d.put k v) := ⟨d.put_sig k v, d.put_regs v h⟩
theorem Dev.bump_on {ks : List Nat} (d : Dev) {k : Nat} (n : Nat) (h : k ∈ ks) : SigOn ks d (d.bump k n) := ⟨d.bump_sig k n, d.bump_regs n h⟩
theorem Dev.emit_on {ks : List Nat} (d : Dev) (o : Out) : SigOn ks d (d.emit o) := ⟨d.emit_sig o, .of_regs rfl⟩
theorem Dev.put64_on {ks : List Nat} (d : Dev) {k : Nat} (v : Nat) (h : k ∈ ks) (g : k + 4 ∈ ks) : SigOn ks d (d.put64 k v) :=
  (d.put_on _ h).trans (Dev.put_on _ _ g)
theorem Dev.bumpK_on {ks : List Nat} (d : Dev) {k : Nat} (n : Nat) (h : k ∈ ks) : SigOn ks d (d.bumpK k n) :=
  ⟨d.bumpK_sig k n, (d.bump_regs _ h).trans (.of_regs rfl)⟩
theorem Dev.vector_on {ks : List Nat} (d : Dev) (fn v : Nat) (h : msixPba fn v ∈ ks) : SigOn ks d (d.vector fn v) := by
  unfold Dev.vector; split
  · exact d.put_on _ h
  · exact d.emit_on _

theorem Dev.alert_on {ks : List Nat} (d : Dev) (h : alertRegs ⊆ ks) : SigOn ks d d.alert := by
  unfold Dev.alert; dsimp only; split
  · exact .refl ks d
  · exact ((d.put_on _ (h (by simp [alertRegs]))).trans (Dev.bump_on _ _ (h (by simp [alertRegs])))).trans (Dev.emit_on _ _)

theorem Dev.errFlag_on {ks : List Nat} (d : Dev) (p b : Nat) (h : errorRegs p ⊆ ks) : SigOn ks d (d.errFlag p b) := by
  have hp : pf p 0x020 ∈ ks := h (by simp [errorRegs])
  unfold Dev.errFlag; dsimp only
  refine SigOn.trans ?_ (Dev.alert_on _ fun k hk => h (by simp only [errorRegs, List.mem_append]; exact .inr hk))
  split
  · exact d.put_on _ hp
  · exact (d.put_on _ hp).trans (Dev.vector_on _ _ _ (h (by simp [errorRegs])))

theorem Dev.error_on {ks : List Nat} (d : Dev) (p b code loc : Nat) (h : errorRegs p ⊆ ks) : SigOn ks d (d.error p b code loc) := by
  unfold Dev.error; dsimp only
  refine SigOn.trans ?_ (Dev.errFlag_on _ _ _ h)
  split
  · refine SigOn.trans (SigOn.trans ⟨⟨_, _, _, _, _, _, rfl⟩, .of_regs rfl⟩ (Dev.put_on _ _ (h ?_))) (Dev.put64_on _ _ (h ?_) (h ?_))
    · simp [errorRegs]
    · simp [errorRegs]
    · simp [errorRegs, pf]
  · exact .refl ks d

theorem Dev.logEvent_on {ks : List Nat} (d : Dev) (a b c e f g : Nat) (h : logRegs ⊆ ks) : SigOn ks d (d.logEvent a b c e f g) := by
  unfold Dev.logEvent; dsimp only
  exact (SigOn.trans ⟨⟨_, _, _, _, _, _, rfl⟩, .of_regs rfl⟩ (Dev.put_on _ _ (h (by simp [logRegs])))).trans
    (Dev.bump_on _ _ (h (by simp [logRegs])))

theorem Dev.environment_on {ks : List Nat} (d : Dev) (p : Nat) (h : errorRegs p ⊆ ks) (g : logRegs ⊆ ks) : SigOn ks d (d.environment p) :=
  (d.error_on _ _ _ _ h).trans (Dev.logEvent_on _ _ _ _ _ _ _ g)

theorem Dev.event_on {ks : List Nat} (d : Dev) (t b : Nat) (h : eventRegs t ⊆ ks) : SigOn ks d (d.event t b) := by
  have h1 : regKey t 0x10C ∈ ks := h (by simp [eventRegs])
  unfold Dev.event; split
  · dsimp only; split
    · exact d.put_on _ h1
    · exact (d.put_on _ h1).trans (Dev.vector_on _ _ _ (h (by simp [eventRegs])))
  · exact .refl ks d

theorem Dev.tenantFault_on {ks : List Nat} (d : Dev) (t off n : Nat) (g : pf (tenantPage t) off ∈ ks) (h : eventRegs t ⊆ ks) :
    SigOn ks d (d.tenantFault t off n) := by
  unfold Dev.tenantFault; split
  · exact .refl ks d
  · exact (d.bump_on _ g).trans (Dev.event_on _ _ _ h)

/-- All that a poisoned line does: it notes the tenants of the read at the stitch, and counts for them and raises their events (R194, R480). -/
theorem Dev.poison_on {ks : List Nat} (d : Dev) (slot : Nat) (member : Option Nat)
    (h : ∀ t ∈ d.readers slot member, pf (tenantPage t) 0x070 ∈ ks ∧ eventRegs t ⊆ ks) :
    ∃ e ts, SigOn ks d e ∧ ts ⊆ d.readers slot member ∧ d.poison slot member = e.modSlot slot fun s => { s with poisoned := s.poisoned ++ ts } := by
  have sub : (d.readers slot member).filter (fun t => !((d.row.slots[slot]?).elim [] (·.poisoned)).contains t) ⊆ d.readers slot member :=
    fun _ m => (List.mem_filter.mp m).1
  refine ⟨_, _, ?_, sub, rfl⟩
  generalize (d.readers slot member).filter _ = ts at sub
  suffices key : ∀ e : Dev, SigOn ks e (ts.foldl (fun d t => d.tenantFault t 0x070 1) e) from key d
  induction ts with
  | nil => exact fun e => .refl ks e
  | cons t l ih =>
    intro e
    have m := h t (sub List.mem_cons_self)
    exact (e.tenantFault_on t _ _ m.1 m.2).trans (ih (fun _ x => sub (List.mem_cons_of_mem _ x)) _)

/-- Signals leave what is read besides registers. -/
theorem Sig.on {d e : Dev} (h : Sig d e) (p : Nat) : e.on p = d.on p := by unfold Dev.on Dev.page; rw [h.pages]
theorem Sig.page {d e : Dev} (h : Sig d e) (p : Nat) : e.page p = d.page p := by unfold Dev.page; rw [h.pages]
theorem Sig.inForce {d e : Dev} (h : Sig d e) (k : Nat) : e.inForce k = d.inForce k := by unfold Dev.inForce; rw [h.act]
theorem Sig.qp {d e : Dev} (h : Sig d e) (q : QRef) : e.qp q = d.qp q := by unfold Dev.qp; rw [h.qps]
theorem Sig.obj {d e : Dev} (h : Sig d e) (k : Nat) : e.obj k = d.obj k := by unfold Dev.obj; rw [h.objs]
theorem Sig.marker {d e : Dev} (h : Sig d e) (k : Nat) : e.marker k = d.marker k := by unfold Dev.marker; rw [h.markers]
theorem Sig.up {d e : Dev} (h : Sig d e) : e.up = d.up := by unfold Dev.up; rw [h.power]
theorem Sig.inStart {d e : Dev} (h : Sig d e) : e.inStart = d.inStart := by unfold Dev.inStart; rw [h.power, h.pub]

/-- What signals sends is added at the end. -/
def SentOn (d e : Dev) : Prop := ∃ l, e.sent = d.sent ++ l

theorem SentOn.refl (d : Dev) : SentOn d d := ⟨[], by simp⟩
theorem SentOn.trans {d e f : Dev} (h : SentOn d e) (g : SentOn e f) : SentOn d f := by
  obtain ⟨l, h⟩ := h; obtain ⟨m, g⟩ := g; exact ⟨l ++ m, by rw [g, h, List.append_assoc]⟩
theorem SentOn.sends {x : Out} {d e f : Dev} (h : Sends x d e) (g : SentOn e f) : Sends x d f := by
  obtain ⟨l, h, m⟩ := h; obtain ⟨n, g⟩ := g; exact ⟨l ++ n, by rw [g, h, List.append_assoc], by simp [m]⟩
theorem Sends.of_sentOn {x : Out} {d e f : Dev} (h : SentOn d e) (g : Sends x e f) : Sends x d f := by
  obtain ⟨l, h⟩ := h; obtain ⟨n, g, m⟩ := g; exact ⟨l ++ n, by rw [g, h, List.append_assoc], by simp [m]⟩
theorem Dev.emit_sends (d : Dev) (o : Out) : Sends o d (d.emit o) := ⟨[o], rfl, by simp⟩
theorem SentOn.of_eq {d e : Dev} (h : e.sent = d.sent) : SentOn d e := ⟨[], by simp [h]⟩
theorem Dev.emit_sentOn (d : Dev) (o : Out) : SentOn d (d.emit o) := ⟨[o], rfl⟩
theorem Dev.put_sentOn (d : Dev) (k v : Nat) : SentOn d (d.put k v) := .of_eq rfl
theorem Dev.bump_sentOn (d : Dev) (k n : Nat) : SentOn d (d.bump k n) := by
  unfold Dev.bump; split <;> exact .of_eq rfl
theorem Dev.bumpQp_sentOn (d : Dev) (q : QRef) (off : Nat) : SentOn d (d.bumpQp q off) := by
  unfold Dev.bumpQp; split
  · exact .refl d
  · exact d.bump_sentOn _ _
theorem Dev.modQp_sentOn (d : Dev) (q : QRef) (f : Qp → Qp) : SentOn d (d.modQp q f) := .of_eq rfl
theorem Dev.vector_sentOn (d : Dev) (fn v : Nat) : SentOn d (d.vector fn v) := by
  unfold Dev.vector; split
  · exact d.put_sentOn _ _
  · exact d.emit_sentOn _
theorem Dev.sendIrq_sentOn (d : Dev) (q : QRef) : SentOn d (d.sendIrq q) := by
  unfold Dev.sendIrq; dsimp only; split
  · exact (d.modQp_sentOn q _).trans ((Dev.vector_sentOn _ _ _).trans (Dev.bumpQp_sentOn _ _ _))
  · exact (d.modQp_sentOn q _).trans (Dev.vector_sentOn _ _ _)
theorem Dev.countIrq_sentOn (d : Dev) (q : QRef) : SentOn d (d.countIrq q) := by
  unfold Dev.countIrq; dsimp only; split
  · exact (d.modQp_sentOn q _).trans (Dev.sendIrq_sentOn _ _)
  · exact d.modQp_sentOn q _

/-- A posted entry is sent, in the queue's slot with its head and phase. -/
theorem Dev.post_sends (d : Dev) (q : QRef) (n : Bool) (c : Cqe) :
    Sends (.cqe q (d.qp q).cqTail (c.words (d.qp q).head (d.qp q).phase)) d (d.post q n c) := by
  unfold Dev.post; dsimp only
  refine SentOn.sends (d.emit_sends _) ?_
  split
  · exact Dev.modQp_sentOn _ _ _
  · exact (Dev.modQp_sentOn _ _ _).trans (Dev.countIrq_sentOn _ _)

/-- A final completion is sent. -/
theorem Dev.finish_sends (d : Dev) (c : Cmd) (e : Cqe) :
    ∃ slot h p, Sends (.cqe c.q slot (({ e with cid := c.cid, kind := 0 } : Cqe).words h p)) d (d.finish c e) := by
  unfold Dev.finish; dsimp only
  have h1 := (d.modQp_sentOn c.q fun x => { x with outstanding := x.outstanding - 1 }).trans (Dev.bumpQp_sentOn _ c.q 0x044)
  split
  · exact ⟨_, _, _, (h1.trans (Dev.bumpQp_sentOn _ c.q 0x048)).trans (.refl _) |> fun h => Sends.of_sentOn h (Dev.post_sends _ _ _ _)⟩
  · exact ⟨_, _, _, Sends.of_sentOn h1 (Dev.post_sends _ _ _ _)⟩

theorem Dev.finishNoStrand_completed (d : Dev) (c : Cmd) (status reason count extra : Nat) :
    Completed c status reason count extra d (d.finishNoStrand c status reason count extra) := by
  obtain ⟨a, b, p, h⟩ := d.finish_sends c ⟨c.cid, 1, 0, status, reason, 0, count, 0, 0, 0, extra, 0⟩
  exact ⟨a, b, p, h⟩

end Sys2Proof.Machine
end

