-- ==== Sys2Proof/Laws/Work.lean ====
section
/-! SUPPORT. What the work of strands can change: commits, drops and ends of strands touch what Works names and leave the rest of the device. -/

namespace Sys2Proof.Machine

theorem Works.refl (d : Dev) : Works d d := ⟨_, _, _, _, _, _, _, _, _, _, _, rfl⟩
theorem Works.trans {d e f : Dev} (h : Works d e) (g : Works e f) : Works d f := by
  obtain ⟨_, _, _, _, _, _, _, _, _, _, _, rfl⟩ := h; obtain ⟨_, _, _, _, _, _, _, _, _, _, _, rfl⟩ := g
  exact ⟨_, _, _, _, _, _, _, _, _, _, _, rfl⟩
theorem Posts.works {d e : Dev} (h : Posts d e) : Works d e := by
  obtain ⟨_, _, _, _, _, _, _, rfl⟩ := h; exact ⟨_, _, _, _, _, _, _, _, _, _, _, rfl⟩
theorem Sig.works {d e : Dev} (h : Sig d e) : Works d e := h.posts.works
theorem Works.ite {d a b : Dev} {c : Prop} [Decidable c] (h : Works d a) (g : Works d b) : Works d (if c then a else b) := by
  split
  · exact h
  · exact g
theorem Works.foldl {β : Type} (f : Dev → β → Dev) (h : ∀ d b, Works d (f d b)) (l : List β) (d : Dev) : Works d (l.foldl f d) := by
  induction l generalizing d with
  | nil => exact .refl d
  | cons b l ih => exact (h d b).trans (ih (f d b))
theorem Works.row {d e : Dev} (h : Works d e) : e.row = d.row := by obtain ⟨_, _, _, _, _, _, _, _, _, _, _, rfl⟩ := h; rfl

theorem Dev.bump_works (d : Dev) (k n : Nat) : Works d (d.bump k n) := (d.bump_sig k n).works
theorem Dev.bumpK_works (d : Dev) (k n : Nat) : Works d (d.bumpK k n) := (d.bumpK_sig k n).works
theorem Dev.emit_works (d : Dev) (o : Out) : Works d (d.emit o) := (d.emit_sig o).works
theorem Dev.logEvent_works (d : Dev) (a b c e f g : Nat) : Works d (d.logEvent a b c e f g) := (d.logEvent_sig a b c e f g).works
theorem Dev.error_works (d : Dev) (p b c l : Nat) : Works d (d.error p b c l) := (d.error_sig p b c l).works
theorem Dev.countEnd_works (d : Dev) (t s : Nat) : Works d (d.countEnd t s) := (d.countEnd_sig t s).works
theorem Dev.endParts_works (d : Dev) (id : Nat) (s : Strand) : Works d (d.endParts id s) := (d.endParts_sig id s).works
theorem Dev.writeOut_works (d : Dev) (c : Cmd) (l : List (Nat × List Byte)) : Works d (d.writeOut c l) := (d.writeOut_sig c l).works
theorem Dev.modQp_works (d : Dev) (q : QRef) (f : Qp → Qp) : Works d (d.modQp q f) := (d.modQp_posts q f).works
theorem Dev.finishStrand_works (d : Dev) (id : Nat) (s : Strand) (a b c e f : Nat) : Works d (d.finishStrand id s a b c e f) :=
  (d.finishStrand_posts id s a b c e f).works
theorem Dev.modStrand_works (d : Dev) (id : Nat) (f : Strand → Strand) : Works d (d.modStrand id f) := ⟨_, _, _, _, _, _, _, _, _, _, _, rfl⟩
theorem Dev.putStrand_works (d : Dev) (id : Nat) (s : Strand) : Works d (d.putStrand id s) := ⟨_, _, _, _, _, _, _, _, _, _, _, rfl⟩
theorem Dev.passFree_works (d : Dev) : Works d d.passFree := ⟨_, _, _, _, _, _, _, _, _, _, _, rfl⟩
theorem Dev.toEnding_works (d : Dev) (id : Nat) : Works d (d.toEnding id) := d.modStrand_works id _
theorem Dev.endNormal_works (d : Dev) (id a b c e f : Nat) : Works d (d.endNormal id a b c e f) := d.modStrand_works id _
theorem Dev.setMarker_works (d : Dev) (i : Nat) (m : Marker) : Works d (d.setMarker i m) := ⟨_, _, _, _, _, _, _, _, _, _, _, rfl⟩
theorem Dev.waiters_works (d : Dev) (i : Nat) (f : Nat → Nat) : Works d (d.waiters i f) := by
  unfold Dev.waiters; dsimp only; split
  · exact .refl d
  · exact d.setMarker_works _ _
theorem Dev.bumpMarker_works (d : Dev) (i o n : Nat) : Works d (d.bumpMarker i o n) := d.bump_works _ _
theorem Dev.bumpUnit_works (d : Dev) (p o n : Nat) : Works d (d.bumpUnit p o n) := Works.ite (.refl d) (d.bump_works _ _)
theorem Dev.bumpUnitK_works (d : Dev) (p o n : Nat) : Works d (d.bumpUnitK p o n) := Works.ite (.refl d) (d.bumpK_works _ _)
theorem Dev.bumpModel_works (d : Dev) (h o n : Nat) : Works d (d.bumpModel h o n) := by
  unfold Dev.bumpModel; split
  · exact d.bump_works _ _
  · exact .refl d
theorem Dev.bumpModelK_works (d : Dev) (h o n : Nat) : Works d (d.bumpModelK h o n) := by
  unfold Dev.bumpModelK; split
  · exact d.bumpK_works _ _
  · exact .refl d
theorem Dev.tenantFault_works (d : Dev) (t o n : Nat) : Works d (d.tenantFault t o n) := (d.tenantFault_sig t o n).works

/-! Ends and drops -/

theorem Dev.openLane_works (d : Dev) (h st off : Nat) : Works d (d.openLane h st off) := by
  unfold Dev.openLane; split
  · exact .refl d
  · split
    · exact .refl d
    · exact Works.trans ⟨_, _, _, _, _, _, _, _, _, _, _, rfl⟩ (Dev.bumpModel_works _ _ _ _)
theorem Dev.dropTenant_works (d : Dev) (t c : Nat) : Works d (d.dropTenant t c) := by
  unfold Dev.dropTenant; dsimp only
  have h := d.tenantFault_works t 0x060 1
  exact Works.ite (.refl d) (Works.ite (h.trans (Dev.tenantFault_works _ _ _ _)) (Works.ite (h.trans (Dev.tenantFault_works _ _ _ _))
    (Works.ite (h.trans (Dev.tenantFault_works _ _ _ _)) h)))
theorem Dev.openAfter_works (d : Dev) (s : Strand) (c : Option (Nat × Nat)) (n : Nat) : Works d (d.openAfter s c n) := by
  unfold Dev.openAfter; split
  · exact Works.ite (Dev.openLane_works _ _ _ _) (.refl d)
  · exact .refl d
theorem Dev.dropStep_works (d : Dev) (id c : Nat) : Works d (d.dropStep id c) := by
  unfold Dev.dropStep; split
  · exact .refl d
  · rename_i s _
    split
    · exact .refl d
    · dsimp only
      refine Works.trans (Works.trans ?_ (Dev.bump_works _ _ _)) (Dev.dropTenant_works _ _ _)
      have h0 (x : Strand) : Works d { d with strands := nset d.strands id x } := ⟨_, _, _, _, _, _, _, _, _, _, _, rfl⟩
      have h1 (x : Strand) := (h0 x).trans (Dev.openAfter_works _ s (d.decoderOf s) (d.laneAfter s))
      exact Works.ite ((h1 _).trans (Dev.bump_works _ _ _)) (h1 _)
theorem Dev.endNow_works (d : Dev) (id a b c : Nat) : Works d (d.endNow id a b c) := by
  unfold Dev.endNow; split
  · exact .refl d
  · split
    · exact .refl d
    · dsimp only
      refine Works.trans (Works.ite (.refl d) ?_) (Dev.toEnding_works _ _)
      exact (((d.writeOut_works _ _).trans (Dev.finishStrand_works _ _ _ _ _ _ _ _)).trans (Dev.countEnd_works _ _ _)).trans (Dev.endParts_works _ _ _)
theorem Dev.endSilent_works (d : Dev) (id : Nat) : Works d (d.endSilent id) := by
  unfold Dev.endSilent; split
  · exact .refl d
  · split
    · exact .refl d
    · dsimp only
      refine Works.trans (Works.ite (.refl d) ?_) (Dev.toEnding_works _ _)
      exact ((d.modQp_works _ _).trans (Dev.countEnd_works _ _ _)).trans (Dev.endParts_works _ _ _)
theorem Dev.abortStrand_works (d : Dev) (id : Nat) : Works d (d.abortStrand id) := by
  unfold Dev.abortStrand; split
  · exact .refl d
  · exact d.endNow_works _ _ _ _
theorem Dev.stall_works (d : Dev) (id : Nat) : Works d (d.stall id) := by
  unfold Dev.stall; split
  · exact .refl d
  · refine Works.ite (.refl d) ?_
    split
    · exact (d.emit_works _).trans (Dev.endSilent_works _ _)
    · exact d.endNow_works _ _ _ _
theorem Dev.expireNow_works (d : Dev) (id : Nat) : Works d (d.expireNow id) := by
  unfold Dev.expireNow; split
  · exact .refl d
  · exact Works.ite (.refl d) (Works.ite (d.stall_works id) (d.endNow_works _ _ _ _))
theorem Dev.lateContext_works (d : Dev) (id : Nat) : Works d (d.lateContext id) := (d.endNow_works _ _ _ _).trans (Dev.bump_works _ _ _)

/-! Commits -/

theorem Dev.conclude_works (d : Dev) (id : Nat) (s : Strand) (o : List Byte) (a b c e : Nat) : Works d (d.conclude id s o a b c e) :=
  (d.putStrand_works _ _).trans (Dev.endNormal_works _ _ _ _ _ _ _)
theorem Dev.countTokens_works (d : Dev) (p a b : Nat) (st : TokStat) : Works d (d.countTokens p a b st) :=
  ((((d.bumpUnitK_works _ _ _).trans (Dev.bumpUnitK_works _ _ _ _)).trans (Dev.bumpUnit_works _ _ _ _)).trans (Dev.bumpUnit_works _ _ _ _)).trans
    (Dev.bumpUnit_works _ _ _ _)
theorem Dev.countPass_works (d : Dev) (h : Nat) (m : Content) (st : Step) : Works d (d.countPass h m st) :=
  Works.ite (d.bumpModel_works _ _ _) (.refl d)
theorem Dev.encoderTokens_works (d : Dev) (id : Nat) (s : Strand) (u : Nat) : Works d (d.encoderTokens id s u).1 := by
  unfold Dev.encoderTokens; dsimp only; split
  · exact (d.countTokens_works _ _ _ _).trans (Dev.lateContext_works _ _)
  · exact d.countTokens_works _ _ _ _
theorem Dev.doEmbed_works (d : Dev) (id : Nat) (s : Strand) (st : Step) : Works d (d.doEmbed id s st) := by
  unfold Dev.doEmbed; dsimp only
  have h := d.countPass_works s.cmd.encoder (d.content s s.cmd.encoder) st
  split
  · exact h.trans (Dev.putStrand_works _ _ _)
  · split
    · exact h.trans (Dev.conclude_works _ _ _ _ _ _ _ _)
    · exact h.trans (Dev.putStrand_works _ _ _)
theorem Dev.doRank_works (d : Dev) (id : Nat) (s : Strand) (st : Step) : Works d (d.doRank id s st) := by
  unfold Dev.doRank; dsimp only; split
  · exact (d.countPass_works _ _ _).trans (Dev.putStrand_works _ _ _)
  · exact (d.countPass_works _ _ _).trans (Dev.conclude_works _ _ _ _ _ _ _ _)
theorem Dev.countWalk_works (d : Dev) (p : Nat) (a b : Walk) : Works d (d.countWalk p a b) :=
  ((((d.bumpUnit_works _ _ _).trans (Dev.bumpUnit_works _ _ _ _)).trans (Dev.bumpUnitK_works _ _ _ _)).trans (Dev.bumpUnit_works _ _ _ _)).trans
    (Dev.bumpUnit_works _ _ _ _)
theorem Dev.shortTest_works (d : Dev) (s : Strand) (p : Nat) : Works d (d.shortTest s p).1 :=
  ((((d.bumpUnit_works _ _ _).trans (Dev.bumpUnit_works _ _ _ _)).trans (Dev.bumpUnit_works _ _ _ _)).trans (Dev.bumpUnit_works _ _ _ _)).trans
    (Dev.bumpUnit_works _ _ _ _)
theorem Dev.doShard_works (d : Dev) (s : Strand) (st : Step) (w i p : Nat) : Works d (d.doShard s st w i p).1 := d.countWalk_works _ _ _
theorem Dev.countResult_works (d : Dev) (w : Work) (b : Bool) : Works d (d.countResult w b) :=
  ((d.bumpUnit_works _ _ _).trans (Dev.bumpUnit_works _ _ _ _)).trans (Dev.bumpUnit_works _ _ _ _)
theorem Dev.searchResult_works (d : Dev) (id : Nat) (s : Strand) (r : Bool) : Works d (d.searchResult id s r) :=
  (d.countResult_works _ _).trans (Dev.conclude_works _ _ _ _ _ _ _ _)
theorem Dev.searchStep_works (d : Dev) (id : Nat) (s : Strand) (r : Bool) : Works d (d.searchStep id s r) :=
  Works.ite (d.searchResult_works _ _ _) (d.putStrand_works _ _)
theorem Dev.doSelect_works (d : Dev) (id : Nat) (s : Strand) (st : Step) : Works d (d.doSelect id s st) := by
  unfold Dev.doSelect; dsimp only; split
  · exact d.putStrand_works _ _
  · exact ((((d.bumpUnit_works _ _ _).trans (Dev.bumpUnit_works _ _ _ _)).trans (Dev.bumpUnit_works _ _ _ _)).trans
      (Dev.bumpUnit_works _ _ _ _)).trans (Dev.searchStep_works _ _ _ _)
theorem Dev.doBroadcast_works (d : Dev) (id : Nat) (s : Strand) : Works d (d.doBroadcast id s) :=
  (d.emit_works _).trans (Dev.putStrand_works _ _ _)
theorem Dev.doGather_works (d : Dev) (id : Nat) (s : Strand) (st : Step) : Works d (d.doGather id s st) := by
  unfold Dev.doGather; dsimp only; split
  · exact d.putStrand_works _ _
  · split
    · exact (d.emit_works _).trans (Dev.putStrand_works _ _ _)
    · exact (((d.bumpUnit_works _ _ _).trans (Dev.bumpUnit_works _ _ _ _)).trans (Dev.bumpUnit_works _ _ _ _)).trans (Dev.searchStep_works _ _ _ _)
theorem Dev.doFetch_works (d : Dev) (id : Nat) (s : Strand) (st : Step) : Works d (d.doFetch id s st) := by
  unfold Dev.doFetch; dsimp only
  refine Works.trans (Works.ite (Works.foldl _ (fun d m => ?_) _ d) (.refl d)) (Dev.searchStep_works _ _ _ _)
  exact Works.ite (.refl d) (d.emit_works _)
theorem Dev.rankScores_works (d : Dev) (id : Nat) (s : Strand) : Works d (d.rankScores id s) :=
  ((d.bumpUnit_works _ _ _).trans (Dev.bumpUnit_works _ _ _ _)).trans (Dev.searchStep_works _ _ _ _)
theorem Dev.doRerank_works (d : Dev) (id : Nat) (s : Strand) (st : Step) : Works d (d.doRerank id s st) := by
  unfold Dev.doRerank; dsimp only; split
  · exact (d.countPass_works _ _ _).trans (Dev.rankScores_works _ _ _)
  · exact (d.countPass_works _ _ _).trans (Dev.putStrand_works _ _ _)
theorem Dev.doResort_works (d : Dev) (id : Nat) (s : Strand) (st : Step) : Works d (d.doResort id s st) :=
  Works.ite (d.rankScores_works _ _) (d.putStrand_works _ _)
theorem Dev.doLookup_works (d : Dev) (id : Nat) (s : Strand) (st : Step) : Works d (d.doLookup id s st) := by
  unfold Dev.doLookup; dsimp only; split
  · exact d.putStrand_works _ _
  · exact (((((d.bumpK_works _ _).trans (Dev.bumpK_works _ _ _)).trans (Dev.bumpK_works _ _ _)).trans (Dev.bump_works _ _ _)).trans
      (Dev.bump_works _ _ _)).trans (Dev.conclude_works _ _ _ _ _ _ _ _)

theorem Dev.startGen_works (d : Dev) (id : Nat) (s : Strand) (l : List Nat) : Works d (d.startGen id s l) := d.putStrand_works _ _
theorem Dev.doTokenise_works (d : Dev) (id : Nat) (s : Strand) (st : Step) : Works d (d.doTokenise id s st) := by
  unfold Dev.doTokenise; dsimp only; split
  · exact d.putStrand_works _ _
  · split
    · exact (d.countTokens_works _ _ _ _).trans (Dev.lateContext_works _ _)
    · exact (d.countTokens_works _ _ _ _).trans (Dev.startGen_works _ _ _ _)
theorem Dev.doPack_works (d : Dev) (id : Nat) (s : Strand) (st : Step) : Works d (d.doPack id s st) := by
  unfold Dev.doPack; dsimp only; split
  · exact d.putStrand_works _ _
  · have h (p a b c e f : Nat) := ((((d.bumpUnit_works p 0x054 a).trans (Dev.bumpUnit_works _ p 0x058 b)).trans (Dev.bumpUnit_works _ p 0x05C c)).trans
      (Dev.bumpUnit_works _ p 0x060 e)).trans (Dev.bumpUnit_works _ p 0x064 f)
    split
    · exact ((h _ _ _ _ _ _).trans (Dev.countTokens_works _ _ _ _ _)).trans (Dev.lateContext_works _ _)
    · exact ((h _ _ _ _ _ _).trans (Dev.countTokens_works _ _ _ _ _)).trans (Dev.startGen_works _ _ _ _)
theorem Dev.endGen_works (d : Dev) (id : Nat) (s : Strand) (a b : Nat) : Works d (d.endGen id s a b) :=
  ((d.countResult_works _ _).trans (Dev.putStrand_works _ _ _)).trans (Dev.endNormal_works _ _ _ _ _ _ _)
theorem Dev.giveKv_works (d : Dev) (id l j : Nat) : Works d (d.giveKv id l j) := d.modStrand_works _ _
theorem Dev.growKv_works (d : Dev) (id : Nat) (s : Strand) (n : Nat) : Works d (d.growKv id s n) := by
  unfold Dev.growKv; dsimp only; split
  · exact .refl d
  · exact Works.foldl _ (fun d j => d.giveKv_works _ _ _) _ d
theorem Dev.doPrefill_works (d : Dev) (id : Nat) (s : Strand) (st : Step) : Works d (d.doPrefill id s st) := by
  refine (d.growKv_works id s st.key).trans ?_
  unfold Dev.doPrefill; dsimp only; split
  · exact Dev.putStrand_works _ _ _
  · split
    · exact (Dev.bumpModel_works _ _ _ _).trans (Dev.endGen_works _ _ _ _ _)
    · exact (Dev.bumpModel_works _ _ _ _).trans (Dev.putStrand_works _ _ _)
theorem Dev.doDecode_works (d : Dev) (id : Nat) (s : Strand) (st : Step) : Works d (d.doDecode id s st) :=
  (d.growKv_works _ _ _).trans (Dev.putStrand_works _ _ _)
theorem Dev.doHead_works (d : Dev) (id : Nat) (s : Strand) : Works d (d.doHead id s) := by
  unfold Dev.doHead; dsimp only; split
  · exact d.putStrand_works _ _
  · exact (d.bump_works _ _).trans (Dev.endGen_works _ _ _ _ _)
theorem Dev.countChoice_works (d : Dev) (c : Choice) (m : Bool) (u : Nat) : Works d (d.countChoice c m u) := by
  unfold Dev.countChoice; dsimp only
  have h := ((d.bumpUnit_works u 0x04C c.compacts).trans (Dev.bumpUnit_works _ u 0x050 c.nans)).trans
    (Works.foldl (fun d k => d.bumpUnit u (pathCounter k) 1) (fun d k => d.bumpUnit_works u (pathCounter k) 1) c.selects _)
  refine h.trans ?_
  exact ((((((((Dev.bumpK_works _ _ _).trans (Dev.bumpK_works _ _ _)).trans (Dev.bumpK_works _ _ _)).trans (Dev.bump_works _ _ _)).trans
    (Dev.bump_works _ _ _)).trans (Dev.bump_works _ _ _)).trans (Dev.bump_works _ _ _)).trans (Dev.bump_works _ _ _)).trans (Dev.bump_works _ _ _)
theorem Dev.doSample_works (d : Dev) (id : Nat) (s : Strand) : Works d (d.doSample id s) := by
  unfold Dev.doSample; dsimp only; split
  · exact ((d.countChoice_works _ _ _).trans (Dev.bumpUnitK_works _ _ _ _)).trans (Dev.endGen_works _ _ _ _ _)
  · have h (c m u t p n a b e f) := (((((d.countChoice_works c m u).trans (Dev.bumpModelK_works _ t 0x048 1)).trans (Dev.bump_works _ (pf 5 0x224) n)).trans
      (Dev.bumpUnitK_works _ p 0x068 a)).trans (Dev.bumpUnit_works _ p 0x06C b)).trans (Dev.bumpUnit_works _ p e f)
    split
    · exact (h _ _ _ _ _ _ _ _ _ _).trans (Dev.endGen_works _ _ _ _ _)
    · exact (h _ _ _ _ _ _ _ _ _ _).trans (Dev.putStrand_works _ _ _)

/-- What the effect of a step can change (R32). -/
theorem Dev.stepEffect_works (d : Dev) (id : Nat) (s : Strand) (st : Step) : Works d (d.stepEffect id s st) := by
  unfold Dev.stepEffect; split
  · exact d.doTokenise_works _ _ _
  · exact d.doEmbed_works _ _ _
  · exact d.doRerank_works _ _ _
  · exact d.doResort_works _ _ _
  · exact d.doRank_works _ _ _
  · exact d.putStrand_works _ _
  · exact d.putStrand_works _ _
  · exact d.putStrand_works _ _
  · exact d.putStrand_works _ _
  · exact d.doSelect_works _ _ _
  · exact d.doBroadcast_works _ _
  · exact d.doGather_works _ _ _
  · exact d.doFetch_works _ _ _
  · exact d.doPack_works _ _ _
  · exact d.doPrefill_works _ _ _
  · exact d.doDecode_works _ _ _
  · exact d.doHead_works _ _
  · exact d.doSample_works _ _
  · exact d.doLookup_works _ _ _
  · exact d.putStrand_works _ _
theorem Dev.finishStep_works (d : Dev) (id : Nat) (s : Strand) (st : Step) : Works d (d.finishStep id s st) :=
  Works.ite (d.stepEffect_works _ _ _) (d.putStrand_works _ _)

/-- What a member's commit can change (R32). -/
theorem Dev.commitMember_works (d : Dev) (id i u : Nat) : Works d (d.commitMember id i u) := by
  unfold Dev.commitMember; split
  · exact .refl d
  · split
    · exact .refl d
    · split
      · exact .refl d
      · dsimp only; split
        · split
          · rename_i e; have h := congrArg Prod.fst e; dsimp only at h; rw [← h]; exact d.encoderTokens_works _ _ _
          · rename_i e; have h := congrArg Prod.fst e; dsimp only at h; rw [← h]
            exact (d.encoderTokens_works _ _ _).trans (Dev.finishStep_works _ _ _ _)
        · exact (d.doShard_works _ _ _ _ _).trans (Dev.finishStep_works _ _ _ _)
        · exact (d.shortTest_works _ _).trans (Dev.finishStep_works _ _ _ _)
        · exact d.finishStep_works _ _ _
theorem Dev.startChain_works (d : Dev) (id : Nat) (s : Strand) (os : List Drained) : Works d (d.startChain id s os) :=
  Works.ite (Works.foldl _ (fun d _ => Works.ite (d.emit_works _) (.refl d)) _ d) (.refl d)
theorem Dev.takeResults_works (d : Dev) (rs : List ArrRun) (id : Nat) : Works d (d.takeResults rs id) := by
  unfold Dev.takeResults; split
  · exact .refl d
  · exact Works.ite (.refl d) ((d.startChain_works _ _ _).trans (Dev.putStrand_works _ _ _))
theorem Dev.countArrays_works (d : Dev) (s : Slot) (rs : List ArrRun) (f : Nat → Nat) : Works d (d.countArrays s rs f) :=
  ((((d.bumpUnitK_works _ _ _).trans (Dev.bumpUnitK_works _ _ _ _)).trans (Dev.bumpUnit_works _ _ _ _)).trans (Dev.bumpUnitK_works _ _ _ _)).trans
    (Dev.bumpUnitK_works _ _ _ _)
theorem Dev.expireWaits_works (d : Dev) (s : Slot) : Works d (d.expireWaits s) := by
  refine Works.foldl _ (fun d x => ?_) _ d
  split
  · exact (d.waiters_works _ _).trans (Dev.bumpMarker_works _ _ _ _)
  · exact .refl d

end Sys2Proof.Machine
end

