-- ==== Sys2Proof/Laws/Clock.lean ====
section
/-! SUPPORT. The row number, its time, its correction and its windows through the head of a row: only the step to the next row changes them. -/

namespace Sys2Proof.Machine

/-- The clock of the row is the same. -/
def Clock (d e : Dev) : Prop :=
  e.row.number = d.row.number ∧ e.row.timeNs = d.row.timeNs ∧ e.row.corr = d.row.corr ∧ e.row.windows = d.row.windows

theorem Clock.refl (d : Dev) : Clock d d := ⟨rfl, rfl, rfl, rfl⟩
theorem Clock.trans {d e f : Dev} (h : Clock d e) (g : Clock e f) : Clock d f :=
  ⟨g.1.trans h.1, g.2.1.trans h.2.1, g.2.2.1.trans h.2.2.1, g.2.2.2.trans h.2.2.2⟩
theorem Clock.after {d e f : Dev} (g : Clock e f) (h : Clock d e) : Clock d f := h.trans g
theorem Clock.of_row {d e : Dev} (h : e.row = d.row) : Clock d e := by unfold Clock; rw [h]; exact ⟨rfl, rfl, rfl, rfl⟩
theorem Works.clock {d e : Dev} (h : Works d e) : Clock d e := .of_row h.row
theorem Posts.clock {d e : Dev} (h : Posts d e) : Clock d e := .of_row h.row
theorem Sig.clock {d e : Dev} (h : Sig d e) : Clock d e := .of_row h.row
theorem Clock.ite {d a b : Dev} {c : Prop} [Decidable c] (h : Clock d a) (g : Clock d b) : Clock d (if c then a else b) := by
  split
  · exact h
  · exact g
theorem Clock.foldl {β : Type} (f : Dev → β → Dev) (h : ∀ d b, Clock d (f d b)) (l : List β) (d : Dev) : Clock d (l.foldl f d) := by
  induction l generalizing d with
  | nil => exact .refl d
  | cons b l ih => exact (h d b).trans (ih (f d b))

theorem Dev.put_clock (d : Dev) (k v : Nat) : Clock d (d.put k v) := .of_row rfl
theorem Dev.put64_clock (d : Dev) (k v : Nat) : Clock d (d.put64 k v) := .of_row rfl
theorem Dev.bump_clock (d : Dev) (k n : Nat) : Clock d (d.bump k n) := (d.bump_sig k n).clock
theorem Dev.bumpK_clock (d : Dev) (k n : Nat) : Clock d (d.bumpK k n) := (d.bumpK_sig k n).clock
theorem Dev.emit_clock (d : Dev) (o : Out) : Clock d (d.emit o) := .of_row rfl
theorem Dev.vector_clock (d : Dev) (a b : Nat) : Clock d (d.vector a b) := (d.vector_sig a b).clock
theorem Dev.event_clock (d : Dev) (a b : Nat) : Clock d (d.event a b) := (d.event_sig a b).clock
theorem Dev.modPage_clock (d : Dev) (p : Nat) (f : Page → Page) : Clock d (d.modPage p f) := .of_row rfl
theorem Dev.setPage_clock (d : Dev) (p : Nat) (x : Page) : Clock d (d.setPage p x) := .of_row rfl
theorem Dev.setObj_clock (d : Dev) (h : Nat) (o : Obj) : Clock d (d.setObj h o) := .of_row rfl
theorem Dev.logEvent_clock (d : Dev) (a b c e f g : Nat) : Clock d (d.logEvent a b c e f g) := (d.logEvent_sig a b c e f g).clock
theorem Dev.errFlag_clock (d : Dev) (a b : Nat) : Clock d (d.errFlag a b) := (d.errFlag_sig a b).clock
theorem Dev.finishNoStrand_clock (d : Dev) (c : Cmd) (a b e f : Nat) : Clock d (d.finishNoStrand c a b e f) := (d.finishNoStrand_posts c a b e f).clock
theorem Dev.writeOut_clock (d : Dev) (c : Cmd) (l : List (Nat × List Byte)) : Clock d (d.writeOut c l) := (d.writeOut_sig c l).clock
theorem Dev.modSlot_clock (d : Dev) (i : Nat) (f : Slot → Slot) : Clock d (d.modSlot i f) := ⟨rfl, rfl, rfl, rfl⟩
theorem Dev.pubBit_clock (d : Dev) (n : Nat) (b : Bool) : Clock d (d.pubBit n b) := .of_row rfl

/-! The end of a row -/

theorem Dev.modStrand_clock (d : Dev) (id : Nat) (f : Strand → Strand) : Clock d (d.modStrand id f) := .of_row rfl
theorem Dev.keepReads_clock (d : Dev) (s : Slot) : Clock d (d.keepReads s) := Clock.foldl _ (fun d _ => d.modStrand_clock _ _) _ d
theorem Dev.keepSums_clock (d : Dev) (s : Slot) (rs : List ArrRun) : Clock d (d.keepSums s rs) :=
  Clock.ite (.refl d) (Clock.foldl _ (fun d _ => d.modStrand_clock _ _) _ d)
theorem Dev.cutArrays_clock (d : Dev) (s : Slot) : Clock d (d.cutArrays s) := Clock.ite (.refl d) (.of_row rfl)
theorem Dev.cutUnit_clock (d : Dev) (s : Slot) (rs : List ArrRun) : Clock d (d.cutUnit s rs) := by
  have g (e : Dev) (f : Nat → Nat) : Clock e (((e.countArrays s rs f).passFree).cutArrays s) :=
    ((e.countArrays_works s rs f).trans (Dev.passFree_works _)).clock.trans (Dev.cutArrays_clock _ _)
  have h := Clock.ite (c := s.matrix = true) (Dev.bumpUnit_works d s.unit 0x044 1).clock (.refl d)
  unfold Dev.cutUnit; dsimp only
  exact Clock.ite (h.trans (g _ _)) h
theorem Dev.overrun_clock (d : Dev) (s : Slot) (n : Nat) (b : Bool) : Clock d (d.overrun s n b) := by
  have h (t : Nat) := (d.logEvent_clock s.unit 0x09 n t 0 9).trans (Dev.bump_clock _ (pf 7 0x070) 1)
  exact (Clock.ite (h _) ((h _).trans (Dev.error_sig _ _ _ _ _).clock)).trans (Dev.bump_clock _ _ _)
theorem Dev.leaveSlot_clock (d : Dev) (i : Nat) (s : Slot) : Clock d (d.leaveSlot i s) :=
  ((d.modSlot_clock i _).trans (Dev.expireWaits_works _ _).clock).trans (.of_row rfl)
theorem Dev.endSlot_clock (d : Dev) (i : Nat) : Clock d (d.endSlot i) := by
  have h (e : Dev) (l : List (Nat × Nat)) := Clock.foldl _ (fun (d : Dev) (p : Nat × Nat) => (d.dropStep_works p.1 p.2).clock) l e
  unfold Dev.endSlot; split
  · exact .refl d
  · rename_i s _
    dsimp only
    refine Clock.ite (.refl d) (Clock.ite (d.leaveSlot_clock i s) ((Clock.trans ?_ (h _ _))))
    have g (t : Slot) (rs : List ArrRun) := (((d.leaveSlot_clock i s).trans (Dev.keepReads_clock _ t)).trans (Dev.keepSums_clock _ t rs)).trans
      (Dev.cutUnit_clock _ s rs)
    split
    · exact (g _ _).trans (Dev.overrun_clock _ _ _ _)
    · exact g _ _
theorem Dev.endSlots_clock (d : Dev) : Clock d d.endSlots := Clock.foldl _ (fun d i => d.endSlot_clock i) _ d
theorem Dev.cancelJobs_clock (d : Dev) (h : Nat) : Clock d (d.cancelJobs h) := Clock.after (Dev.bump_clock _ _ _) (.of_row rfl)
theorem Dev.endNormal_clock (d : Dev) (id a b c e f : Nat) : Clock d (d.endNormal id a b c e f) := (d.endNormal_works id a b c e f).clock
theorem Dev.enterWrites_clock (d : Dev) (id : Nat) : Clock d (d.enterWrites id) := by
  unfold Dev.enterWrites; split
  · exact .refl d
  · dsimp only
    refine Clock.ite (.refl d) (Clock.ite ?_ ?_)
    · exact Clock.after (Dev.endNormal_clock _ _ _ _ _ _ _) (Clock.after (.of_row rfl : Clock (d.cancelJobs _) _) (d.cancelJobs_clock _))
    · refine Clock.ite ((d.bump_clock _ _).trans (Dev.endNormal_clock _ _ _ _ _ _ _)) ?_
      split
      · exact Clock.after (Dev.endNormal_clock _ _ _ _ _ _ _) (Clock.foldl _ (fun d t => d.bump_clock (pf (tierPage t) 0x054) 1) _ d)
      · refine Clock.after (Dev.endNormal_clock _ _ _ _ _ _ _) (Clock.after (Dev.setObj_clock _ _ _) (Clock.ite ?_ (.refl d)))
        exact ((d.bump_clock _ _).trans (Dev.bump_clock _ _ _)).trans (Dev.bump_clock _ _ _)
theorem Dev.enterAll_clock (d : Dev) : Clock d d.enterAll := Clock.foldl _ (fun d i => d.enterWrites_clock i) _ d
theorem Dev.pubDone_clock (d : Dev) (s : PubSrc) (a b c : Nat) : Clock d (d.pubDone s a b c) := by
  unfold Dev.pubDone; split
  · exact d.finishNoStrand_clock _ _ _ _ _
  · exact .refl d
theorem Dev.restage_clock (d : Dev) (p : Pub) : Clock d (d.restage p) := Clock.foldl _ (fun d _ => d.setObj_clock _ _) _ d
theorem Dev.countLock_clock (d : Dev) (c : Nat) : Clock d (d.countLock c) := (d.countLock_sig c).clock
theorem Dev.refuse_clock (d : Dev) (p c : Nat) : Clock d (d.refuse p c) := .of_row rfl
theorem Dev.countLive_clock (d : Dev) (c : Nat) : Clock d (d.countLive c) := d.bump_clock _ _
theorem Dev.pubRefusal_clock (d : Dev) (c s : Nat) : Clock d (d.pubRefusal c s) := by
  unfold Dev.pubRefusal; dsimp only
  have h0 : Clock d (((d.put (pf 0 0x108) c).put (pf 0 0x10C) s).pubBit 1 true) := .of_row rfl
  have h := (h0.trans (Dev.countLock_clock _ c)).trans (Dev.countLive_clock _ c)
  exact Clock.ite h (h.trans (Dev.refuse_clock _ _ _))
theorem Dev.refusePub_clock (d : Dev) (p : Pub) (c s : Nat) : Clock d (d.refusePub p c s) := by
  unfold Dev.refusePub; dsimp only
  refine Clock.trans (Clock.trans ?_ (Dev.vector_clock _ _ _)) (Dev.pubDone_clock _ _ _ _ _)
  have h : Clock d (Dev.restage { d with pub := none } p) := Clock.after (Dev.restage_clock _ p) (.of_row rfl)
  exact ((h.trans (Dev.pubRefusal_clock _ c s)).trans (Dev.pubBit_clock _ _ _)).trans (Dev.pubBit_clock _ _ _)
theorem Dev.checkDone_clock (d : Dev) : Clock d d.checkDone := by
  unfold Dev.checkDone; split
  · exact .refl d
  · dsimp only
    refine Clock.ite (.refl d) (Clock.ite (.of_row rfl) (Clock.ite ?_ ?_))
    · split
      · exact Clock.after (Dev.emit_clock _ _) (Clock.after (Dev.countLive_clock _ _) (Clock.after (Dev.countLock_clock _ _) (Clock.ite (.of_row rfl) (.of_row rfl))))
      · exact .of_row rfl
    · split
      · exact .of_row rfl
      · exact d.refusePub_clock _ _ _
theorem Dev.casAbandon_clock (d : Dev) (p : Pub) (a b c : Nat) : Clock d (d.casAbandon p a b c) := by
  unfold Dev.casAbandon; dsimp only
  refine Clock.after (Dev.pubDone_clock _ _ _ _ _) (Clock.after (Dev.vector_clock _ _ _) (Clock.after (Dev.emit_clock _ _) ?_))
  have h : Clock d (Dev.restage { d with pub := none } p) := Clock.after (Dev.restage_clock _ p) (.of_row rfl)
  have h1 := Clock.ite (c := c = 0) (h.trans (Dev.pubRefusal_clock _ a b)) (h.trans (Clock.of_row rfl : Clock _ (((Dev.put _ (pf 0 0x108) a).put (pf 0 0x10C) b).pubBit 1 true)))
  exact (((h1.trans (Dev.pubBit_clock _ 0 false)).trans (Dev.pubBit_clock _ 2 false)).trans (Dev.bump_clock _ (pf 0xD 0x044) 1)).trans (.of_row rfl)
theorem Dev.casDeadline_clock (d : Dev) : Clock d d.casDeadline := by
  unfold Dev.casDeadline; split
  · exact .refl d
  · split
    · exact .refl d
    · dsimp only; split
      · exact d.checkDone_clock
      · split
        · exact d.checkDone_clock.trans (Dev.casAbandon_clock _ _ _ _ _)
        · exact Clock.ite (d.checkDone_clock.trans (.of_row rfl)) (d.checkDone_clock.trans (.of_row rfl))
theorem Dev.latePlans_clock (d : Dev) (l : List Nat) : Clock d (d.latePlans l) :=
  Clock.foldl _ (fun d _ => Clock.ite (d.bump_clock _ _) (.refl d)) _ d
theorem Dev.planMiss_clock (d : Dev) : Clock d d.planMiss := by
  unfold Dev.planMiss; dsimp only
  refine Clock.ite (.refl d) (Clock.trans ?_ (Dev.bump_clock _ _ _))
  exact ⟨rfl, rfl, rfl, rfl⟩
theorem Dev.countLocal_clock (d : Dev) : Clock d d.countLocal := .of_row rfl
theorem Dev.countRow_clock (d : Dev) : Clock d d.countRow := by
  unfold Dev.countRow; dsimp only
  have h1 := d.bump_clock (pf 6 0x06C) (b2n d.admHeld)
  generalize d.bump (pf 6 0x06C) (b2n d.admHeld) = y at h1 ⊢
  have h2 : Clock d (if y.admHeld = true then y else y.bump (pf 6 0x070) (if 512 ≤ y.decided then y.undecided.length else 0)) :=
    Clock.ite h1 (h1.trans (Dev.bump_clock _ _ _))
  generalize (if y.admHeld = true then y else y.bump (pf 6 0x070) (if 512 ≤ y.decided then y.undecided.length else 0)) = z at h2 ⊢
  split
  · exact (h2.trans (Dev.bump_clock _ _ _)).trans (Dev.bump_clock _ _ _)
  · exact h2.trans (Dev.bump_clock _ _ _)
theorem Dev.rewriteLost_clock (d : Dev) : Clock d d.rewriteLost := by
  unfold Dev.rewriteLost
  refine Clock.foldl _ (fun (d : Dev) x => Clock.ite (Clock.ite ?_ ?_) (.refl d)) _ d <;> exact ⟨rfl, rfl, rfl, rfl⟩
theorem Dev.expireMarked_clock (d : Dev) : Clock d d.expireMarked := Clock.foldl _ (fun d id => (d.expireNow_works id).clock) _ d
theorem Dev.recheckHeld_clock (d : Dev) : Clock d d.recheckHeld := by
  unfold Dev.recheckHeld; split
  · exact .refl d
  · refine Clock.ite (.refl d) ?_
    split
    · exact d.refusePub_clock _ _ _
    · exact .refl d
theorem Dev.settle_clock (d : Dev) : Clock d d.settle := .of_row rfl

/-! The firmware set -/

theorem Dev.fwRefused_clock (d : Dev) (a b : Nat) : Clock d (d.fwRefused a b) := Clock.ite (.refl d) ((d.bump_clock _ _).trans (.of_row rfl))
theorem Dev.fwDone_clock (d : Dev) (c : Cmd) (a b e : Nat) : Clock d (d.fwDone c a b e) :=
  ((d.writeOut_clock _ _).trans (Dev.fwRefused_clock _ _ _)).trans (Dev.finishNoStrand_clock _ _ _ _ _ _)
theorem Dev.postOwed_clock (d : Dev) : Clock d d.postOwed := by
  unfold Dev.postOwed
  refine Clock.after (Clock.foldl _ (fun d x => ?_) _ _) (.of_row rfl)
  exact (d.writeOut_clock _ _).trans (Dev.finishNoStrand_clock _ _ _ _ _ _)
theorem Dev.restartGroups_clock (d : Dev) : Clock d d.restartGroups :=
  Clock.after (Clock.foldl _ (fun d _ => d.bump_clock _ _) _ _) (.of_row rfl)
theorem Dev.showInterface_clock (d : Dev) (h : List Byte) : Clock d (d.showInterface h) :=
  by
  unfold Dev.showInterface; split
  · exact .refl d
  · exact Clock.foldl _ (fun e k => (e.put_clock (regKey k 0x100) _).trans (Dev.put_clock _ _ _)) _ d
theorem Dev.fwDoneAll_clock (d : Dev) (o : Option Cmd) (a b e : Nat) : Clock d (match o with | some c => d.fwDone c a b e | none => d) := by
  split
  · exact d.fwDone_clock _ _ _ _
  · exact .refl d
theorem Dev.activate_clock (m : Perm) (d : Dev) : Clock d (Dev.activate m d).2 := by
  unfold Dev.activate; dsimp only; split
  · exact .refl d
  · have h0 : Clock d ((({ d with fw := { Fw.reset with header := d.fw.header, got := d.fw.got } }).restartGroups).vector 0 3) :=
      Clock.after (Dev.vector_clock _ _ _) (Clock.after (Dev.restartGroups_clock _) (.of_row rfl))
    generalize hx : (({ d with fw := { Fw.reset with header := d.fw.header, got := d.fw.got } }).restartGroups).vector 0 3 = x at h0
    have fwd (y : Dev) (f : Fw) : Clock y { y with fw := f } := .of_row rfl
    split
    · dsimp only
      exact Clock.after (fwd _ _) (Clock.after (Dev.fwDoneAll_clock _ _ _ _ _) (Clock.after (Dev.bump_clock _ _ _) h0))
    · dsimp only
      exact Clock.after (fwd _ _) (Clock.after (Dev.bump_clock _ _ _) (Clock.after (Dev.fwDoneAll_clock _ _ _ _ _) (Clock.after (Dev.showInterface_clock _ _)
        (Clock.after (Dev.put64_clock _ _ _) (Clock.after (Dev.bump_clock _ _ _) (Clock.after (Dev.bump_clock _ _ _) h0))))))

/-! Probes and stand-ins -/

theorem Dev.spareFlag_clock (d : Dev) (p b : Nat) : Clock d (d.spareFlag p b) := d.errFlag_clock p b
theorem Dev.takeover_clock (d : Dev) (u p q : Nat) : Clock d (d.takeover u p q) := by
  unfold Dev.takeover; dsimp only
  have h (x : Dev) (e : Clock d x) : Clock d ((((x.spareFlag p 9).spareFlag p 8).bump (pf 7 0x060) 1).logEvent p 0x05 0 0 0 0) :=
    Clock.after (Dev.logEvent_clock _ _ _ _ _ _ _) (Clock.after (Dev.bump_clock _ _ _) (Clock.after (Dev.spareFlag_clock _ _ _)
      (Clock.after (Dev.spareFlag_clock _ _ _) e)))
  split
  · refine Clock.after (Dev.logEvent_clock _ _ _ _ _ _ _) (Clock.after (Dev.spareFlag_clock _ _ _) ?_)
    exact h _ (.of_row rfl)
  · exact h _ (.of_row rfl)
theorem Dev.fenceUnit_clock (d : Dev) (u p : Nat) : Clock d (d.fenceUnit u p) := by
  unfold Dev.fenceUnit; dsimp only; split
  · exact Clock.after (Dev.spareFlag_clock _ _ _) (Clock.after (Dev.spareFlag_clock _ _ _) (d.modPage_clock _ _))
  · split
    · exact d.takeover_clock _ _ _
    · exact Clock.after (Dev.logEvent_clock _ _ _ _ _ _ _) (Clock.after (Dev.bump_clock _ _ _) (Clock.after (Dev.spareFlag_clock _ _ _)
        (Clock.after (Dev.spareFlag_clock _ _ _) (Clock.after (Dev.spareFlag_clock _ _ _) (d.modPage_clock _ _)))))
theorem Dev.retire_clock (d : Dev) (p l o : Nat) : Clock d (d.retire p l o) := by
  unfold Dev.retire; dsimp only
  refine Clock.after (Dev.logEvent_clock _ _ _ _ _ _ _) (Clock.after (Dev.spareFlag_clock _ _ _) (Clock.ite (.of_row rfl) ?_))
  exact Clock.after (Dev.bump_clock _ _ _) (.of_row rfl)
theorem Dev.spareLow_clock (d : Dev) (p : Nat) (b : Bool) : Clock d (d.spareLow p b) :=
  Clock.ite (Clock.after (Dev.logEvent_clock _ _ _ _ _ _ _) (d.spareFlag_clock _ _)) (.refl d)
theorem Dev.lasting_clock (d : Dev) (q : Probe) : Clock d (d.lasting q) := by
  have r (a b c : Nat) (e : Bool) : Clock d ((d.retire a b c).spareLow a e) := (d.retire_clock a b c).trans (Dev.spareLow_clock _ _ _)
  have s := fun a b => d.spareFlag_clock a b
  unfold Dev.lasting; dsimp only; split
  · exact d.fenceUnit_clock _ _
  · refine Clock.ite ?_ (Clock.ite (Clock.ite (r _ _ _ _) (s _ _)) (Clock.ite (Clock.ite (r _ _ _ _) (s _ _)) (Clock.ite (Clock.ite (r _ _ _ _) (s _ _))
      (Clock.ite ?_ (Clock.ite (r _ _ _ _) (Clock.ite (s _ _) ?_))))))
    · have h (x : Dev) (e : Clock d x) (p : Nat) : Clock d ((x.spareFlag p 9).spareFlag p 8) :=
        Clock.after (Dev.spareFlag_clock _ _ _) (Clock.after (Dev.spareFlag_clock _ _ _) e)
      split
      · refine Clock.after (Dev.logEvent_clock _ _ _ _ _ _ _) (Clock.after (Dev.spareFlag_clock _ _ _) ?_)
        refine h _ ?_ _; exact .of_row rfl
      · split
        · refine Clock.after (Dev.spareFlag_clock _ _ _) ?_
          refine h _ ?_ _; exact .of_row rfl
        · refine h _ ?_ _; exact .of_row rfl
    · exact Clock.after (Dev.spareLow_clock _ _ _) (Clock.after (Dev.bump_clock _ _ _) (d.retire_clock _ _ _))
    · exact (s _ _).trans (Dev.spareFlag_clock _ _ _)
theorem Dev.backInService_clock (d : Dev) (q : Probe) : Clock d (d.backInService q) := by
  unfold Dev.backInService; dsimp only
  have h : Clock d (if (typeOf q.page == 0x16 && locKind q.loc == 6) = true then
      (if bits (d.rg (pf q.page 0x104)) 1 0 = 3 then d.put (pf q.page 0x104) (setBits (setBits (d.rg (pf q.page 0x104)) 11 8 8) 1 0 2) else d) else d) :=
    Clock.ite (Clock.ite (d.put_clock _ _) (.refl d)) (.refl d)
  have e : (if typeOf q.page = 0x16 && locKind q.loc = 6 then
      (if bits (d.rg (pf q.page 0x104)) 1 0 = 3 then d.put (pf q.page 0x104) (setBits (setBits (d.rg (pf q.page 0x104)) 11 8 8) 1 0 2) else d) else d) = 
      (if (typeOf q.page == 0x16 && locKind q.loc == 6) = true then
      (if bits (d.rg (pf q.page 0x104)) 1 0 = 3 then d.put (pf q.page 0x104) (setBits (setBits (d.rg (pf q.page 0x104)) 11 8 8) 1 0 2) else d) else d) := rfl
  rw [e]
  generalize (if (typeOf q.page == 0x16 && locKind q.loc == 6) = true then _ else d) = x at h
  refine Clock.ite h ?_
  split
  · exact h.trans (Dev.modPage_clock _ _ _)
  · refine Clock.after (Clock.foldl _ (fun d _ => Clock.ite (d.modPage_clock _ _) (.refl d)) _ _) (h.trans (Dev.modPage_clock _ _ _))
theorem Dev.probeActs_clock (d : Dev) : Clock d d.probeActs := by
  unfold Dev.probeActs; dsimp only
  refine Clock.after (Clock.foldl _ (fun d q => Clock.ite (d.backInService_clock q) ?_) _ _) (.of_row rfl)
  exact Clock.ite (Clock.after (.of_row rfl : Clock (d.lasting q) _) (d.lasting_clock q)) (d.lasting_clock q)
theorem Dev.standIns_clock (d : Dev) : Clock d d.standIns := by
  refine Clock.foldl _ (fun d u => ?_) _ d
  refine Clock.after (Clock.foldl _ (fun (d : Dev) (p : Nat) => ?_) _ _) (Clock.foldl _ (fun (d : Dev) (s : Nat) => ?_) _ d)
  · split
    · exact .refl d
    · exact Clock.after (Dev.logEvent_clock _ _ _ _ _ _ _) (Clock.after (Dev.bump_clock _ _ _) (d.modPage_clock _ _))
  · exact Clock.ite (d.modPage_clock _ _) (.refl d)

/-! Publishes -/

theorem Dev.takeMarkers_clock (d : Dev) (l : List Nat) (h : Holder) : Clock d (d.takeMarkers l h) :=
  Clock.foldl _ (fun (e : Dev) (i : Nat) => (.of_row rfl : Clock e (e.setMarker i ⟨0, 0, 0, h⟩))) _ d
theorem Dev.timerPublish_clock (d : Dev) (m : Nat) : Clock d (d.timerPublish m) := by
  unfold Dev.timerPublish; dsimp only
  have r (x : Dev) (b c f : Bool) (n : Nat) : Clock x { x with row := { x.row with running := b, missed := n, relocking := c, wide := f } } := ⟨rfl, rfl, rfl, rfl⟩
  split
  · exact ⟨rfl, rfl, rfl, rfl⟩
  · refine Clock.after (r _ _ _ _ _) (Clock.ite ?_ (Clock.after (Dev.vector_clock _ _ _) ?_)) <;> exact ⟨rfl, rfl, rfl, rfl⟩

theorem Dev.residentEpoch_clock (d : Dev) (o : NMap Obj) (x : Nat × Content) : Clock d (d.residentEpoch o x) := by
  unfold Dev.residentEpoch; split
  · exact .refl d
  · exact Clock.ite (.refl d) (d.takeMarkers_clock _ _)
theorem Dev.jobsAtPublish_clock (d : Dev) (r : Nat) (x : Nat × Content) : Clock d (d.jobsAtPublish r x) := by
  unfold Dev.jobsAtPublish; dsimp only
  exact Clock.ite (Clock.after (Dev.bump_clock _ _ _) (.of_row rfl)) (.of_row rfl)
theorem Dev.autoMerge_clock (d : Dev) (x : Nat × Content) : Clock d (d.autoMerge x) := by
  unfold Dev.autoMerge; dsimp only
  exact Clock.ite (.of_row rfl) (.refl d)
theorem Dev.after_clock (d : Dev) (m : NMap Word) : Clock d (d.after m) := by
  unfold Dev.after; dsimp only
  exact Clock.after (Clock.foldl _ (fun (d : Dev) (_ : Nat) => d.modPage_clock _ _) _ _) (.of_row rfl)
theorem Dev.pass_clock (d : Dev) (p : Nat) : Clock d (d.pass p) := .of_row rfl
theorem Dev.latchSwatches_clock (d : Dev) : Clock d d.latchSwatches := by
  unfold Dev.latchSwatches
  exact Clock.after (Dev.put64_clock _ _ _) (Clock.foldl _ (fun (x : Dev) (_ : Nat) => x.put64_clock _ _) _ d)
theorem Dev.showTenants_clock (d : Dev) : Clock d d.showTenants := Clock.foldl _ (fun (d : Dev) (_ : Nat) => d.put_clock _ _) _ d
theorem Dev.enterPub_clock (d : Dev) (p : Pub) : Clock d (d.enterPub p) := by
  unfold Dev.enterPub; dsimp only
  refine Clock.after (Clock.foldl _ (fun (d : Dev) (q : Nat) => Clock.after (Dev.put_clock _ _ _) (Clock.ite (.refl d) (d.pass_clock q))) _ _) ?_
  exact Clock.after (Dev.after_clock _ _) (Clock.after (Dev.bump_clock _ _ _) (.of_row rfl))
theorem Dev.cleanPages_clock (d : Dev) : Clock d d.cleanPages :=
  Clock.foldl _ (fun (d : Dev) (_ : Nat) => Clock.ite (d.modPage_clock _ _) (.refl d)) _ d
theorem Dev.afterPub_clock (d : Dev) (p : Pub) (o : NMap Obj) : Clock d (d.afterPub p o) := by
  unfold Dev.afterPub; dsimp only
  refine Clock.after (Clock.foldl _ (fun (d : Dev) (t : Nat) => d.event_clock t 3) _ _) ?_
  refine Clock.after (Clock.foldl _ (fun (d : Dev) (x : Nat × Content) => (d.jobsAtPublish_clock p.row x).trans (Dev.autoMerge_clock _ x)) _ _) ?_
  exact Clock.after (Dev.bump_clock _ _ _) (Clock.foldl _ (fun (e : Dev) (x : Nat × Content) => e.residentEpoch_clock o x) _ d)
theorem Dev.applyPub_clock (d : Dev) (p : Pub) : Clock d (d.applyPub p) := by
  unfold Dev.applyPub; dsimp only
  have h := (d.enterPub_clock p).trans (Dev.cleanPages_clock _)
  generalize (d.enterPub p).cleanPages = x at h ⊢
  refine Clock.after (Dev.pubDone_clock _ _ _ _ _) (Clock.after (Dev.vector_clock _ _ _) (Clock.after (Dev.afterPub_clock _ _ _) ?_))
  refine Clock.after (Dev.pubBit_clock _ _ _) (Clock.after (Dev.pubBit_clock _ _ _) (Clock.after (Dev.put64_clock _ _ _) (Clock.after (Dev.bump_clock _ _ _) ?_)))
  exact Clock.after (Dev.showTenants_clock _) (Clock.after (Dev.latchSwatches_clock _) (Clock.after (Dev.timerPublish_clock _ _) h))

theorem Dev.casEffect_clock (d : Dev) : Clock d d.casEffect := by
  have h := d.bump_clock (pf 0xD 0x040) 1
  have w (x : Dev) (c : Cascade) : Clock x { x with cas := c } := .of_row rfl
  unfold Dev.casEffect; dsimp only
  generalize d.bump (pf 0xD 0x040) 1 = e at h ⊢
  refine Clock.ite (Clock.after (w _ _) h) (Clock.ite ?_ (Clock.ite ?_ ?_))
  · exact Clock.after (Dev.put64_clock _ _ _) (Clock.after (w _ _) h)
  · exact Clock.after (Dev.put64_clock _ _ _) (Clock.after (Dev.put64_clock _ _ _) (Clock.after (w _ _) h))
  · exact Clock.after (w _ _) h
theorem Dev.boundaryPub_clock (d : Dev) : Clock d d.boundaryPub := by
  unfold Dev.boundaryPub; split
  · exact .refl d
  · rename_i p _
    refine Clock.ite (.refl d) (Clock.ite (Clock.after (Dev.casEffect_clock _) (d.applyPub_clock _)) ?_)
    dsimp only
    have h : Clock d (if p.checked = true then d else d.checkDone) := Clock.ite (.refl d) d.checkDone_clock
    generalize (if p.checked = true then d else d.checkDone) = x at h ⊢
    split
    · exact h
    · exact Clock.ite (Clock.after (Dev.pubBit_clock _ _ _) (Clock.after (.of_row rfl) h)) (Clock.after (Dev.applyPub_clock _ _) h)
theorem Dev.endSilent_clock (d : Dev) (id : Nat) : Clock d (d.endSilent id) := (d.endSilent_works id).clock
theorem Dev.isolate_clock (d : Dev) : Clock d d.isolate := by
  have w (x : Dev) (c : Cascade) : Clock x { x with cas := c } := .of_row rfl
  have h : Clock d (((d.strands.filter fun p => p.2.part.isSome).map (·.1)).foldl (fun d id => d.endSilent id) d) :=
    Clock.foldl _ (fun (d : Dev) (id : Nat) => d.endSilent_clock id) _ d
  unfold Dev.isolate; dsimp only
  refine Clock.after (Dev.vector_clock _ _ _) (Clock.after (Dev.bump_clock _ _ _) (Clock.after (w _ _) ?_))
  generalize ((d.strands.filter fun p => p.2.part.isSome).map (·.1)).foldl (fun d id => d.endSilent id) d = x at h
  split
  · refine Clock.after (Dev.pubDone_clock _ _ _ _ _) (Clock.after (Dev.pubBit_clock _ _ _) (Clock.after (Dev.pubBit_clock _ _ _) (Clock.after (Dev.restage_clock _ _) ?_)))
    exact Clock.after (.of_row rfl) h
  · exact h
theorem Dev.readyAlone_clock (d : Dev) : Clock d d.readyAlone := by
  unfold Dev.readyAlone; split
  · exact Clock.ite d.isolate_clock (.refl d)
  · exact .refl d
theorem Dev.publishRow_clock (d : Dev) : Clock d d.publishRow := by
  unfold Dev.publishRow; dsimp only
  refine Clock.ite d.boundaryPub_clock (Clock.after (.of_row rfl) ?_)
  have h : Clock d (if (d.boundaryPub.cas.state == 3 && !d.boundaryPub.enAct 0xD) = true then { d.boundaryPub with cas := d.boundaryPub.cas.left } else d.boundaryPub) :=
    Clock.ite (Clock.after (.of_row rfl) d.boundaryPub_clock) d.boundaryPub_clock
  generalize (if (d.boundaryPub.cas.state == 3 && !d.boundaryPub.enAct 0xD) = true then { d.boundaryPub with cas := d.boundaryPub.cas.left } else d.boundaryPub) = x at h ⊢
  exact Clock.ite (Clock.after (Clock.foldl _ (fun (d : Dev) (t : Nat) => d.event_clock t 0) _ _) (Clock.after (.of_row rfl) h)) h

/-! Releases and posts -/

theorem Dev.releaseEpoch_clock (d : Dev) (h : Nat) (e : Epoch) : Clock d (d.releaseEpoch h e) := by
  unfold Dev.releaseEpoch; dsimp only
  have h0 : Clock d ((d.setObj h { d.obj h with epochs := (d.obj h).epochs.filter (·.stamp != e.stamp) }).bump (pf 2 0x22C) 1) :=
    Clock.after (Dev.bump_clock _ _ _) (.of_row rfl)
  split
  · exact Clock.after (.of_row rfl) h0
  · exact Clock.after (.of_row rfl) h0
theorem Dev.freeModelPage_clock (d : Dev) (h : Nat) : Clock d (d.freeModelPage h) := by
  unfold Dev.freeModelPage; split
  · exact .refl d
  · exact Clock.after (Dev.bump_clock _ _ _) (.of_row rfl)
theorem Dev.releaseObject_clock (d : Dev) (h : Nat) : Clock d (d.releaseObject h) := by
  unfold Dev.releaseObject; dsimp only
  have h0 := Clock.foldl (fun (d : Dev) (e : Epoch) => d.releaseEpoch h e) (fun d e => d.releaseEpoch_clock h e)
    ((d.obj h).epochs.filter fun e => (d.obj h).cur != some e && (d.pinned h e.stamp).isEmpty && !d.jobHolds h e.stamp) d
  refine Clock.ite h0 ?_
  have h1 := Clock.ite (c := handleKind h = 4) (Clock.after (Dev.freeModelPage_clock _ h) h0) h0
  exact Clock.ite h1 (Clock.after (.of_row rfl) h1)
theorem Dev.releaseDead_clock (d : Dev) : Clock d d.releaseDead := Clock.foldl _ (fun (d : Dev) (h : Nat) => d.releaseObject_clock h) _ d
theorem Dev.postFinal_clock (d : Dev) (id : Nat) (s : Strand) (f : Final) : Clock d (d.postFinal id s f) := by
  unfold Dev.postFinal; dsimp only
  exact Clock.after (Dev.toEnding_works _ _).clock (Clock.after (Dev.endParts_sig _ _ _).clock (Clock.after (Dev.countEnd_sig _ _ _).clock
    (Clock.after (Dev.finishStrand_posts _ _ _ _ _ _ _ _).clock (d.writeOut_clock _ _))))
theorem Dev.postStream_clock (d : Dev) (id : Nat) (s : Strand) : Clock d (d.postStream id s) := by
  unfold Dev.postStream; dsimp only
  refine Clock.after (Dev.modStrand_works _ _ _).clock (Clock.ite (Clock.after (Dev.stream_posts _ _ _).clock ?_) ?_) <;> exact d.writeOut_clock _ _
theorem Dev.postRow_clock (d : Dev) : Clock d d.postRow := by
  refine Clock.foldl _ (fun (d : Dev) (p : Nat × Strand) => ?_) _ d
  split
  · exact Clock.ite (d.postFinal_clock _ _ _) (.refl d)
  · exact (d.postStream_clock _ _).trans (Dev.modStrand_works _ _ _).clock
theorem Dev.closeLanes_clock (d : Dev) : Clock d d.closeLanes := .of_row rfl

/-! WARM -/

theorem Dev.endAll_clock (d : Dev) : Clock d d.endAll := by
  unfold Dev.endAll; dsimp only
  exact Clock.after (.of_row rfl) (Clock.foldl _ (fun (d : Dev) (id : Nat) => d.endSilent_clock id) _ d)
theorem Dev.endJobs_clock (d : Dev) : Clock d d.endJobs := Clock.after (Dev.bump_clock _ _ _) (.of_row rfl)
theorem Dev.dropPub_clock (d : Dev) : Clock d d.dropPub := by
  unfold Dev.dropPub; split
  · exact .refl d
  · dsimp only; split <;> exact .of_row rfl
theorem Dev.dropUpdate_clock (d : Dev) (b : Bool) : Clock d (d.dropUpdate b) := by
  unfold Dev.dropUpdate; dsimp only
  refine Clock.ite (.refl d) ?_
  have h1 : Clock d (if d.fw.cmd.isSome = true then d.forget ⟨0, 0⟩ else d) := Clock.ite (.of_row rfl) (.refl d)
  generalize (if d.fw.cmd.isSome = true then d.forget ⟨0, 0⟩ else d) = x at h1 ⊢
  refine Clock.ite (Clock.after (Dev.vector_clock _ _ _) ?_) ?_ <;> exact Clock.after (Dev.bump_clock _ _ _) (Clock.after (.of_row rfl) h1)
theorem Dev.abandonProbes_clock (d : Dev) : Clock d d.abandonProbes := Clock.foldl _ (fun (d : Dev) (_ : Probe) => d.put_clock _ _) _ d
theorem Dev.dropChecks_clock (d : Dev) (r : Nat → Bool) : Clock d (d.dropChecks r) :=
  Clock.foldl _ (fun (d : Dev) (c : Check) => (.of_row rfl : Clock d (d.dropCheck c.page))) _ d
theorem Dev.recheck_clock (n : Nat) (d : Dev) : Clock d (d.recheck n) := by
  induction n generalizing d with
  | zero => exact .refl d
  | succ n ih =>
    unfold Dev.recheck; dsimp only
    refine Clock.ite (Clock.foldl _ (fun (d : Dev) (p : Nat) => d.pass_clock p) _ d) (Clock.after (ih _) ?_)
    exact Clock.foldl _ (fun (d : Dev) (x : Nat × Nat) => (.of_row rfl : Clock d ((d.refuse x.1 x.2).putBits (pf x.1 0x008) 0 0 0))) _ d
theorem Dev.snapshotAt_clock (d : Dev) (s : PubSrc) (n : Nat) (b : Bool) : Clock d (d.snapshotAt s n b) := by
  unfold Dev.snapshotAt; dsimp only
  refine Clock.after (Dev.pubBit_clock _ _ _) (Clock.after (.of_row rfl) (Clock.foldl _ (fun (d : Dev) (x : Nat × Content) => d.setObj_clock _ _) _ d))
theorem Dev.restartPublish_clock (d : Dev) : Clock d d.restartPublish :=
  (d.recheck_clock 400).trans (Dev.snapshotAt_clock _ _ _ _)
theorem Dev.dirtyPages_clock (d : Dev) : Clock d d.dirtyPages := Clock.foldl _ (fun (d : Dev) (_ : Nat) => d.modPage_clock _ _) _ d

theorem Dev.clearRegs_clock (d : Dev) (r : Reset) (f : Nat → Bool) : Clock d (d.clearRegs r f) := .of_row rfl
theorem Dev.forget_clock (d : Dev) (q : QRef) : Clock d (d.forget q) := .of_row rfl
theorem Dev.warm_clock (d : Dev) (c : Nat) : Clock d (d.warm c) := by
  unfold Dev.warm; dsimp only
  have h : Clock d (((d.endAll.resetMarkers.endJobs.dropPub.dropUpdate true).abandonProbes.dropChecks fun _ => true).dropShadows.releaseDead) :=
    Clock.after (Dev.releaseDead_clock _) (Clock.after (.of_row rfl) (Clock.after (Dev.dropChecks_clock _ _) (Clock.after (Dev.abandonProbes_clock _)
      (Clock.after (Dev.dropUpdate_clock _ _) (Clock.after (Dev.dropPub_clock _) (Clock.after (Dev.endJobs_clock _) (Clock.after (.of_row rfl) d.endAll_clock)))))))
  generalize ((d.endAll.resetMarkers.endJobs.dropPub.dropUpdate true).abandonProbes.dropChecks fun _ => true).dropShadows.releaseDead = x at h ⊢
  have h2 : Clock x (x.owed.foldl (fun (d : Dev) y => d.forget y.1.q) (x.clearRegs .warm fun _ => true)) :=
    Clock.after (Clock.foldl _ (fun (d : Dev) (y : Cmd × Nat × List Byte) => d.forget_clock y.1.q) _ _) (x.clearRegs_clock _ _)
  generalize x.owed.foldl (fun (d : Dev) y => d.forget y.1.q) (x.clearRegs .warm fun _ => true) = y at h2 ⊢
  refine Clock.after (Dev.dirtyPages_clock _) (Clock.after (Dev.restartPublish_clock _) (Clock.after (Dev.put_clock _ _ _) (Clock.after (Dev.bump_clock _ _ _) ?_)))
  exact Clock.after (e := y) ⟨rfl, rfl, rfl, rfl⟩ (h.trans h2)

/-! Aborts, unpicks and the plan -/

theorem Dev.abortOne_clock (d : Dev) (x : Cmd × Option Nat × Option (QRef × Nat)) : Clock d (d.abortOne x) := by
  unfold Dev.abortOne; split
  · exact Clock.ite ((d.expireNow_works _).clock.trans (Dev.finishNoStrand_clock _ _ _ _ _ _))
      ((d.abortStrand_works _).clock.trans (Dev.finishNoStrand_clock _ _ _ _ _ _))
  · split
    · exact Clock.after (Dev.finishNoStrand_clock _ _ _ _ _ _) (Clock.after (Dev.finishNoStrand_clock _ _ _ _ _ _) (.of_row rfl))
    · exact d.finishNoStrand_clock _ _ _ _ _
theorem Dev.abortAll_clock (d : Dev) : Clock d d.abortAll := by
  unfold Dev.abortAll
  exact Clock.after (Clock.foldl _ (fun (d : Dev) x => d.abortOne_clock x) _ _) (.of_row rfl)
theorem Dev.wake_clock (d : Dev) (i : Nat) : Clock d (d.wake i) := by
  unfold Dev.wake; dsimp only
  exact Clock.after (Dev.bumpK_clock _ _ _) (Clock.after (Dev.waiters_works _ _ _).clock ⟨rfl, rfl, rfl, rfl⟩)
theorem Dev.setByHand_clock (d : Dev) (i v l : Nat) : Clock d (d.setByHand i v l) := by
  unfold Dev.setByHand
  exact Clock.after (Dev.wake_clock _ _) (Clock.after (Dev.bump_clock _ _ _) (.of_row rfl))
theorem Dev.unpick_clock (d : Dev) (x : Cmd × Nat × Nat) : Clock d (d.unpick x) := by
  have h : Clock d ((d.bumpMarker x.2.1 0x054 1).finishNoStrand x.1 0 0 0 0) := Clock.after (Dev.finishNoStrand_clock _ _ _ _ _ _) (d.bump_clock _ _)
  unfold Dev.unpick; split
  · exact Clock.ite (Clock.after (Dev.finishNoStrand_clock _ _ _ _ _ _) (d.setByHand_clock _ _ _)) h
  · exact h
theorem Dev.force_clock (d : Dev) (x : Nat × Nat) : Clock d (d.force x) := Clock.ite (d.bump_clock _ _) (d.setByHand_clock _ _ _)
theorem Dev.unpickAll_clock (d : Dev) : Clock d d.unpickAll := by
  unfold Dev.unpickAll; dsimp only
  exact Clock.after (Clock.foldl _ (fun (d : Dev) x => d.force_clock x) _ _)
    (Clock.after (Clock.foldl _ (fun (d : Dev) x => d.unpick_clock x) _ _) (.of_row rfl))
theorem Dev.runonRow_clock (d : Dev) : Clock d d.runonRow := by
  have w (x : Dev) (a b : Bool) (c : Nat) : Clock x { x with row := { x.row with planned := a, missedPlan := b, runonCause := c } } := ⟨rfl, rfl, rfl, rfl⟩
  unfold Dev.runonRow; dsimp only
  refine Clock.ite ?_ ?_
  · exact Clock.after (w _ _ _ _) (Clock.after (Dev.put_clock _ _ _) (Clock.ite (d.put_clock _ _) (.refl d)))
  · exact Clock.after (w _ _ _ _) (Clock.after (Dev.bump_clock _ _ _) (d.put_clock _ _))
theorem Dev.addSlice_clock (d : Dev) (s : Option Nat) (p : Placed) : Clock d (d.addSlice s p) := .of_row rfl
theorem Dev.dropSlices_clock (d : Dev) : Clock d d.dropSlices := .of_row rfl
theorem Dev.countSlot_clock (d : Dev) (s : Slot) : Clock d (d.countSlot s) := Clock.ite (d.bumpUnitK_works _ _ _).clock (.refl d)
theorem Dev.dropStep_clock (d : Dev) (id c : Nat) : Clock d (d.dropStep id c) := (d.dropStep_works id c).clock
theorem Dev.buildPlan_clock (d : Dev) : Clock d d.buildPlan := by
  have h : Clock d d.freshRow := .of_row rfl
  unfold Dev.buildPlan; dsimp only
  generalize d.freshRow = x at h ⊢
  have slots (e : Dev) (l : List Slot) (t : Nat) : Clock e { e.countLanes with row := { e.row with slots := l, loadTime := t } } :=
    ⟨rfl, rfl, rfl, rfl⟩
  have bed (e : Dev) (t : Tiers) : Clock e ({ e with tiers := t }.dropSlices) := .of_row rfl
  refine Clock.after (Clock.foldl _ (fun (d : Dev) id => d.dropStep_clock id 6) _ _) (Clock.after (Clock.foldl _ (fun (d : Dev) id => d.dropStep_clock id 5) _ _) ?_)
  refine Clock.after (Clock.foldl _ (fun (d : Dev) s => d.countSlot_clock s) _ _) (Clock.after (bed _ _) ?_)
  exact Clock.after (Clock.foldl _ (fun (d : Dev) (q : Placed × Nat) => d.addSlice_clock (some q.2) q.1) _ _)
    (Clock.after (slots _ _ _) h)
theorem Dev.passIdle_clock (d : Dev) : Clock d d.passIdle := by
  refine Clock.foldl _ (fun (d : Dev) (p : Nat × Strand) => ?_) _ d
  split
  · exact Clock.ite (d.putStrand_works _ _).clock (.refl d)
  · exact .refl d
theorem Dev.jobProgress_clock (d : Dev) : Clock d d.jobProgress := by
  unfold Dev.jobProgress
  refine Clock.ite (.refl d) ?_
  refine Clock.foldl _ (fun (d : Dev) (j : Job) => ?_) _ d
  exact Clock.ite (.of_row rfl) (.refl d)
theorem Dev.marker__clock (d : Dev) : Clock d d.marker_ := by
  unfold Dev.marker_; dsimp only
  exact Clock.ite (Clock.ite (Clock.after (Dev.emit_clock _ _) (d.emit_clock _)) (d.emit_clock _)) (.refl d)
theorem Dev.pulse_clock (d : Dev) : Clock d d.pulse := Clock.ite (d.emit_clock _) (.refl d)

theorem Dev.trimLost_clock (d : Dev) : Clock d d.trimLost := .of_row rfl
theorem Dev.headRelease_clock (d : Dev) : Clock d d.headRelease := by
  unfold Dev.headRelease; dsimp only
  exact Clock.after (Dev.standIns_clock _) (Clock.after (Dev.probeActs_clock _) (.of_row rfl))
theorem Dev.headEffects_clock (d : Dev) : Clock d d.headEffects := by
  unfold Dev.headEffects; dsimp only
  refine Clock.after (Dev.unpickAll_clock _) (Clock.after (Dev.abortAll_clock _) (Clock.ite ?_ (d.warm_clock _)))
  exact Clock.after (Dev.postOwed_clock _) (Clock.after (Dev.postRow_clock _) (Clock.after (Dev.closeLanes_clock _) (Clock.after (Dev.trimLost_clock _) (Clock.after (Dev.releaseDead_clock _)
    (Clock.after (Dev.publishRow_clock _) d.readyAlone_clock)))))
theorem Dev.headPlan_clock (d : Dev) : Clock d d.headPlan := by
  unfold Dev.headPlan; dsimp only
  refine Clock.after (Dev.pulse_clock _) (Clock.after (Dev.marker__clock _) (Clock.after (.of_row rfl : Clock (Dev.jobProgress _) _) (Clock.after (Dev.jobProgress_clock _)
    (Clock.after (Dev.bumpK_clock _ _ _) (Clock.after (Dev.passIdle_clock _) (Clock.after (Dev.buildPlan_clock _) d.runonRow_clock))))))

/-- The head of a row leaves the clock of the row. -/
theorem Dev.head_clock (d : Dev) : Clock d d.head :=
  (d.headRelease_clock.trans (Dev.headEffects_clock _)).trans (Dev.headPlan_clock _)

/-- The step to the next row: number, correction and windows (R29, R54, R55). -/
theorem Dev.nextRow_clock (d : Dev) : d.nextRow.row.number = d.row.number + 1 ∧ d.nextRow.row.corr = 0 ∧ d.nextRow.row.windows = 0 := by
  have h : d.closeWindow.row.number = d.row.number := by
    unfold Dev.closeWindow; dsimp only; split
    · rfl
    · exact ((Dev.bump_sig _ _ _).clock).1
  refine ⟨?_, rfl, rfl⟩
  show d.closeWindow.row.number + 1 = _
  rw [h]

end Sys2Proof.Machine
end

