-- ==== Sys2Proof/Laws/Flags.lean ====
section
/-! SUPPORT. What reports set: the flag of an error, the newest record of the fault log. -/

namespace Sys2Proof.Machine

theorem Dev.alert_rg (d : Dev) {k : Nat} (h : k ∉ alertRegs) : d.alert.rg k = d.rg k := (d.alert_on (ks := alertRegs) fun _ h => h).2 k h

theorem Dev.vector_rg (d : Dev) {f v k : Nat} (h : k ≠ msixPba f v) : (d.vector f v).rg k = d.rg k :=
  (d.vector_on (ks := [msixPba f v]) f v (List.mem_singleton.mpr rfl)).2 k fun m => h (List.mem_singleton.mp m)

/-- A flag of PG_ERR_STAT is set. -/
theorem Dev.errFlag_bit (d : Dev) (p b : Nat) (hb : b < 32) (h : pf p 0x020 ∉ msixPba 0 1 :: alertRegs) :
    bit ((d.errFlag p b).rg (pf p 0x020)) b = true := by
  rw [List.mem_cons, not_or] at h
  unfold Dev.errFlag; dsimp only
  rw [Dev.alert_rg _ h.2]
  split
  · exact Dev.bit_put_setBit _ _ _ _ hb
  · rw [Dev.vector_rg _ h.1]; exact Dev.bit_put_setBit _ _ _ _ hb

/-- An error sets the flag of its class. -/
theorem Dev.error_bit (d : Dev) (p b code loc : Nat) (hb : b < 32) (h : pf p 0x020 ∉ msixPba 0 1 :: alertRegs) :
    bit ((d.error p b code loc).rg (pf p 0x020)) b = true := by
  unfold Dev.error; exact Dev.errFlag_bit _ _ _ hb h

theorem logKept_last (l : List LogRec) (x : LogRec) : (logKept (l ++ [x])).getLast? = some x := by
  unfold logKept
  rw [List.getLast?_reverse, List.reverse_append, List.reverse_singleton]
  rfl

/-- The newest record of the fault log is the one just written (R482). -/
theorem Dev.logEvent_last (d : Dev) (slot event strand tenant loc code : Nat) :
    (d.logEvent slot event strand tenant loc code).fault.log.getLast? =
      some ⟨d.row.number, ((pageInfo slot).getD (0, 0)).1, ((pageInfo slot).getD (0, 0)).2, event, strand, tenant, loc, code, d.rg (pf 7 0x108)⟩ := by
  rw [Dev.logEvent]
  simp only [Dev.bump_fault, Dev.put_fault, logKept_last]

end Sys2Proof.Machine
end

