-- ==== Sys2Proof/Laws/PerInstr.lean ====
section
/-! SUPPORT. The family Opcode, one lemma per command: the dwords that a command of a queue brings are at most seven, and each fits its 32 bits
when the command is well formed (R101, R105). -/

namespace Sys2Proof.Laws.Opcode

open Sys2Proof.Machine

/-- A command of a queue has an 8-bit opcode, its entry is well formed with it, and its dwords fit the entry. -/
def Statement (i : Instr) : Prop :=
  ∀ e op l, queued i = some (e, op, l) → op < 256 ∧ l.length ≤ 7 ∧ (i.wf = true → e.wf = true ∧ ∀ x ∈ l, x < 2 ^ 32)

/-- A command that is not of a queue brings no dwords. -/
theorem of_none {i : Instr} (h : queued i = none) : Statement i := by
  intro e op l g; rw [h] at g; cases g

/-- A command of a queue, by its entry and dwords. -/
theorem of_some {i : Instr} {e : Entry} {op : Nat} {l : List Nat} (h : queued i = some (e, op, l)) (hop : op < 256) (hl : l.length ≤ 7)
    (hw : i.wf = true → e.wf = true ∧ ∀ x ∈ l, x < 2 ^ 32) : Statement i := by
  intro e' op' l' g; rw [h] at g; cases g; exact ⟨hop, hl, hw⟩

theorem b2n_lt (b : Bool) : b2n b < 2 ^ 32 := by cases b <;> decide

theorem searchDw_fits (f : SearchF) (h : f.wf = true) : ∀ x ∈ searchDw f, x < 2 ^ 32 := by
  simp only [SearchF.wf, Bool.and_eq_true, decide_eq_true_eq] at h
  intro x hx
  simp only [searchDw, searchWord, List.mem_cons, List.not_mem_nil, or_false] at hx
  omega

theorem retrieveDw_fits (f : RetrieveF) (h : f.wf = true) : ∀ x ∈ retrieveDw f, x < 2 ^ 32 := by
  simp only [RetrieveF.wf, Bool.and_eq_true, decide_eq_true_eq] at h
  intro x hx
  simp only [retrieveDw, searchWord, List.mem_cons, List.not_mem_nil, or_false] at hx
  omega

theorem genDw_fits (f : GenF) (n : Nat) (h : f.wf = true) : ∀ x ∈ genDw f n, x < 2 ^ 32 := by
  simp only [GenF.wf, Bool.and_eq_true, decide_eq_true_eq] at h
  intro x hx
  simp only [genDw, List.mem_cons, List.not_mem_nil, or_false] at hx
  omega

theorem rowBoundary : Statement (.rowBoundary) := of_none rfl

theorem accessWindow : Statement (.accessWindow) := of_none rfl

theorem planCommit (late : Bool) (lateGroups : List Nat) : Statement (.planCommit late lateGroups) := of_none rfl

theorem planDeadline (lateGroups : List Nat) : Statement (.planDeadline lateGroups) := of_none rfl

theorem runonExpiry : Statement (.runonExpiry) := of_none rfl

theorem stitchStart (slot : Nat) (inputs : List Input) : Statement (.stitchStart slot inputs) := of_none rfl

theorem stitchCommit (slot : Nat) : Statement (.stitchCommit slot) := of_none rfl

theorem slotEnd (slot : Nat) : Statement (.slotEnd slot) := of_none rfl

theorem stallLimit (strand : Nat) : Statement (.stallLimit strand) := of_none rfl

theorem pinAgeExpiry (strand : Nat) : Statement (.pinAgeExpiry strand) := of_none rfl

theorem rowsyncEdge (ns : Int) : Statement (.rowsyncEdge ns) := of_none rfl

theorem syncLoss : Statement (.syncLoss) := of_none rfl

theorem relock : Statement (.relock) := of_none rfl

theorem enableRequest (fn slot : Nat) (value : Word) : Statement (.enableRequest fn slot value) := of_none rfl

theorem enableCheckDone (fn slot : Nat) : Statement (.enableCheckDone fn slot) := of_none rfl

theorem disableWrite (slot : Nat) (value : Word) : Statement (.disableWrite slot value) := of_none rfl

theorem qpDisable (q : QRef) : Statement (.qpDisable q) := of_none rfl

theorem qpDrainDone (q : QRef) : Statement (.qpDrainDone q) := of_none rfl

theorem softReset (fn slot : Nat) : Statement (.softReset fn slot) := of_none rfl

theorem blockResetDone (fn slot : Nat) : Statement (.blockResetDone fn slot) := of_none rfl

theorem commit : Statement (.commit) := of_none rfl

theorem publishCheckDone : Statement (.publishCheckDone) := of_none rfl

theorem admCtrlEnable (value : Word) : Statement (.admCtrlEnable value) := of_none rfl

theorem sqDoorbell (q : QRef) (tail : Nat) : Statement (.sqDoorbell q tail) := of_none rfl

theorem cqDoorbell (q : QRef) (head : Nat) : Statement (.cqDoorbell q head) := of_none rfl

theorem entryFetch (q : QRef) (entry input : List Byte) : Statement (.entryFetch q entry input) := of_none rfl

theorem commandDecision : Statement (.commandDecision) := of_none rfl

theorem irqDelayExpiry (q : QRef) : Statement (.irqDelayExpiry q) := of_none rfl

theorem publish (e : Entry) : Statement (.publish e) :=
  of_some rfl (by decide) (Nat.le_of_ble_eq_true rfl) fun h => by
    simp only [Instr.wf, Entry.admin, Bool.and_eq_true] at h
    exact ⟨by simp only [h], fun _ hx => nomatch hx⟩

theorem reset (e : Entry) (kind : Nat) : Statement (.reset e kind) :=
  of_some rfl (by decide) (Nat.le_of_ble_eq_true rfl) fun h => by
    simp only [Instr.wf, Entry.admin, Bool.and_eq_true, decide_eq_true_eq] at h
    refine ⟨by simp only [h], fun x hx => ?_⟩
    simp only [List.mem_cons, List.not_mem_nil, or_false] at hx
    omega

theorem abortAny (e : Entry) (strand : Nat) : Statement (.abortAny e strand) :=
  of_some rfl (by decide) (Nat.le_of_ble_eq_true rfl) fun h => by
    simp only [Instr.wf, Entry.admin, Bool.and_eq_true, decide_eq_true_eq] at h
    refine ⟨by simp only [h], fun x hx => ?_⟩
    simp only [List.mem_cons, List.not_mem_nil, or_false] at hx
    omega

theorem objectLoadShared (e : Entry) (offset : Nat) : Statement (.objectLoadShared e offset) :=
  of_some rfl (by decide) (Nat.le_of_ble_eq_true rfl) fun h => by
    simp only [Instr.wf, Entry.admin, Bool.and_eq_true, decide_eq_true_eq] at h
    refine ⟨by simp only [h], fun x hx => ?_⟩
    simp only [List.mem_cons, List.not_mem_nil, or_false] at hx
    omega

theorem embed (e : Entry) (inputTokens : Bool) (outFmt : Nat) : Statement (.embed e inputTokens outFmt) :=
  of_some rfl (by decide) (Nat.le_of_ble_eq_true rfl) fun h => by
    simp only [Instr.wf, Entry.tenant, Bool.and_eq_true, decide_eq_true_eq] at h
    refine ⟨by simp only [h], fun x hx => ?_⟩
    have := b2n_lt inputTokens
    simp only [List.mem_cons, List.not_mem_nil, or_false] at hx
    omega

theorem search (e : Entry) (f : SearchF) : Statement (.search e f) :=
  of_some rfl (by decide) (Nat.le_of_ble_eq_true rfl) fun h => by
    simp only [Instr.wf, Entry.tenant, Bool.and_eq_true] at h
    exact ⟨by simp only [h], searchDw_fits f (by simp only [h])⟩

theorem retrieveRank (e : Entry) (f : RetrieveF) : Statement (.retrieveRank e f) :=
  of_some rfl (by decide) (Nat.le_of_ble_eq_true rfl) fun h => by
    simp only [Instr.wf, Entry.tenant, Bool.and_eq_true] at h
    exact ⟨by simp only [h], retrieveDw_fits f (by simp only [h])⟩

theorem rank (e : Entry) (batch itemLen : Nat) : Statement (.rank e batch itemLen) :=
  of_some rfl (by decide) (Nat.le_of_ble_eq_true rfl) fun h => by
    simp only [Instr.wf, Entry.tenant, Bool.and_eq_true, decide_eq_true_eq] at h
    refine ⟨by simp only [h], fun x hx => ?_⟩
    simp only [List.mem_cons, List.not_mem_nil, or_false] at hx
    omega

theorem embedLookup (e : Entry) (bags lookups pool outFmt : Nat) : Statement (.embedLookup e bags lookups pool outFmt) :=
  of_some rfl (by decide) (Nat.le_of_ble_eq_true rfl) fun h => by
    simp only [Instr.wf, Entry.tenant, Bool.and_eq_true, decide_eq_true_eq] at h
    refine ⟨by simp only [h], fun x hx => ?_⟩
    simp only [List.mem_cons, List.not_mem_nil, or_false] at hx
    omega

theorem embedUpdate (e : Entry) (rowsIn optimiser rate : Nat) : Statement (.embedUpdate e rowsIn optimiser rate) :=
  of_some rfl (by decide) (Nat.le_of_ble_eq_true rfl) fun h => by
    simp only [Instr.wf, Entry.tenant, Bool.and_eq_true, decide_eq_true_eq] at h
    refine ⟨by simp only [h], fun x hx => ?_⟩
    simp only [List.mem_cons, List.not_mem_nil, or_false] at hx
    omega

theorem generate (e : Entry) (f : GenF) : Statement (.generate e f) :=
  of_some rfl (by decide) (Nat.le_of_ble_eq_true rfl) fun h => by
    simp only [Instr.wf, Entry.tenant, Bool.and_eq_true] at h
    exact ⟨by simp only [h], genDw_fits f 0 (by simp only [h])⟩

theorem retrieveGenerate (e : Entry) (f : GenF) (retrieveOff : Nat) : Statement (.retrieveGenerate e f retrieveOff) :=
  of_some rfl (by decide) (Nat.le_of_ble_eq_true rfl) fun h => by
    simp only [Instr.wf, Entry.tenant, Bool.and_eq_true] at h
    exact ⟨by simp only [h], genDw_fits f retrieveOff (by simp only [h])⟩

theorem indexInsert (e : Entry) (count : Nat) : Statement (.indexInsert e count) :=
  of_some rfl (by decide) (Nat.le_of_ble_eq_true rfl) fun h => by
    simp only [Instr.wf, Entry.tenant, Bool.and_eq_true, decide_eq_true_eq] at h
    refine ⟨by simp only [h], fun x hx => ?_⟩
    simp only [List.mem_cons, List.not_mem_nil, or_false] at hx
    omega

theorem indexDelete (e : Entry) (count : Nat) : Statement (.indexDelete e count) :=
  of_some rfl (by decide) (Nat.le_of_ble_eq_true rfl) fun h => by
    simp only [Instr.wf, Entry.tenant, Bool.and_eq_true, decide_eq_true_eq] at h
    refine ⟨by simp only [h], fun x hx => ?_⟩
    simp only [List.mem_cons, List.not_mem_nil, or_false] at hx
    omega

theorem indexBuild (e : Entry) (neighbours dim metric indexClass : Nat) : Statement (.indexBuild e neighbours dim metric indexClass) :=
  of_some rfl (by decide) (Nat.le_of_ble_eq_true rfl) fun h => by
    simp only [Instr.wf, Entry.tenant, Bool.and_eq_true, decide_eq_true_eq] at h
    refine ⟨by simp only [h], fun x hx => ?_⟩
    simp only [List.mem_cons, List.not_mem_nil, or_false] at hx
    omega

theorem objectLoad (e : Entry) (offset : Nat) : Statement (.objectLoad e offset) :=
  of_some rfl (by decide) (Nat.le_of_ble_eq_true rfl) fun h => by
    simp only [Instr.wf, Entry.tenant, Bool.and_eq_true, decide_eq_true_eq] at h
    refine ⟨by simp only [h], fun x hx => ?_⟩
    simp only [List.mem_cons, List.not_mem_nil, or_false] at hx
    omega

theorem abort (e : Entry) (byStrand : Bool) (targetQp targetCid strand : Nat) : Statement (.abort e byStrand targetQp targetCid strand) :=
  of_some rfl (by decide) (Nat.le_of_ble_eq_true rfl) fun h => by
    simp only [Instr.wf, Entry.tenant, Bool.and_eq_true, decide_eq_true_eq] at h
    refine ⟨by simp only [h], fun x hx => ?_⟩
    have hb : b2n byStrand ≤ 1 := by cases byStrand <;> decide
    simp only [List.mem_cons, List.not_mem_nil, or_false] at hx
    omega

theorem markerUnpick (e : Entry) (marker value : Nat) : Statement (.markerUnpick e marker value) :=
  of_some rfl (by decide) (Nat.le_of_ble_eq_true rfl) fun h => by
    simp only [Instr.wf, Entry.tenant, Bool.and_eq_true, decide_eq_true_eq] at h
    refine ⟨by simp only [h], fun x hx => ?_⟩
    simp only [List.mem_cons, List.not_mem_nil, or_false] at hx
    omega

theorem fwHeader (e : Entry) : Statement (.fwHeader e) :=
  of_some rfl (by decide) (Nat.le_of_ble_eq_true rfl) fun h => by
    simp only [Instr.wf, Entry.admin, Bool.and_eq_true] at h
    refine ⟨by simp only [h], fun x hx => ?_⟩
    simp only [List.mem_cons, List.not_mem_nil, or_false] at hx
    omega

theorem fwBody (e : Entry) (offset : Nat) : Statement (.fwBody e offset) :=
  of_some rfl (by decide) (Nat.le_of_ble_eq_true rfl) fun h => by
    simp only [Instr.wf, Entry.admin, Bool.and_eq_true, decide_eq_true_eq] at h
    refine ⟨by simp only [h], fun x hx => ?_⟩
    simp only [List.mem_cons, List.not_mem_nil, or_false] at hx
    omega

theorem fwCommit (e : Entry) : Statement (.fwCommit e) :=
  of_some rfl (by decide) (Nat.le_of_ble_eq_true rfl) fun h => by
    simp only [Instr.wf, Entry.admin, Bool.and_eq_true] at h
    refine ⟨by simp only [h], fun x hx => ?_⟩
    simp only [List.mem_cons, List.not_mem_nil, or_false] at hx
    omega

theorem fwCancel (e : Entry) : Statement (.fwCancel e) :=
  of_some rfl (by decide) (Nat.le_of_ble_eq_true rfl) fun h => by
    simp only [Instr.wf, Entry.admin, Bool.and_eq_true] at h
    refine ⟨by simp only [h], fun x hx => ?_⟩
    simp only [List.mem_cons, List.not_mem_nil, or_false] at hx
    omega

theorem fwRevert (e : Entry) : Statement (.fwRevert e) :=
  of_some rfl (by decide) (Nat.le_of_ble_eq_true rfl) fun h => by
    simp only [Instr.wf, Entry.admin, Bool.and_eq_true] at h
    refine ⟨by simp only [h], fun x hx => ?_⟩
    simp only [List.mem_cons, List.not_mem_nil, or_false] at hx
    omega

theorem digestDone : Statement (.digestDone) := of_none rfl

theorem rewriteStart : Statement (.rewriteStart) := of_none rfl

theorem loaderReport (part : Nat) (ok : Bool) : Statement (.loaderReport part ok) := of_none rfl

theorem rewriteTimeout : Statement (.rewriteTimeout) := of_none rfl

theorem cgRestartDone (group : Nat) : Statement (.cgRestartDone group) := of_none rfl

theorem pldmRequestUpdate (header : List Byte) : Statement (.pldmRequestUpdate header) := of_none rfl

theorem pldmTransferComplete (body : List Byte) : Statement (.pldmTransferComplete body) := of_none rfl

theorem activateFirmware : Statement (.activateFirmware) := of_none rfl

theorem ixMerge : Statement (.ixMerge) := of_none rfl

theorem ixCancel : Statement (.ixCancel) := of_none rfl

theorem jobStart (handle : Nat) : Statement (.jobStart handle) := of_none rfl

theorem jobResult (handle : Nat) : Statement (.jobResult handle) := of_none rfl

theorem selectionWrite (slot off : Nat) (value : Word) : Statement (.selectionWrite slot off value) := of_none rfl

theorem rcRead (fn off : Nat) : Statement (.rcRead fn off) := of_none rfl

theorem pairLoRead (fn off : Nat) : Statement (.pairLoRead fn off) := of_none rfl

theorem pairHiRead (fn off : Nat) : Statement (.pairHiRead fn off) := of_none rfl

theorem registerWrite (fn off : Nat) (value : Word) : Statement (.registerWrite fn off value) := of_none rfl

theorem markerSignal (marker : Nat) (add : Bool) (operand srcKind source strand : Nat) (met : Bool) : Statement (.markerSignal marker add operand srcKind source strand met) := of_none rfl

theorem mkSelWrite (page : Nat) (value : Word) : Statement (.mkSelWrite page value) := of_none rfl

theorem mvIndexWrite (page : Nat) (value : Word) : Statement (.mvIndexWrite page value) := of_none rfl

theorem mvValueWrite (page : Nat) (value : Word) : Statement (.mvValueWrite page value) := of_none rfl

theorem mkForceGo (page : Nat) : Statement (.mkForceGo page) := of_none rfl

theorem tierReadReturn (tier server slot : Nat) (member : Option Nat) (late : Bool) (errors : List (Nat × Nat)) (line handle granule : Nat) : Statement (.tierReadReturn tier server slot member late errors line handle granule) := of_none rfl

theorem recoveryDone (line : TierLine) (rebuilt : LineEnd) : Statement (.recoveryDone line rebuilt) := of_none rfl

theorem compressedWrite (die : Nat) (mismatches : PageWrite) : Statement (.compressedWrite die mismatches) := of_none rfl

theorem scrubPass (slot corrected rewritten : Nat) : Statement (.scrubPass slot corrected rewritten) := of_none rfl

theorem sliceLoadStart : Statement (.sliceLoadStart) := of_none rfl

theorem sliceLoadDone : Statement (.sliceLoadDone) := of_none rfl

theorem errorReport (slot cls detail loc : Nat) (core : Nat) : Statement (.errorReport slot cls detail loc core) := of_none rfl

theorem probeStart (slot : Nat) : Statement (.probeStart slot) := of_none rfl

theorem probeEnd (slot : Nat) (passed : Bool) : Statement (.probeEnd slot passed) := of_none rfl

theorem flProbe : Statement (.flProbe) := of_none rfl

theorem flSelWrite (value : Word) : Statement (.flSelWrite value) := of_none rfl

theorem hostDmaReadError (q : QRef) (cid : Nat) : Statement (.hostDmaReadError q cid) := of_none rfl

theorem hostWriteRefused (q : QRef) : Statement (.hostWriteRefused q) := of_none rfl

theorem vfFlr (vf : Nat) : Statement (.vfFlr vf) := of_none rfl

theorem vfBmeClear (vf : Nat) : Statement (.vfBmeClear vf) := of_none rfl

theorem pfFlr : Statement (.pfFlr) := of_none rfl

theorem perstAssert : Statement (.perstAssert) := of_none rfl

theorem perstDeassert : Statement (.perstDeassert) := of_none rfl

theorem strapChange (slotId : Nat) (masterLow : Bool) : Statement (.strapChange slotId masterLow) := of_none rfl

theorem powerTurnOn (feedB : Bool) (loadersOk : Bool) : Statement (.powerTurnOn feedB loadersOk) := of_none rfl

theorem powerOnReset (failed : List Nat) : Statement (.powerOnReset failed) := of_none rfl

theorem rebuildDone : Statement (.rebuildDone) := of_none rfl

theorem dropLost : Statement (.dropLost) := of_none rfl

theorem feedSample (aMv bMv aMa bMa : Nat) : Statement (.feedSample aMv bMv aMa bMa) := of_none rfl

theorem feedLow (feedB : Bool) : Statement (.feedLow feedB) := of_none rfl

theorem sagDeclare : Statement (.sagDeclare) := of_none rfl

theorem saveDone (ok : Bool) (tenUs mJ : Nat) : Statement (.saveDone ok tenUs mJ) := of_none rfl

theorem feedsReturn : Statement (.feedsReturn) := of_none rfl

theorem feedsOff : Statement (.feedsOff) := of_none rfl

theorem feedOvervoltage (feedB : Bool) : Statement (.feedOvervoltage feedB) := of_none rfl

theorem feedReconnect (feedB : Bool) : Statement (.feedReconnect feedB) := of_none rfl

theorem feedTransfer : Statement (.feedTransfer) := of_none rfl

theorem bankCheck : Statement (.bankCheck) := of_none rfl

theorem bankCheckDue : Statement (.bankCheckDue) := of_none rfl

theorem bankCheckDone (uF : Nat) : Statement (.bankCheckDone uF) := of_none rfl

theorem standbySet : Statement (.standbySet) := of_none rfl

theorem l2Enter : Statement (.l2Enter) := of_none rfl

theorem standbyClear : Statement (.standbyClear) := of_none rfl

theorem thermalWarning (sensor eighths : Nat) : Statement (.thermalWarning sensor eighths) := of_none rfl

theorem thermalWarningClear (sensor eighths : Nat) : Statement (.thermalWarningClear sensor eighths) := of_none rfl

theorem thermalTrip (sensor eighths : Nat) : Statement (.thermalTrip sensor eighths) := of_none rfl

theorem secLockWrite (value : Word) : Statement (.secLockWrite value) := of_none rfl

theorem setEndpointId (i3c : Bool) (eid : Nat) : Statement (.setEndpointId i3c eid) := of_none rfl

theorem pldmBaseRequest (code : Nat) : Statement (.pldmBaseRequest code) := of_none rfl

theorem pldmPlatformRequest (sensor : Nat) : Statement (.pldmPlatformRequest sensor) := of_none rfl

theorem pldmFruRequest : Statement (.pldmFruRequest) := of_none rfl

theorem getVersion : Statement (.getVersion) := of_none rfl

theorem getCapabilities : Statement (.getCapabilities) := of_none rfl

theorem negotiateAlgorithms : Statement (.negotiateAlgorithms) := of_none rfl

theorem getDigests : Statement (.getDigests) := of_none rfl

theorem getCertificate (slot offset length : Nat) : Statement (.getCertificate slot offset length) := of_none rfl

theorem challenge (slot : Nat) (nonce : List Byte) : Statement (.challenge slot nonce) := of_none rfl

theorem getMeasurements (index : Nat) (nonce : List Byte) : Statement (.getMeasurements index nonce) := of_none rfl

theorem keyExchange (slot : Nat) (exchange : List Byte) : Statement (.keyExchange slot exchange) := of_none rfl

theorem finish (verify : List Byte) : Statement (.finish verify) := of_none rfl

theorem heartbeat : Statement (.heartbeat) := of_none rfl

theorem endSession : Statement (.endSession) := of_none rfl

theorem spdmUnsupported (code : Nat) : Statement (.spdmUnsupported code) := of_none rfl

theorem rowMarker (cascadeRow : Nat) (arrivalNs : Int) (delayNs : Nat) (redundant : Bool) (swatch : Option Nat) : Statement (.rowMarker cascadeRow arrivalNs delayNs redundant swatch) := of_none rfl

theorem prepare (index modules : Nat) : Statement (.prepare index modules) := of_none rfl

theorem memberReply (member reply code slot swatch period topology : Nat) : Statement (.memberReply member reply code slot swatch period topology) := of_none rfl

theorem cascadeReplyDeadline : Statement (.cascadeReplyDeadline) := of_none rfl

theorem go (cascadeRow counter : Nat) : Statement (.go cascadeRow counter) := of_none rfl

theorem abandon : Statement (.abandon) := of_none rfl

theorem commitForward : Statement (.commitForward) := of_none rfl

theorem partBroadcast (strand counter : Nat) (e : Entry) (f : SearchF) (kPrime passages : Nat) (query : List Nat) : Statement (.partBroadcast strand counter e f kPrime passages query) := of_none rfl

theorem gatherList (strand member : Nat) (entries : List (Nat × Nat)) (passed nans : Nat) : Statement (.gatherList strand member entries passed nans) := of_none rfl

theorem passageFetchRequest (strand : Nat) (pids : List Nat) : Statement (.passageFetchRequest strand pids) := of_none rfl

theorem passageFetchReply (strand : Nat) (passages : List (Nat × List Nat)) : Statement (.passageFetchReply strand passages) := of_none rfl

theorem partEnd (strand : Nat) : Statement (.partEnd strand) := of_none rfl

theorem partRefusal (strand code : Nat) : Statement (.partRefusal strand code) := of_none rfl

theorem runningSumArrival (strand : Nat) (sums : List Nat) : Statement (.runningSumArrival strand sums) := of_none rfl

theorem memberLost (member : Nat) : Statement (.memberLost member) := of_none rfl

theorem isolate : Statement (.isolate) := of_none rfl

theorem casLeave : Statement (.casLeave) := of_none rfl

theorem linkRetry (port : Nat) (failed : Bool) : Statement (.linkRetry port failed) := of_none rfl

theorem linkTrainingDone (port lanes delayNs peerModule : Nat) (peerMaster : Bool) (peerPort : Nat) : Statement (.linkTrainingDone port lanes delayNs peerModule peerMaster peerPort) := of_none rfl

theorem laneFail (port lane : Nat) : Statement (.laneFail port lane) := of_none rfl

theorem linkDown (port : Nat) : Statement (.linkDown port) := of_none rfl

theorem d2dRetry (link : Nat) (failed : D2dLine) : Statement (.d2dRetry link failed) := of_none rfl

theorem alertNLineChange (low : Bool) : Statement (.alertNLineChange low) := of_none rfl

theorem bankCharged : Statement (.bankCharged) := of_none rfl

theorem memberReportsLocked (member : Nat) : Statement (.memberReportsLocked member) := of_none rfl

theorem pcieLinkRetrain (rate width : Nat) (flit : Bool) (corr nonFatal fatal replays poisoned : Nat) : Statement (.pcieLinkRetrain rate width flit corr nonFatal fatal replays poisoned) := of_none rfl

theorem i3cDynamicAddress (addr : Nat) : Statement (.i3cDynamicAddress addr) := of_none rfl

end Sys2Proof.Laws.Opcode
end

