-- ==== Sys2Proof/Tests/Slice0.lean ====
section
/-! SUPPORT. Tests: ill-formed commands that the check refuses, a witness for the hypotheses of every statement that has some, and small
tests of single steps with the rule that gives the expected value. -/

namespace Sys2Proof.Tests

set_option Elab.async false

open Sys2Proof.Machine

/-! States -/

/-- A module past its start, with the row running in row 10. -/
def live : State :=
  { State.reset with dev := { Dev.reset with
      row := { Row.reset with running := true, number := 10 }
      power := { Power.reset with starting := false, por := false, rebuilt := true, bankReady := true } } }

/-- A state with its device changed. -/
def liveWith (f : Dev → Dev) : State := { live with dev := f live.dev }

/-- Registers set by key. -/
def withRegs (d : Dev) (l : List (Nat × Nat)) : Dev := l.foldl (fun d x => d.put x.1 x.2) d

/-- Configuration in force set by key. -/
def withAct (d : Dev) (l : List (Nat × Nat)) : Dev := l.foldl (fun d x => d.putAct x.1 x.2) d

/-- Pages that run. -/
def withOn (d : Dev) (l : List Nat) : Dev := l.foldl (fun d p => d.modPage p fun x => { x with running := true }) d

/-- Queue pair 0 of tenant 3. -/
def q3 : QRef := ⟨3, 0⟩

/-- A strand of tenant 3 without steps. -/
def strand3 : Strand :=
  { cmd := ⟨q3, [0x00070023, 0, 5], [], 9⟩, state := 2, admitRow := 4, admitNs := 0, counter := 7, foot := ⟨0, [], [], [], 0, 0, 0, 0, 0⟩,
    owned := [], markers := [], pins := [], unpin := [], steps := [], start := 5, lane := 0, drops := 2, consec := 2, cause := 1,
    holdL := false, holdP := false, kv := 0, kvNext := 0, kvMap := [], work := Work.blank, final := none, spans := false, part := none, reading := [], scratch := [],
    done := [], fate := 0, stitchBase := 0, core := 0, expiring := false }

/-- A planned stitch of strand 1 on search unit 0x190. -/
def slot1 : Slot := ⟨2, 0x190, 1024, 100, [1], 0, 0, [], [], false, [], []⟩

/-- Strand 1 with its stitch in slot 0. -/
def running1 (sl : Slot) (x : Strand) : State := liveWith fun d => { d with strands := [(1, x)], row := { d.row with slots := [sl] } }

/-- Queue pair 0 of tenant 3 running with rings of 16 entries, and its tenant running. -/
def queued3 (x : Qp) : State :=
  liveWith fun d => ((withOn d [queuePage q3, tenantPage 3]).put (queueReg q3 0x110 0) (16 * 65536 + 16)).setQp q3 x

/-- The admin queue open with rings of 16 entries. -/
def admin0 (x : Qp) : State :=
  liveWith fun d => (withRegs d [(pf 0xC 0x11C, 0x0200 * 65536 + 1), (pf 0xC 0x118, 16 * 65536 + 16)]).setQp ⟨0, 0⟩ x

/-! The check of commands: for each check an ill-formed command that it refuses -/

/-- An entry of queue pair 0 of tenant 3 with no buffers. -/
def e3 : Entry := ⟨q3, 9, false, false, 0, 0, 0, 0, 0, []⟩

/-- An entry of the admin queue. -/
def e0 : Entry := { e3 with q := ⟨0, 0⟩ }

/-- The largest fields that each part of an entry admits. -/
theorem wf_largest :
    QRef.wf ⟨16, 63⟩ = true ∧ Entry.wf { e3 with cid := 65535, object := 2 ^ 32 - 1, inAddr := 2 ^ 64 - 1 } = true ∧
    SearchF.wf ⟨2 ^ 32 - 1, 255, 255, 255, 2 ^ 32 - 1, 15, 65535⟩ = true ∧ GenF.wf ⟨0, 0, 0, 255, 65535, 65535, 31⟩ = true := by
  decide +kernel

theorem wf_refuses_queues :
    QRef.wf ⟨17, 0⟩ = false ∧ QRef.wf ⟨16, 64⟩ = false ∧ QRef.wf ⟨0, 1⟩ = false ∧ Instr.wf (.qpDisable ⟨0, 0⟩) = false ∧
    Instr.wf (.qpDrainDone ⟨17, 0⟩) = false ∧ Instr.wf (.sqDoorbell q3 65536) = false ∧ Instr.wf (.cqDoorbell q3 65536) = false ∧
    Instr.wf (.entryFetch q3 [] []) = false ∧ Instr.wf (.irqDelayExpiry ⟨1, 64⟩) = false ∧ Instr.wf (.hostDmaReadError q3 65536) = false ∧
    Instr.wf (.hostWriteRefused ⟨0, 1⟩) = false := by
  decide +kernel

theorem wf_refuses_entries :
    Entry.wf { e3 with cid := 65536 } = false ∧ Entry.wf { e3 with object := 2 ^ 32 } = false ∧ Entry.wf { e3 with inAddr := 2 ^ 64 } = false ∧
    Entry.wf { e3 with inLen := 1 } = false ∧ Entry.wf { e3 with outLen := 2 ^ 32 } = false ∧ Entry.wf { e3 with outAddr := 2 ^ 64 } = false ∧
    Entry.admin e3 = false ∧ Entry.tenant e0 = false := by
  decide +kernel

theorem wf_refuses_admin_commands :
    Instr.wf (.publish e3) = false ∧ Instr.wf (.reset e0 (2 ^ 32)) = false ∧ Instr.wf (.abortAny e0 (2 ^ 32)) = false ∧
    Instr.wf (.objectLoadShared e0 (2 ^ 64)) = false ∧ Instr.wf (.fwHeader e3) = false ∧ Instr.wf (.fwBody e0 (2 ^ 64)) = false ∧
    Instr.wf (.fwCommit e3) = false ∧ Instr.wf (.fwCancel e3) = false ∧ Instr.wf (.fwRevert e3) = false := by
  decide +kernel

theorem wf_refuses_tenant_commands :
    Instr.wf (.embed e3 true 16) = false ∧ Instr.wf (.search e3 ⟨10, 256, 1, 1, 0, 0, 4⟩) = false ∧
    Instr.wf (.retrieveRank e3 ⟨1, 2, 3, 4, 256, 0, 0, 0, 0⟩) = false ∧ Instr.wf (.rank e3 (2 ^ 32) 4) = false ∧
    Instr.wf (.embedLookup e3 1 1 16 0) = false ∧ Instr.wf (.embedUpdate e3 1 16 0) = false ∧ Instr.wf (.generate e3 ⟨1, 0, 0, 0, 0, 0, 32⟩) = false ∧
    Instr.wf (.retrieveGenerate e3 ⟨1, 0, 0, 0, 0, 0, 0⟩ 65536) = false ∧ Instr.wf (.indexInsert e3 (2 ^ 32)) = false ∧
    Instr.wf (.indexDelete e0 1) = false ∧ Instr.wf (.indexBuild e3 32 65536 0 0) = false ∧ Instr.wf (.objectLoad e3 (2 ^ 64)) = false ∧
    Instr.wf (.abort e3 true 64 0 0) = false ∧ Instr.wf (.markerUnpick e3 0 (2 ^ 32)) = false := by
  decide +kernel

theorem wf_refuses_pages_and_groups :
    Instr.wf (.enableRequest 0 0x1D5 1#32) = false ∧ Instr.wf (.enableCheckDone 17 0) = false ∧ Instr.wf (.disableWrite 0x1D5 0#32) = false ∧
    Instr.wf (.softReset 16 65) = false ∧ Instr.wf (.blockResetDone 17 0) = false ∧ Instr.wf (.planCommit true [4]) = false ∧
    Instr.wf (.planDeadline [4]) = false ∧ Instr.wf (.cgRestartDone 4) = false ∧ Instr.wf (.stallLimit 16384) = false ∧
    Instr.wf (.pinAgeExpiry 16384) = false := by
  decide +kernel

theorem wf_refuses_registers_and_units :
    Instr.wf (.registerWrite 18 0 0#32) = false ∧ Instr.wf (.registerWrite 0 2 0#32) = false ∧ Instr.wf (.rcRead 17 0) = false ∧
    Instr.wf (.pairLoRead 0 1) = false ∧ Instr.wf (.pairHiRead 17 4) = false ∧ Instr.wf (.selectionWrite 6 4096 0#32) = false ∧
    Instr.wf (.mkSelWrite 0x1D5 0#32) = false ∧ Instr.wf (.mvIndexWrite 0x1D5 0#32) = false ∧ Instr.wf (.mvValueWrite 0x1D5 0#32) = false ∧
    Instr.wf (.mkForceGo 0x1D5) = false ∧ Instr.wf (.markerSignal 4096 true 1 0 0 0 false) = false ∧
    Instr.wf (.tierReadReturn 4 0 0 none false [] 0 0 0) = false ∧ Instr.wf (.compressedWrite 2 ⟨0, []⟩) = false ∧
    Instr.wf (.scrubPass 0x1D5 0 0) = false ∧ Instr.wf (.errorReport 1 12 0 0 0) = false ∧ Instr.wf (.probeStart 0x1D5) = false ∧
    Instr.wf (.probeEnd 0x1D5 true) = false := by
  decide +kernel

theorem wf_refuses_outside :
    Instr.wf (.vfFlr 0) = false ∧ Instr.wf (.vfBmeClear 17) = false ∧ Instr.wf (.strapChange 16 true) = false ∧
    Instr.wf (.powerOnReset [0x1D5]) = false ∧ Instr.wf (.loaderReport 0 true) = false ∧ Instr.wf (.thermalWarning 0 4096) = false ∧
    Instr.wf (.thermalWarningClear 0 4096) = false ∧ Instr.wf (.thermalTrip 0 4096) = false ∧ Instr.wf (.setEndpointId true 256) = false ∧
    Instr.wf (.pldmBaseRequest 256) = false ∧ Instr.wf (.spdmUnsupported 256) = false ∧ Instr.wf (.challenge 0 []) = false ∧
    Instr.wf (.getMeasurements 0 []) = false ∧ Instr.wf (.keyExchange 0 []) = false ∧ Instr.wf (.i3cDynamicAddress 128) = false := by
  decide +kernel

theorem wf_refuses_cascade :
    Instr.wf (.prepare 4 4) = false ∧ Instr.wf (.go 0 (2 ^ 48)) = false ∧ Instr.wf (.memberReply 1 4 0 0 0 0 0) = false ∧
    Instr.wf (.partBroadcast 16384 0 e3 ⟨1, 0, 0, 0, 0, 0, 4⟩ 1 0 []) = false ∧ Instr.wf (.gatherList 0 16 [] 0 0) = false ∧
    Instr.wf (.passageFetchRequest 16384 []) = false ∧ Instr.wf (.passageFetchReply 16384 []) = false ∧ Instr.wf (.partEnd 16384) = false ∧
    Instr.wf (.partRefusal 16384 0) = false ∧ Instr.wf (.runningSumArrival 16384 []) = false ∧ Instr.wf (.memberLost 16) = false ∧
    Instr.wf (.memberReportsLocked 16) = false ∧ Instr.wf (.linkRetry 4 true) = false ∧ Instr.wf (.linkDown 4) = false ∧
    Instr.wf (.laneFail 4 0) = false ∧ Instr.wf (.linkTrainingDone 4 8 0 0 false 0) = false ∧ Instr.wf (.d2dRetry 2 ⟨true, []⟩) = false := by
  decide +kernel

/-! Witnesses for the hypotheses of the statements, clause by clause -/

theorem witness_StepRunsFront :
    ({ live with pending := [.rowBoundary, .relock] } : State).pending = .rowBoundary :: [.relock] ∧ live.pending = [] := ⟨rfl, rfl⟩

theorem witness_EveryCommandCompletes :
    Instr.wf .rowBoundary = true ∧ Instr.wf (.markerSignal 4095 true 1 0 0 16383 false) = true ∧ Instr.wf (.registerWrite 17 0 0#32) = true := by
  decide +kernel

theorem witness_AbsentFunction : 18 ≤ 18 := Nat.le_refl 18

/-- The last S-core that is active and the first that is a spare. -/
theorem witness_ResetLeaves :
    pageInfo 0x15F = some (0x20, 95) ∧ pageInfo 0x160 = some (0x20, 96) ∧ sparing 0x20 = some (102, 96) := by decide +kernel

theorem witness_StepKeepsOrder : live.perm.Ok ∧ step live = .next live := ⟨by unfold Perm.Ok; decide, rfl⟩

theorem witness_FaultRecordStays : exec .feedTransfer live = .next live := rfl

theorem witness_EntryRoundTrip :
    Entry.wf { e3 with inLen := 1, input := [7#8], cid := 65535 } = true ∧ 0xFF < 256 ∧ ∀ x ∈ [0, 2 ^ 32 - 1], x < 2 ^ 32 := by
  decide +kernel

theorem witness_RowAdvances : live.dev.row.running = true ∧ State.reset.dev.row.running = false := ⟨rfl, rfl⟩

/-- The module in L2. -/
def inL2 : State := liveWith fun d => { d with row := { d.row with running := false }, power := { d.power with standby := true, l2 := true } }

theorem witness_WindowDelivers :
    live.dev.row.running = true ∧ inL2.dev.power.l2 = true ∧ inL2.dev.row.running = false ∧ State.reset.dev.row.running = false ∧
    State.reset.dev.power.l2 = false := ⟨rfl, rfl, rfl, rfl, rfl⟩

theorem witness_PlanInTime :
    live.dev.row.running = true ∧ live.dev.withheld = false ∧ live.dev.row.planned = false ∧ live.dev.cannotPlan = false ∧
    live.dev.row.missedPlan = false := by decide +kernel

/-- The row with one row of run-on behind it. -/
def late1 : State := liveWith fun d => { d with row := { d.row with runonCause := 1 } }

theorem witness_PlanMissed :
    live.dev.cannotPlan = false ∧ live.dev.row.running = true ∧ live.dev.row.planned = false ∧ live.dev.withheld = false ∧
    live.dev.row.missedPlan = false ∧ live.dev.row.runonCause ≠ 2 ∧ live.dev.runonFull = false ∧
    late1.dev.withheld = false ∧ late1.dev.row.runonCause ≠ 2 ∧ late1.dev.runonFull = false := by decide +kernel

/-- Run-on for floor(200,000 / 250) = 800 rows, the longest it may last. -/
def runonMax : State := liveWith fun d => { (withRegs d [(pf 1 0x124, 800 * 256 + 1)]) with row := { d.row with runonCause := 1 } }

theorem witness_RunonEnds :
    runonMax.dev.row.running = true ∧ runonMax.dev.runonFull = true ∧ runonMax.dev.row.planned = false ∧ runonMax.dev.power.warm = false ∧
    runonMax.dev.power.warmCause = 0 ∧ runonMax.dev.inStart = false ∧ runonMax.dev.power.sag = false := by decide +kernel

/-- A step of a strand with one stitch, which takes an equal share. -/
def stepOf (k : Kind) : Step := ⟨k, 0, 0, false, [⟨2, 100, .share, 0, 0⟩]⟩

/-- Strand 1 with two update rows before it, and with an encoder's row on an S-core. -/
def two : Strand := { strand3 with steps := [stepOf .update, stepOf .update] }
def encoding : Strand := { strand3 with steps := [⟨.embed, 0, 0, false, [⟨0, 100, .share, 0, 0⟩]⟩] }

/-- A planned stitch of strand 1 on the first S-core. -/
def coreSlot : Slot := { slot1 with utype := 0, unit := 0x100 }

/-- The stitch waits for a read that T0 scratch keeps, one that it does not keep, and a marker. -/
def waits : List Input := [⟨none, .t1⟩, ⟨some 1, .t3⟩, ⟨none, .marker 5 1 true⟩, ⟨none, .needle⟩]

theorem witness_StitchStarts :
    (running1 slot1 two).dev.row.slots[0]? = some slot1 ∧ slot1.phase = 0 ∧ (running1 slot1 two).dev.liveMembers slot1 ≠ [] ∧
    nget (running1 slot1 two).dev.strands 1 = some two ∧ (running1 slot1 two).dev.arraySlot slot1 = false ∧
    (running1 coreSlot encoding).dev.row.slots[0]? = some coreSlot ∧ (running1 coreSlot encoding).dev.liveMembers coreSlot ≠ [] ∧
    (running1 coreSlot encoding).dev.arraySlot coreSlot = true ∧
    (running1 slot1 strand3).dev.row.slots[0]? = some slot1 ∧ (running1 slot1 strand3).dev.liveMembers slot1 = [] := by decide +kernel

/-- What the stitch waits for once it runs: the read kept in scratch is there, the marker of value 0 does not hold, and its slice is loaded. -/
theorem test_stitchStart_inputs :
    ((running1 slot1 { two with scratch := [.t1] }).dev.startStitch 0 waits).row.slots.map (·.inputs) = [[⟨some 1, .t3⟩, ⟨none, .marker 5 1 true⟩]] := by
  decide +kernel

/-- A running stitch, and the same with its slice not loaded. -/
def ran : State := running1 { slot1 with phase := 1 } two
def noSlice : State := { ran with dev := { ran.dev with tiers := { ran.dev.tiers with bed := [⟨0x04000001, 1, false, 4, 1, [0], [], false⟩] } } }

/-- A stitch of strands 1 and 2, of which strand 2 misses an input of its own. -/
def batched : State :=
  liveWith fun d => { d with
    strands := [(1, two), (2, two)]
    row := { d.row with slots := [{ slot1 with phase := 1, members := [1, 2], inputs := [⟨some 2, .t3⟩] }] } }

theorem witness_StitchCommits :
    ran.dev.row.slots[0]? = some { slot1 with phase := 1 } ∧ nget ran.dev.strands 1 = some two ∧
    none ∉ slot1.tierErr ∧ (∀ x ∈ slot1.inputs, x.member ≠ none) ∧ ran.dev.sliceLoaded 0 = true ∧
    (∃ p ∈ ran.dev.liveMembers slot1, ran.dev.memberLate slot1 (ran.dev.runCore slot1 (ran.dev.liveMembers slot1)) p.1 = none) ∧
    slot1.members = [1] ∧ slot1.tierErr = [] ∧ slot1.inputs = [] ∧ two.state = 2 ∧ two.final = none ∧ two.fate ≠ 2 ∧ two.done = [] ∧
    two.steps = stepOf .update :: [stepOf .update] ∧ (stepOf .update).stitches = [⟨2, 100, .share, 0, 0⟩] ∧ slot1.stitch = 0 ∧
    (stepOf .update).kind ∈ [Kind.update, .insert, .delete, .build, .transfer] ∧ noSlice.dev.sliceLoaded 0 = false := by
  decide +kernel

/-- Strand 1 commits its step though strand 2 is late; strand 2 drops with its own cause (R37). -/
theorem witness_StitchCommits_late :
    let sl := { slot1 with phase := 1, members := [1, 2], inputs := [⟨some 2, .t3⟩] }
    batched.dev.memberLate sl (batched.dev.runCore sl (batched.dev.liveMembers sl)) 2 = some 3 ∧
    (∃ p ∈ batched.dev.liveMembers sl, batched.dev.memberLate sl (batched.dev.runCore sl (batched.dev.liveMembers sl)) p.1 = none) ∧
    two.fate = 0 ∧ ((batched.dev.commitStitch 0).strands.map fun p => (p.2.steps.length, p.2.cause)) = [(1, 1), (2, 3)] := by
  decide +kernel

/-- A running stitch with inputs it still waits for, some that came, and lines that could not be corrected. -/
def cut (inputs got : List Input) (faulted : Bool) (err : List (Option Nat)) : State :=
  running1 { slot1 with phase := 1, inputs := inputs, got := got, faulted := faulted, tierErr := err } two

/-- The causes by their order: FAULT, a shared line, a shared input, the member's own line, its own input, OVERRUN (R35, R37). -/
theorem witness_SlotEnds :
    (cut [⟨none, .t3⟩] [⟨some 1, .t1⟩] true [some 1]).dev.row.slots[0]?
      = some { slot1 with phase := 1, inputs := [⟨none, .t3⟩], got := [⟨some 1, .t1⟩], faulted := true, tierErr := [some 1] } ∧
    1 ∈ slot1.members ∧ nget (cut [] [] false []).dev.strands 1 = some two ∧ ((cut [] [] false []).dev.stitchOf slot1 1).isSome = true ∧
    two.fate = 0 ∧ isRead .t3 = true ∧ ((running1 slot1 strand3).dev.stitchOf slot1 1).isSome = false ∧
    (([cut [⟨none, .t3⟩] [] true [none], cut [⟨none, .t3⟩] [] false [none], cut [⟨none, .t3⟩] [] false [some 1], cut [⟨some 1, .t3⟩] [] false [some 1],
      cut [⟨some 1, .link⟩] [] false [], cut [] [] false []].map fun (s : State) => (s.dev.endSlot 0).strands.map fun p => p.2.cause).flatten
      = [6, 4, 3, 4, 7, 9]) := by
  decide +kernel

theorem witness_SlotEnds_none : ∀ sl, live.dev.row.slots[0]? = some sl → 2 ≤ sl.phase := by
  intro sl h; simp [live, Dev.reset, Row.reset] at h

/-- A strand of tenant 3 that holds an epoch since replaced, admitted an hour ago. -/
def oldPin : State :=
  liveWith fun d => { (withAct d [(pf 2 0x200, 1000)]) with
    strands := [(1, { strand3 with pins := [(0x01000005, 3)] })]
    row := { d.row with timeNs := 3600 * 1000000000 }
    objs := [(0x01000005, { Obj.blank with current := true, epochs := [⟨3, 0, Content.empty, 0, 1, []⟩, ⟨4, 0, Content.empty, 0, 1, []⟩] })] }

/-- The same strand at the stitch limit, and with a stitch that still runs. -/
def oldAtLimit : Strand := { strand3 with pins := [(0x01000005, 3)], consec := 65535 }
def oldRuns : Strand := { two with pins := [(0x01000005, 3)] }
def oldState (x : Strand) (slots : List Slot) : State :=
  { oldPin with dev := { oldPin.dev with strands := [(1, x)], row := { oldPin.dev.row with slots := slots } } }

theorem witness_StrandEnds :
    nget (running1 slot1 { strand3 with consec := 65535 }).dev.strands 1 = some { strand3 with consec := 65535 } ∧ strand3.part = none ∧
    strand3.final = none ∧ strand3.state = 2 ∧ (running1 slot1 strand3).dev.atLimit { strand3 with consec := 65535 } = true ∧
    nget oldPin.dev.strands 1 = some { strand3 with pins := [(0x01000005, 3)] } ∧
    oldPin.dev.stalePin { strand3 with pins := [(0x01000005, 3)] } = true ∧
    bits (oldPin.dev.inForce (pf 2 0x200)) 15 0 * 1000000 < oldPin.dev.row.timeNs - strand3.admitNs ∧ oldPin.dev.openSlot 1 = false ∧
    oldPin.dev.atLimit { strand3 with pins := [(0x01000005, 3)] } = false ∧
    (oldState oldAtLimit []).dev.pinDue oldAtLimit = true ∧ (oldState oldAtLimit []).dev.atLimit oldAtLimit = true ∧
    (oldState oldRuns [slot1]).dev.pinDue oldRuns = true ∧ (oldState oldRuns [slot1]).dev.openSlot 1 = true ∧
    (running1 slot1 strand3).dev.pinDue strand3 = false := by decide +kernel

theorem noQueue {p : Nat} {P : QRef → Prop} (h : pageQueue p = none) : ∀ q, pageQueue p = some q → P q :=
  fun q e => by rw [h] at e; cases e

theorem oneQueue {p : Nat} {r : QRef} {P : QRef → Prop} (h : pageQueue p = some r) (k : P r) : ∀ q, pageQueue p = some q → P q :=
  fun q e => by rw [h] at e; cases e; exact k

/-- The row timer follows an external edge, in a state of synchronisation: FOLLOW, eight rows to a loss. -/
def follow (st : Nat) (missed : Nat) : State :=
  liveWith fun d => { (withAct (withRegs d [(pf 1 0x114, st)]) [(pf 1 0x10C, 8 * 256 + 1)]) with row := { d.row with missed := missed, relocking := st == 3 } }

/-- The window of a row of 250 µs is 25,000 ns to either side of a boundary, and half a period while a relock searches. -/
theorem witness_EdgeFollows :
    (follow 1 0).dev.syncMode = 1 ∧ (follow 1 0).dev.row.running = true ∧ (follow 1 0).dev.syncState ≠ 0 ∧ (follow 1 0).dev.syncState ≠ 3 ∧
    2 * (25000 : Int) ≤ (follow 1 0).dev.rowLen ∧ (25000 : Int).natAbs ≤ (follow 1 0).dev.captureNs ∧ (follow 1 0).dev.row.edgeHere = false ∧
    (follow 1 0).dev.rowLen < 2 * (225000 : Int) ∧ (225000 - (follow 1 0).dev.rowLen).natAbs ≤ (follow 1 0).dev.captureNs ∧
    (follow 1 0).dev.row.edgeNext = false ∧
    (follow 3 0).dev.syncState = 3 ∧ (follow 3 0).dev.row.relocking = true ∧ (125000 : Int).natAbs ≤ (follow 3 0).dev.captureNs ∧
    stamp10 25009 = 25000 ∧ stamp10 (-25001) = -25010 ∧ (follow 1 0).dev.captureNs < (stamp10 25010).natAbs ∧ live.dev.syncMode ≠ 1 := by
  decide +kernel

/-- The module while PERST_N is low. -/
def inReset : State := liveWith fun d => { d with power := { d.power with perst := true } }

theorem witness_SyncLossAndRelock :
    (follow 1 7).dev.syncState = 1 ∧ (follow 2 7).dev.syncState = 2 ∧ (follow 1 7).dev.row.edgeHere = false ∧
    bits ((follow 1 7).dev.inForce (pf 1 0x10C)) 15 8 ≤ (follow 1 7).dev.row.missed + 1 ∧ live.dev.syncState = 0 ∧
    (follow 3 0).dev.syncState = 3 ∧ (follow 3 0).dev.up = true ∧ (follow 3 0).dev.syncMode = 1 ∧ inReset.dev.up = false := by
  decide +kernel

/-- PF pages, a VF's own page and a queue-pair page. -/
theorem witness_EnableStarts :
    pageKey 0 (2 % 4096) = 2 ∧ pageInfo 2 = some (3, 0) ∧ hasHeader 3 = true ∧ live.dev.up = true ∧ bit (1#32 : Word).toNat 0 = true ∧
    bit (1#32 : Word).toNat 1 = false ∧ bit (live.dev.rg (2 * 4096 + 8)) 0 = false ∧ (live.dev.page 2).checking = false ∧
    pageInfo (pageKey 0 1) = some (2, 0) ∧ bit (live.dev.rg (1 * 4096 + 8)) 0 = false ∧ (live.dev.page 1).checking = false ∧
    pageInfo (pageKey 16 64) = some (0x31, 63) ∧ bit (live.dev.rg (pageKey 16 64 * 4096 + 8)) 0 = false ∧
    (live.dev.page (pageKey 16 64)).checking = false := by
  decide +kernel

theorem witness_EnableStarts_queues :
    (∀ q, pageQueue 2 = some q → live.dev.draining q = false ∧ (live.dev.page 2).running = false) ∧
    (∀ q, pageQueue (pageKey 16 64) = some q → live.dev.draining q = false ∧ (live.dev.page (pageKey 16 64)).running = false) :=
  ⟨noQueue (by decide), oneQueue (r := ⟨16, 63⟩) (by decide) (by decide +kernel)⟩

/-- The check of a page runs, with some registers set and some pages running. -/
def checkOf (p : Nat) (l : List (Nat × Nat)) (on : List Nat) : Check × State :=
  let d := withOn (withRegs live.dev l) on
  let c : Check := ⟨p, pageRegs d.regs p, 10⟩
  (c, { live with dev := { (d.modPage p fun x => { x with checking := true }) with checks := [c] } })

/-- The check of the row timer before the row has begun, and that of a queue pair whose registers pass. -/
def timerCheck : Check × State :=
  let a := checkOf 1 [] []
  (a.1, { a.2 with dev := { a.2.dev with row := { a.2.dev.row with running := false } } })
def pairCheck : Check × State :=
  checkOf (queuePage q3) [(pf 1 8, 1), (pf (tenantPage 3) 8, 1), (queuePage q3 * 4096 + 0x118, 0x20000),
    (queuePage q3 * 4096 + 0x110, 16 * 65536 + 16), (queuePage q3 * 4096 + 0x114, 1 * 65536 + 1)] []

/-- The row of the row timer begins, and a queue pair starts. -/
theorem witness_EnableEnds_starts :
    pageKey 0 1 = 1 ∧ timerCheck.2.dev.checks.find? (·.page == 1) = some timerCheck.1 ∧ timerCheck.2.dev.checkWaits timerCheck.1 = false ∧
    (timerCheck.2.dev.dropCheck 1).judgeCheck timerCheck.1 = none ∧ timerCheck.2.dev.row.running = false ∧
    timerCheck.2.dev.power.starting = false ∧
    pageKey 3 1 = queuePage q3 ∧ pairCheck.2.dev.checks.find? (·.page == queuePage q3) = some pairCheck.1 ∧
    pairCheck.2.dev.checkWaits pairCheck.1 = false ∧ (pairCheck.2.dev.dropCheck (queuePage q3)).judgeCheck pairCheck.1 = none ∧
    pairCheck.1.page = queuePage q3 ∧ pageQueue (queuePage q3) = some q3 ∧ (∀ l ∈ pairCheck.2.dev.power.lost, l.q ≠ q3) ∧
    State.reset.dev.power.starting = true := by
  decide +kernel

/-- A control group's check with the row timer enabled and without it; a VF's own page, whose tenant's page is enabled in its shadow. -/
theorem witness_EnableEnds :
    let a := checkOf 2 [] []
    let b := checkOf 2 [(pf 1 8, 1)] []
    let v := checkOf 0x3000 [(pf 1 8, 1), (pf (tenantPage 3) 8, 1)] []
    (pageKey 0 2 = 2 ∧ a.2.dev.checks.find? (·.page == 2) = some a.1 ∧ a.2.dev.checkWaits a.1 = false ∧
      (a.2.dev.dropCheck 2).judgeCheck a.1 = some 0x0301) ∧
    (b.2.dev.checks.find? (·.page == 2) = some b.1 ∧ b.2.dev.checkWaits b.1 = false ∧ (b.2.dev.dropCheck 2).judgeCheck b.1 = none) ∧
    (pageKey 3 0 = 0x3000 ∧ v.2.dev.checks.find? (·.page == 0x3000) = some v.1 ∧ v.2.dev.checkWaits v.1 = false ∧
      (v.2.dev.dropCheck 0x3000).judgeCheck v.1 = none ∧ v.1.page = 0x3000 ∧ pageQueue 0x3000 = none) ∧
    live.dev.checks.find? (·.page == pageKey 0 2) = none := by
  decide +kernel

/-- A page that is enabled in its shadow. -/
def shadowOn (p : Nat) : State := liveWith fun d => withRegs d [(pf p 8, 1)]

theorem witness_DisableWrites :
    pageInfo 2 = some (3, 0) ∧ hasHeader 3 = true ∧ (shadowOn 2).dev.up = true ∧ bit (0#32 : Word).toNat 0 = false ∧
    bit (0#32 : Word).toNat 1 = false ∧ bit ((shadowOn 2).dev.rg (pf 2 8)) 0 = true ∧
    pageInfo 1 = some (2, 0) ∧ bit ((shadowOn 1).dev.rg (pf 1 8)) 0 = true ∧ (shadowOn 1).dev.rowInUse = false ∧
    bit ((liveWith fun d => withRegs d [(pf 1 8, 1), (pf 2 8, 1)]).dev.rg (pf 1 8)) 0 = true ∧
    (liveWith fun d => withRegs d [(pf 1 8, 1), (pf 2 8, 1)]).dev.rowInUse = true ∧ inReset.dev.up = false := by
  decide +kernel

/-- A command of queue pair 0 of tenant 3 with an opcode. -/
def cmd3 (op : Nat) : Cmd := ⟨q3, [0x00070000 + op], [], 10⟩

/-- Queue pair 0 of tenant 3 enabled, running, with one command undecided. -/
def closing : State :=
  { live with dev := (withRegs (queued3 { Qp.fresh with waiting := [cmd3 0x23], outstanding := 1 }).dev [(queuePage q3 * 4096 + 8, 1)]) }

/-- The same queue draining with n commands outstanding. -/
def drainingWith (n : Nat) : State := { live with dev := (queued3 { Qp.fresh with outstanding := n }).dev.setQueueBit q3 1 true }

theorem witness_QueueDisabled :
    q3.wf = true ∧ q3.tenant ≠ 0 ∧ closing.dev.up = true ∧ (closing.dev.page (queuePage q3)).running = true ∧
    bit (closing.dev.rg (queuePage q3 * 4096 + 8)) 0 = true ∧ (∀ c ∈ (closing.dev.qp q3).waiting, c.q = q3) ∧
    (closing.dev.qp q3).waiting ≠ [] ∧ (drainingWith 0).dev.draining q3 = true ∧ ((drainingWith 0).dev.qp q3).outstanding = 0 ∧
    closing.dev.draining q3 = false ∧ ((drainingWith 1).dev.qp q3).outstanding ≠ 0 := by
  decide +kernel

/-! Page resets -/

/-- The first search unit quiesced: its probe waits. -/
def quiet : State := liveWith fun d => d.modPage 0x190 fun x => { x with quiesced := true }

/-- The search unit's soft reset waits for its probe, which has ended. -/
def resetWaits : State := liveWith fun d => d.modPage 0x190 fun x => { x with softReset := true }

theorem witness_PageResets :
    pageKey 0 (0x190 % 4096) = 0x190 ∧ (pageInfo 0x190).map (·.1) = some 0x22 ∧ hasHeader 0x22 = true ∧ noSoftReset 0x22 = false ∧
    live.dev.up = true ∧ live.dev.absorbs = false ∧ (live.dev.page 0x190).checking = false ∧ (live.dev.page 0x190).quiesced = false ∧
    (live.dev.page 0x190).probing = false ∧ (∀ x ∈ live.dev.fault.probes, x.page ≠ 0x190) ∧ pageQueue 0x190 = none ∧
    (resetWaits.dev.page 0x190).softReset = true ∧ (resetWaits.dev.page 0x190).quiesced = false ∧
    (pageInfo 0xE).map (·.1) = some 0x0C ∧ live.dev.weightsPlanned = false ∧
    (quiet.dev.page 0x190).quiesced = true ∧ (live.dev.page (pageKey 0 (0x190 % 4096))).softReset = false := by
  decide +kernel

/-- A queue-pair page with a strand of its queue, which a soft reset ends. -/
def busyQueue : State := { live with dev := { (queued3 Qp.fresh).dev with strands := [(1, strand3)] } }

theorem witness_PageResets_queue :
    pageInfo (queuePage q3) = some (0x31, 0) ∧ hasHeader 0x31 = true ∧ noSoftReset 0x31 = false ∧ busyQueue.dev.up = true ∧
    busyQueue.dev.absorbs = false ∧ (busyQueue.dev.page (queuePage q3)).checking = false ∧
    (busyQueue.dev.page (queuePage q3)).quiesced = false ∧ (busyQueue.dev.page (queuePage q3)).probing = false ∧
    pageQueue (queuePage q3) = some q3 ∧ nget busyQueue.dev.strands 1 = some strand3 ∧ strand3.cmd.q = q3 ∧ strand3.part = none := by
  decide +kernel

/-! Publishes -/

/-- A register COMMIT of the present shadows, due in row 12. -/
def pubOf (d : Dev) : Pub := ⟨.register, 10, d.shadows, [], false, false, 12⟩

/-- A publish pending over shadows that differ from what is in force. -/
def pubWait (src : PubSrc) (l : List (Nat × Nat)) : State :=
  liveWith fun d => let n := withRegs d l; { n with pub := some { pubOf n with src := src } }

theorem witness_CommitSnapshots :
    (pubWait .register []).dev.up = true ∧ (pubWait .register []).dev.pub ≠ none ∧ live.dev.up = true ∧ live.dev.pub = none ∧
    live.dev.cas.state = 0 ∧ live.dev.casMaster = false ∧ inReset.dev.up = false := by decide +kernel

/-- A publish that passes, one that enables a control group without the row timer, and the same by a PUBLISH command. -/
theorem witness_PublishChecked :
    let p := pubOf live.dev
    let a := pubWait .register []
    let b := pubWait .register [(pf 2 8, 1)]
    let c := pubWait (.command 7 true) [(pf 2 8, 1)]
    (a.dev.pub = some p ∧ p.checked = false ∧ p.due ≠ untilPrepare ∧ a.dev.cas.exchange = none ∧ a.dev.casPub = false ∧
      a.dev.pubChecks p = none) ∧
    (b.dev.casPub = false ∧ (b.dev.pub.map fun x => b.dev.pubChecks x) = some (some (0x0301, 2)) ∧ (b.dev.pub.map (·.src)) = some .register) ∧
    (c.dev.casPub = false ∧ (c.dev.pub.map fun x => c.dev.pubChecks x) = some (some (0x0301, 2)) ∧
      (c.dev.pub.map (·.src)) = some (.command 7 true)) := by decide +kernel

/-! Queues -/

/-- The admin queue closed, with its ring sizes set. -/
def adminOff (sizes : Nat) : State := liveWith fun d => withRegs d [(pf 0xC 0x118, sizes)]

theorem witness_AdminEnables :
    (adminOff (16 * 65536 + 256)).dev.up = true ∧ bit (1#32 : Word).toNat 0 = true ∧
    bit ((adminOff (16 * 65536 + 256)).dev.rg (pf 0xC 0x11C)) 0 = false ∧ (∀ l ∈ (adminOff (16 * 65536 + 256)).dev.power.lost, l.q ≠ ⟨0, 0⟩) ∧
    isPow2In ((adminOff (16 * 65536 + 256)).dev.sqEntries ⟨0, 0⟩) 16 256 = true ∧
    isPow2In ((adminOff (16 * 65536 + 256)).dev.cqEntries ⟨0, 0⟩) 16 256 = true ∧
    isPow2In ((adminOff (16 * 65536 + 512)).dev.sqEntries ⟨0, 0⟩) 16 256 = false ∧
    isPow2In ((adminOff (8 * 65536 + 16)).dev.cqEntries ⟨0, 0⟩) 16 256 = false ∧ bit (0#32 : Word).toNat 0 = false := by decide +kernel

/-- Ring values at the ends of their ranges: 15 is the last tail from an empty ring of 16; 16 is outside the ring; a tail that would leave 16
entries pending; a head that returns the one posted slot, and one more than was posted. -/
theorem witness_Doorbells :
    live.dev.up = true ∧ live.dev.queueOn q3 = false ∧ (queued3 Qp.fresh).dev.queueOn q3 = true ∧ (queued3 Qp.fresh).dev.sqEntries q3 ≤ 16 ∧
    (queued3 Qp.fresh).dev.cqEntries q3 ≤ 16 ∧
    (let x := ((queued3 { Qp.fresh with head := 1 }).dev.qp q3); 16 - 1 < (x.seenTail + 16 - x.head) % 16 + (1 + 16 - x.seenTail) % 16) ∧
    15 < (queued3 Qp.fresh).dev.sqEntries q3 ∧
    (let x := ((queued3 Qp.fresh).dev.qp q3); (x.seenTail + 16 - x.head) % 16 + (15 + 16 - x.seenTail) % 16 ≤ 16 - 1) ∧
    (let x := ((queued3 Qp.fresh).dev.qp q3); x.unreturned < x.returning + (1 + 16 - x.seenHead) % 16) ∧
    1 < (queued3 Qp.fresh).dev.cqEntries q3 ∧
    (let x := ((queued3 { Qp.fresh with unreturned := 2, cqNew := some (1, 1) }).dev.qp q3); x.returning + (2 + 16 - x.seenHead) % 16 ≤ x.unreturned) ∧
    q3.wf = true ∧ q3.tenant ≠ 0 ∧ (queued3 Qp.fresh).dev.on (tenantPage q3.tenant) = true := by decide +kernel

/-! Fetching and decisions -/

theorem witness_EntryFetched :
    (queued3 { Qp.fresh with tail := 1 }).dev.up = true ∧ (queued3 { Qp.fresh with tail := 1 }).dev.canFetch q3 = true ∧
    inReset.dev.up = false ∧ (queued3 Qp.fresh).dev.canFetch q3 = false := by decide +kernel

/-- The verdict of a decision without its plan: 0 no-op, 1 refused, 2 accepted. -/
def verdictOf : Verdict → Nat
  | .noop => 0
  | .refuse _ _ => 1
  | .accept _ _ => 2

/-- The admission block runs, and a search unit whose T0 a load may take. -/
def admitting (d : Dev) : Dev := withOn d [6, 0x190]

/-- The admin queue with a command undecided, the pages that run named. -/
def adminOn (on : List Nat) (c : Cmd) : State :=
  let s := admin0 { Qp.fresh with waiting := [c], outstanding := 1, tail := 1, head := 1 }
  { s with dev := withOn s.dev on }
def adminHas (c : Cmd) : State := adminOn [6, 0x190] c

/-- OBJECT_LOAD_SHARED of n bytes into a passage store. -/
def loadEntry (n : Nat) : Entry := { e0 with object := 0x02000001, inLen := n, input := List.replicate n 1#8 }
def loadCmd (n : Nat) : Cmd := live.dev.cmdFor (loadEntry n, 0x05, [0, 0])

/-- The device as the decision on the one waiting command finds it. -/
def atDecision (s : State) : Dev := match s.dev.nextDecision with | some (k, c) => s.dev.deciding k c | none => s.dev

theorem witness_CommandDecided :
    (adminHas (loadCmd 4)).dev.up = true ∧ (adminHas (loadCmd 4)).dev.decided < 512 ∧
    (adminHas (loadCmd 4)).dev.nextDecision = some (0, loadCmd 4) ∧ (atDecision (adminHas (loadCmd 4))).validate (loadCmd 4) = none ∧
    (loadCmd 4).makesStrand = true ∧ verdictOf ((atDecision (adminHas (loadCmd 4))).judge (loadCmd 4)) = 2 ∧
    (adminHas (loadCmd 0)).dev.nextDecision = some (0, loadCmd 0) ∧ verdictOf ((atDecision (adminHas (loadCmd 0))).judge (loadCmd 0)) = 0 ∧
    (adminOn [6] (loadCmd 4)).dev.nextDecision = some (0, loadCmd 4) ∧ (atDecision (adminOn [6] (loadCmd 4))).validate (loadCmd 4) = none ∧
    verdictOf ((atDecision (adminOn [6] (loadCmd 4))).judge (loadCmd 4)) = 1 ∧
    (let c := live.dev.cmdFor (e0, 0x77, [])
     (adminHas c).dev.nextDecision = some (0, c) ∧ (atDecision (adminHas c)).validate c = some 0x0702) ∧
    live.dev.nextDecision = none ∧ 512 ≤ ({ live.dev with decided := 512 } : Dev).decided := by decide +kernel

/-- Queue pair 0 of tenant 3 with an interrupt after 4 rows of delay. -/
def irqState (masked : Bool) : State :=
  let s := queued3 { Qp.fresh with irqPending := 1, irqRow := 5 }
  { s with dev := withRegs s.dev [(queueReg q3 0x114 0, 4 * 2 ^ 24 + 2 * 65536 + 2 ^ 15), (msixCtrl 3 0, b2n masked)] }

theorem witness_IrqDelayed :
    (irqState false).dev.up = true ∧ ((irqState false).dev.irq q3).2.2.1 = true ∧ 0 < ((irqState false).dev.qp q3).irqPending ∧
    ((irqState false).dev.qp q3).irqRow + ((irqState false).dev.irq q3).2.1 < (irqState false).dev.row.number ∧
    bit ((irqState false).dev.rg (msixCtrl 3 ((irqState false).dev.irq q3).2.2.2)) 0 = false ∧
    bit ((irqState true).dev.rg (msixCtrl 3 ((irqState true).dev.irq q3).2.2.2)) 0 = true ∧
    ((queued3 Qp.fresh).dev.qp q3).irqPending = 0 := by decide +kernel

/-- The admin queue with one entry to fetch, the admission block running. -/
def adminReady : State := let s := admin0 { Qp.fresh with tail := 1 }; { s with dev := admitting s.dev }

/-- Queue pair 0 of tenant 3 with one entry to fetch, every feature granted and every command permitted. -/
def tenantReady : State :=
  let s := queued3 { Qp.fresh with tail := 1 }
  { s with dev := admitting (withAct (withRegs s.dev [(queueReg q3 0x124 0, 0xFF)]) [(pf (tenantPage 3) 0x100, 0x7F)]) }

/-- A command is decided now and valid, as a test. -/
def decides (s : State) (x : Entry × Nat × List Nat) : Bool :=
  let c := s.dev.cmdFor x
  s.dev.up && s.dev.canFetch c.q && s.dev.undecided.isEmpty && s.dev.decided < 512 && (s.dev.fetch c).ready ((s.dev.fetch c).qp c.q) == some c &&
    (((s.dev.fetch c).deciding (queueKey c.q) c).validate c).isNone

theorem decides_says {s : State} {x : Entry × Nat × List Nat} (h : decides s x = true) :
    s.dev.decidesNow (s.dev.cmdFor x) ∧
    ((s.dev.fetch (s.dev.cmdFor x)).deciding (queueKey (s.dev.cmdFor x).q) (s.dev.cmdFor x)).validate (s.dev.cmdFor x) = none := by
  simp only [decides, Bool.and_eq_true, List.isEmpty_iff, decide_eq_true_eq, beq_iff_eq, Option.isNone_iff_eq_none] at h
  exact ⟨⟨h.1.1.1.1.1, h.1.1.1.1.2, h.1.1.1.2, h.1.1.2, h.1.2⟩, h.2⟩

/-- The verdict on such a command. -/
def verdictNow (s : State) (x : Entry × Nat × List Nat) : Nat :=
  verdictOf (((s.dev.fetch (s.dev.cmdFor x)).deciding (queueKey x.1.q) (s.dev.cmdFor x)).judge (s.dev.cmdFor x))

theorem witness_CommandTaken :
    queued (.objectLoadShared (loadEntry 4) 0) = some (loadEntry 4, 0x05, [0, 0]) ∧ inReset.dev.up = false ∧
    live.dev.canFetch ⟨0, 0⟩ = false ∧
    (let s := { adminReady with dev := adminReady.dev.modQp q3 fun x => { x with waiting := [cmd3 0x23] } }
     s.dev.up = true ∧ s.dev.canFetch ⟨0, 0⟩ = true ∧ s.dev.undecided ≠ []) ∧
    (let c := adminReady.dev.cmdFor ({ e0 with object := 1 }, 0x04, [0])
     adminReady.dev.decidesNow c ∧ ((adminReady.dev.fetch c).deciding (queueKey c.q) c).validate c = some 0x0701) := by
  unfold Dev.decidesNow
  decide +kernel

theorem witness_StrandCommands :
    makesStrandOp 0x05 = true ∧ decides adminReady (loadEntry 4, 0x05, [0, 0]) = true ∧ verdictNow adminReady (loadEntry 4, 0x05, [0, 0]) = 2 ∧
    decides adminReady (loadEntry 0, 0x05, [0, 0]) = true ∧ verdictNow adminReady (loadEntry 0, 0x05, [0, 0]) = 0 ∧
    makesStrandOp 0x20 = true ∧ decides tenantReady (e3, 0x20, [0]) = true ∧ verdictNow tenantReady (e3, 0x20, [0]) = 0 ∧
    decides tenantReady (e3, 0x20, [1]) = true ∧ verdictNow tenantReady (e3, 0x20, [1]) = 1 := by
  decide +kernel

theorem witness_HeadCommands :
    e0.wf = true ∧ e3.wf = true ∧ decides adminReady (e0, 0x04, [16383]) = true ∧
    decides tenantReady (e3, 0x28, [b2n true * 2 ^ 24 + 63 % 64 * 65536 + 65535 % 65536, 16383]) = true ∧
    decides tenantReady (e3, 0x28, [b2n false * 2 ^ 24 + 63 % 64 * 65536 + 65535 % 65536, 0]) = true ∧
    decides tenantReady (e3, 0x29, [4095, 2 ^ 32 - 1]) = true := by
  decide +kernel

theorem witness_PublishAndReset :
    decides adminReady (e0, 0x01, []) = true ∧ adminReady.dev.pub = none ∧ adminReady.dev.cas.state = 0 ∧ adminReady.dev.casMaster = false ∧
    decides { adminReady with dev := { adminReady.dev with pub := some (pubOf live.dev) } } (e0, 0x01, []) = true ∧
    decides adminReady (e0, 0x02, [0]) = true ∧ decides adminReady (e0, 0x02, [1]) = true ∧ adminReady.dev.power.l2 = false ∧
    adminReady.dev.power.warm = false ∧ adminReady.dev.power.warmCause = 0 ∧ adminReady.dev.inStart = false ∧
    adminReady.dev.row.running = true := by
  decide +kernel

/-! Firmware -/

/-- A manifest entry of part p (1 to 7), its image one byte at offset p − 1, with a digest (R513). -/
def entryOf (digest : List Byte) (p : Nat) : List Byte :=
  toLe 4 p ++ toLe 4 1 ++ toLe 8 0 ++ toLe 8 (p - 1) ++ toLe 8 1 ++ digest ++ toLe 32 0 ++ toLe 4 0xB102 ++ toLe 12 0

/-- A package header of seven parts whose body is seven bytes, with one digest in every entry (R512). -/
def header (digest : List Byte) : List Byte :=
  toLe 4 0x474B504B ++ toLe 2 1 ++ toLe 2 1056 ++ toLe 4 (7 * 65536 + 0xB102) ++ toLe 4 3 ++ toLe 8 7 ++ toLe 2 0 ++ toLe 2 2 ++ toLe 4 0 ++
    toLe 32 0 ++ ((List.range' 1 7).map (entryOf digest)).flatten ++ List.replicate 96 9#8

/-- A digest of one byte repeated. -/
def digestOf (b : Byte) : List Byte := List.replicate 48 b

/-- A package whose manifest and targets are good passes the checks of its header whenever its signature verifies. -/
theorem header_passes (d : Dev) (m : Perm) (h : List Byte) (a : fwManifestBad h = false) (b : fwTargetBad h = false) (c : m.floor ≤ fwSec h)
    (e : d.fwDependency h = false) (v : Config.verifies (h.take hdrLen) = true) : d.headerCheck m h = none := by
  simp [Dev.headerCheck, a, b, v, e, Nat.not_lt.2 c]

/-- An update whose digests are computed. Its header is the empty one that stands for the image the module is delivered with (log 13): it
names no part, so nothing of it can differ. -/
def staged : Fw := { Fw.reset with state := 1, path := 1, hashing := true, cmd := some (cmd3 3) }

/-- The admin queue ready for a command, with an update in some state, a package in PREVIOUS. -/
def fwState (f : Fw) (old : List (Option FwSet)) : State :=
  { adminReady with dev := { adminReady.dev with fw := f }, perm := { adminReady.perm with seeds := old } }

/-- The device as the decision on a command finds it. -/
def decided (s : State) (x : Entry × Nat × List Nat) : Dev :=
  (s.dev.fetch (s.dev.cmdFor x)).deciding (queueKey x.1.q) (s.dev.cmdFor x)

/-- An entry with n zero bytes of input. -/
def zeros (n : Nat) : Entry := { e0 with inLen := n, input := List.replicate n 0#8 }

/-- The entry of HEADER with the package of zero digests. -/
def hdr : Entry := { e0 with inLen := 1056, input := header (digestOf 0#8) }

theorem witness_FwPhases_header :
    queued (.fwHeader hdr) = some (hdr, 0x03, [0]) ∧ decides (fwState Fw.reset []) (hdr, 0x03, [0]) = true ∧ Fw.reset.state = 0 ∧
    (Config.verifies ((header (digestOf 0#8)).take hdrLen) = true →
      (decided (fwState Fw.reset []) (hdr, 0x03, [0])).headerCheck (fwState Fw.reset []).perm
        ((fwState Fw.reset []).dev.cmdFor (hdr, 0x03, [0])).inp = none) ∧
    decides (fwState Fw.reset []) (zeros 1056, 0x03, [0]) = true ∧
    (decided (fwState Fw.reset []) (zeros 1056, 0x03, [0])).headerCheck (fwState Fw.reset []).perm
      ((fwState Fw.reset []).dev.cmdFor (zeros 1056, 0x03, [0])).inp = some 0x0A01 ∧
    decides (fwState { Fw.reset with state := 1 } []) (hdr, 0x03, [0]) = true := by
  have same : ((fwState Fw.reset []).dev.cmdFor (hdr, 0x03, [0])).inp = header (digestOf 0#8) := by decide +kernel
  refine ⟨?_, ?_, rfl, fun v => header_passes _ _ _ ?_ ?_ ?_ ?_ (same ▸ v), ?_, ?_, ?_⟩
  · decide +kernel
  · decide +kernel
  · decide +kernel
  · decide +kernel
  · decide +kernel
  · decide +kernel
  · decide +kernel
  · decide +kernel
  · decide +kernel

/-- BODY at the end of a body of seven bytes, and one byte past it; COMMIT, CANCEL and REVERT in the states that take or refuse them. -/
theorem witness_FwPhases_others :
    decides (fwState { Fw.reset with state := 1, header := header (digestOf 0#8) } []) (zeros 1, 0x03, [1, 6, 0]) = true ∧
    6 + ((fwState Fw.reset []).dev.cmdFor (zeros 1, 0x03, [1, 6, 0])).inLen ≤ fwBodyLen (header (digestOf 0#8)) ∧
    fwBodyLen (header (digestOf 0#8)) < 7 + ((fwState Fw.reset []).dev.cmdFor (zeros 1, 0x03, [1, 7, 0])).inLen ∧
    decides (fwState { Fw.reset with state := 1, header := header (digestOf 0#8) } []) (zeros 1, 0x03, [1, 7, 0]) = true ∧
    decides (fwState Fw.reset []) (zeros 1, 0x03, [1, 6, 0]) = true ∧ decides (fwState { Fw.reset with state := 2 } []) (zeros 1, 0x03, [1, 6, 0]) = true ∧
    decides (fwState { Fw.reset with state := 1 } []) (e0, 0x03, [2]) = true ∧ decides (fwState Fw.reset []) (e0, 0x03, [2]) = true ∧
    decides (fwState { Fw.reset with state := 1, hashing := true } []) (e0, 0x03, [2]) = true ∧
    decides (fwState { Fw.reset with state := 3 } []) (e0, 0x03, [2]) = true ∧
    decides (fwState { Fw.reset with state := 1 } []) (e0, 0x03, [3]) = true ∧ decides (fwState { Fw.reset with state := 2 } []) (e0, 0x03, [3]) = true ∧
    decides (fwState Fw.reset [none, some ⟨[], []⟩, none]) (e0, 0x03, [4]) = true ∧
    (fwState Fw.reset [none, some ⟨[], []⟩, none]).perm.set 1 = some ⟨[], []⟩ ∧ (⟨[], []⟩ : FwSet).bad = false ∧
    (fwState Fw.reset []).perm.floor ≤ fwSec [] ∧ (decided (fwState Fw.reset []) (e0, 0x03, [4])).fwDependency [] = false ∧
    (fwState Fw.reset [none, none, none]).perm.set 1 = none ∧ decides (fwState Fw.reset [none, none, none]) (e0, 0x03, [4]) = true ∧
    decides (fwState { Fw.reset with state := 1 } []) (e0, 0x03, [4]) = true ∧
    decides (fwState Fw.reset []) (e0, 0x03, [3]) = true ∧ decides (fwState staged []) (e0, 0x03, [3]) = true ∧
    fwSec [] < (1 : Nat) ∧ decides { fwState Fw.reset [none, some ⟨[], []⟩, none] with
      perm := { (fwState Fw.reset [none, some ⟨[], []⟩, none]).perm with floor := 1 } } (e0, 0x03, [4]) = true := by
  decide +kernel

/-- A rewrite that starts on a running row. -/
def rewriting : State :=
  { live with
    dev := { live.dev with fw := { Fw.reset with state := 2, path := 1, header := header (digestOf 1#8), ready := true } }
    perm := { live.perm with seeds := [some ⟨header (digestOf 0#8), []⟩, none, none] } }

theorem witness_FwRewrites :
    staged.state = 1 ∧ staged.hashing = true ∧ staged.cmd = some (cmd3 3) ∧
    live.dev.commitCheck staged = none ∧ live.dev.commitCheck { staged with header := header (digestOf 0#8) } = some (1, 0x0A01) ∧
    Fw.reset.state ≠ 1 ∧ rewriting.dev.fw.state = 2 ∧ rewriting.dev.fw.ready = true ∧ rewriting.dev.row.running = true ∧
    rewriting.perm.set 0 = some ⟨header (digestOf 0#8), []⟩ ∧ header (digestOf 0#8) ≠ [] ∧
    fwDigest (header (digestOf 0#8)) 7 ≠ fwDigest rewriting.dev.fw.header 7 := by decide +kernel

/-- A run-on row whose loaders of some parts have still to report. -/
def loading (st : Nat) (waiting : List Nat) (rows : Nat) : State :=
  liveWith fun d => { (withRegs d [(pf 1 0x124, rows * 256 + 1)]) with
    fw := { Fw.reset with state := st, path := 1, header := header (digestOf 1#8), waiting := waiting, rewritten := [2] } }

/-- Run-on of 60 ms is 240 rows of 250 µs; 239 rows are too few. -/
theorem witness_LoaderReports :
    7 ∈ (loading 2 [1, 7] 3).dev.fw.waiting ∧ (loading 2 [1, 7] 3).dev.fw.activating = false ∧ (loading 2 [1, 7] 3).dev.inRunon = true ∧
    (loading 2 [1, 7] 3).dev.fw.state = 2 ∧ (loading 2 [1, 7] 3).dev.fw.waiting.erase 7 ≠ [] ∧ (loading 2 [7] 3).dev.fw.waiting = [7] ∧
    (loading 2 [7] 3).dev.fw.path = 1 ∧ (loading 2 [7] 3).dev.fw.revert = false ∧ (loading 2 [7] 3).perm.roles = [0, 1, 2] ∧
    7 ∈ (loading 3 [7] 3).dev.fw.waiting ∧ (loading 3 [7] 3).dev.fw.state = 3 ∧ (loading 3 [7] 3).dev.inRunon = true ∧
    3 ∉ (loading 2 [1, 7] 3).dev.fw.waiting ∧ (loading 2 [7] 240).dev.fw.ready = false ∧
    60000 ≤ (loading 2 [7] 240).dev.runonRows * (loading 2 [7] 240).dev.period ∧
    (loading 2 [7] 239).dev.runonRows * (loading 2 [7] 239).dev.period < 60000 := by decide +kernel

/-- The PLDM path with a set applied, and one that receives. -/
theorem witness_FwOverPldm :
    live.dev.managed = true ∧ live.dev.fw.state = 0 ∧
    (Config.verifies ((header (digestOf 0#8)).take hdrLen) = true → live.dev.headerCheck live.perm (header (digestOf 0#8)) = none) ∧
    live.dev.headerCheck live.perm [] = some 0x0A01 ∧ ({ staged with path := 2 } : Fw).state = 1 ∧
    live.dev.commitCheck ({ staged with path := 2, header := header (digestOf 0#8) }.store 0 ([].take 7)) = some (1, 0x0A01) ∧
    live.dev.commitCheck ({ staged with path := 2 }.store 0 ([7#8].take (fwBodyLen staged.header))) = none ∧
    ({ Fw.reset with path := 2, state := 2 } : Fw).applied = true ∧ Fw.reset.applied = false ∧
    (liveWith fun d => { d with power := { d.power with stage := 0 } }).dev.managed = false := by
  refine ⟨?_, ?_, fun v => header_passes _ _ _ ?_ ?_ ?_ ?_ v, ?_, ?_, ?_, ?_, ?_, ?_, ?_⟩ <;> decide +kernel


/-! Registers -/

/-- An RC counter, the low and the high half of a pair, and MSI-X vector control in the module's last memory window (fn 17). -/
theorem witness_ReadsAnswer :
    0 < 18 ∧ 17 < 18 ∧ live.dev.up = true ∧ isRc (busKey 0 (pf 1 0x068)) = true ∧ pairLo (busKey 0 (pf 0 0x110)) = true ∧
    pairLo (busKey 0 (pf 0 0x114) - 4) = true ∧ nget ({ live.dev with hold := [(pf 0 0x114, 5#32)] } : Dev).hold (busKey 0 (pf 0 0x114)) = some 5#32 ∧
    pairLo (busKey 17 12 - 4) = false ∧ (regDesc (busKey 17 12)).isSome = true ∧ inReset.dev.up = false := by decide +kernel

theorem witness_WritesStore :
    live.dev.up = true ∧ regDesc (busKey 0 (pf 0 0xFFC)) = none ∧ (regDesc (busKey 0 (pf 1 0x068))).map (·.acc) = some .rc ∧
    (regDesc (busKey 0 (pf 1 0x124))).map (·.acc) = some .ro ∧ typeOf (keyPage (busKey 0 (pf 1 0x124))) ≠ 0x12 ∧
    pf 0x10 (0x180 + 4 * 16) = pf 0x10 0x1C0 ∧
    (regDesc (busKey 0 (pf 6 0x100))).map (fun r => (r.acc, r.shadow)) = some (.rw, true) ∧ 0x40 ≤ busKey 0 (pf 6 0x100) % 4096 ∧
    keyPage (busKey 0 (pf 6 0x100)) ≠ 0x10 ∧ (regDesc (pf 6 0x10C)).isSome = true ∧ (regDesc (pf 0x40 0x900)).isSome = true ∧
    (regDesc (pf 0x4F 0x900)).isSome = true ∧ pageInfo 1 = some (2, 0) ∧ hasHeader 2 = true ∧ pageInfo 0x1D4 = some (0x24, 4) := by
  decide +kernel

/-! Markers -/

/-- Marker 4095 held by strand 1 of tenant 3 at the top of its range. -/
def marked : State := liveWith fun d => d.setMarker 4095 ⟨2 ^ 32 - 1, 2, 0, .strand 1 3⟩

theorem witness_MarkerSignals :
    holderSignals (marked.dev.marker 4095).holder 1 1 = true ∧ (true = true → 1 ≤ 1 ∧ 1 ≤ 65535) ∧ (true = true → 1 ≤ 65535 ∧ 65535 ≤ 65535) ∧
    0 = ((marked.dev.marker 4095).value + 1) % 2 ^ 32 ∧ holderSignals (marked.dev.marker 0).holder 1 1 = false ∧
    holderSignals (marked.dev.marker 4095).holder 1 2 = false := by decide +kernel

theorem witness_MarkerPages :
    0x30 ≤ 0x33 ∧ 0x33 < 0x34 ∧ 4095 = (0x33 - 0x30) * 1024 + (0xFFFFFFFF#32 : Word).toNat % 1024 ∧ live.dev.up = true ∧
    (live.dev.marker 4095).holder = .free ∧ (marked.dev.marker 4095).holder = .strand 1 3 ∧ 0x34 ≤ 0x37 ∧ 0x37 < 0x38 ∧
    4095 = (0x37 - 0x34) * 1024 + (1023#32 : Word).toNat % 1024 ∧ inReset.dev.up = false := by decide +kernel

/-! Index jobs and slices -/

/-- A graph index of tenant 3 with one record in its sprout. -/
def ixHandle : Nat := 0x01030005
def indexBody : Content := ⟨[(0x44, 4#8)], ⟨[], [], [⟨7, 0, 1, [], [1, 2, 3, 4], [], false⟩]⟩⟩
def indexObj : Obj := { Obj.blank with current := true, epochs := [⟨4, 0, indexBody, 0, 6, []⟩] }

/-- That index in the directory, selected in IX_SEL, with some jobs. -/
def indexed (o : Obj) (jobs : List Job) : State :=
  liveWith fun d => { (withRegs d [(pf 4 0x208, ixHandle)]) with objs := [(ixHandle, o)], jobs := jobs }

/-- A job in a state. -/
def jobIn (st : Nat) : Job := ⟨ixHandle, false, [], st, 4, 0, 0⟩

/-- Eight other indexes whose jobs run. -/
def eight : List Job := (List.range 8).map fun i => ⟨0x01030010 + i, false, [], 2, 4, 0, 0⟩

theorem witness_JobsAndSlices_jobs :
    (indexed indexObj []).dev.up = true ∧ ixHandle = (indexed indexObj []).dev.rg (pf 4 0x208) ∧ handleKind ixHandle = 1 ∧
    ((indexed indexObj []).dev.curEpoch ixHandle).isSome = true ∧ (ixDesc ((indexed indexObj []).dev.curContent ixHandle).bytes).cls = 0 ∧
    ((indexed indexObj []).dev.curContent ixHandle).index.sprout ≠ [] ∧ (indexed indexObj []).dev.jobOf ixHandle = none ∧
    (indexed indexObj [jobIn 1]).dev.jobOf ixHandle ≠ none ∧ (indexed indexObj [jobIn 1]).dev.jobs[0]? = some (jobIn 1) ∧
    (∀ k ∈ (indexed indexObj [jobIn 1]).dev.jobs, k.handle = ixHandle → k.state ≠ 2) ∧
    ((indexed indexObj [jobIn 1]).dev.jobs.filter (·.state == 2)).length < 8 ∧
    (indexed indexObj (eight ++ [jobIn 1])).dev.jobs[8]? = some (jobIn 1) ∧
    8 ≤ ((indexed indexObj (eight ++ [jobIn 1])).dev.jobs.filter (·.state == 2)).length ∧
    (indexed indexObj [jobIn 2]).dev.jobs.find? (fun x => x.handle == ixHandle && x.state == 2) = some (jobIn 2) ∧
    ((indexed indexObj [jobIn 2]).dev.obj ixHandle).epoch 4 = some ⟨4, 0, indexBody, 0, 6, []⟩ ∧
    bits ((indexed indexObj [jobIn 2]).dev.inForce (pf 4 0x200)) 11 0 ≠ 0 ∧ indexObj.foreign = none ∧
    ((indexed { indexObj with foreign := some 6 } [jobIn 2]).dev.obj ixHandle).foreign = some 6 ∧ 6 ≤ 6 := by decide +kernel

/-- The premise over earlier jobs, with a queued job of an index whose job runs in front. -/
theorem witness_JobsAndSlices_order :
    ∀ (n : Nat) (k : Job), n < 1 → [jobIn 1, { jobIn 1 with handle := 0x01030006 }, jobIn 2][n]? = some k → k.state = 1 →
      ∃ x ∈ [jobIn 1, { jobIn 1 with handle := 0x01030006 }, jobIn 2], x.handle = k.handle ∧ x.state = 2 := by
  intro n k hn hk _
  obtain rfl : n = 0 := by omega
  cases hk
  exact ⟨jobIn 2, by simp, rfl, rfl⟩

/-- The needle bed: n slices loaded of eight segments each, then one that waits, loads or is loaded. -/
def bedWith (n segments phase : Nat) : State :=
  liveWith fun d => { d with tiers := { d.tiers with
    bed := List.replicate n ⟨0x04030001, 8, true, 32, 2, [0], [1], false⟩ ++ [⟨0x04030001, segments, true, 32, phase, [0, 2], [2], false⟩] } }

theorem witness_JobsAndSlices_bed :
    (bedWith 3 8 0).dev.tiers.bed[3]? = some ⟨0x04030001, 8, true, 32, 0, [0, 2], [2], false⟩ ∧
    sumNat ((bedWith 3 8 0).dev.tiers.bed.map fun y => if y.phase = 0 then 0 else y.segments) + 8 ≤ 32 ∧ 3 < 4 ∧
    (bedWith 4 0 0).dev.tiers.bed[4]? = some ⟨0x04030001, 0, true, 32, 0, [0, 2], [2], false⟩ ∧
    32 < sumNat ((bedWith 3 9 0).dev.tiers.bed.map fun y => if y.phase = 0 then 0 else y.segments) + 9 ∧
    (bedWith 0 8 1).dev.tiers.bed[0]? = some ⟨0x04030001, 8, true, 32, 1, [0, 2], [2], false⟩ ∧
    (∀ x ∈ (bedWith 1 8 2).dev.tiers.bed, x.phase ≠ 0) ∧ (∀ x ∈ (bedWith 1 8 2).dev.tiers.bed, x.phase ≠ 1) := by decide +kernel

theorem witness_JobsAndSlices_first :
    (∀ (n : Nat) (y : Slice), n < 3 → (bedWith 3 8 0).dev.tiers.bed[n]? = some y → y.phase ≠ 0) ∧
    (∀ (n : Nat) (y : Slice), n < 0 → (bedWith 0 8 1).dev.tiers.bed[n]? = some y → y.phase ≠ 1) := by
  refine ⟨fun n y hn hy => ?_, fun n _ hn => absurd hn (Nat.not_lt_zero n)⟩
  have : n = 0 ∨ n = 1 ∨ n = 2 := by omega
  rcases this with rfl | rfl | rfl <;> (cases hy; decide)

/-! Memory tiers -/

theorem witness_LineCode :
    symbolErrors [] = 0 ∧ symbolErrors [(37, 65535)] = 1 ∧ symbolErrors [(0, 1), (37, 1)] = 2 ∧ symbolErrors [(0, 1), (1, 1), (2, 1)] = 3 ∧
    symbolErrors [(0, 1), (1, 1), (2, 1), (37, 1)] = 4 := by decide +kernel

/-- A line lost in T3, and a recovery that waits in slot 0. -/
def lostLine : State := liveWith fun d => { d with tiers := { d.tiers with lost := [(3, 9, ixHandle, 1)] } }
def recovering (handle : Nat) (damaged : List Nat) : State :=
  let s := running1 { slot1 with phase := 1, tierErr := [some 1] } strand3
  { s with dev := { s.dev with
      tiers := { s.dev.tiers with recoveries := [⟨9, 3, 0x90, handle, 1, 4, 0, some 1, 10⟩, ⟨9, 1, 0x90, handle, 1, 4, 0, some 1, 10⟩] }
      objs := [(ixHandle, { indexObj with epochs := [⟨4, 0, indexBody, 0, 6, damaged⟩] })] } }

/-- A read of strand 1 left outstanding by a cut stitch. -/
def outstanding : State := running1 { slot1 with phase := 3 } { strand3 with reading := [.t3] }

theorem witness_TierReads :
    live.dev.up = true ∧ 3 ≤ 3 ∧ lostLine.dev.isLost 3 9 = true ∧ lineOutcome [] = .clean ∧ live.dev.isLost 3 9 = false ∧
    lineOutcome [(0, 1)] ≠ .clean ∧ lineOutcome [(0, 1)] = .corrected ∧ lineOutcome [(0, 1), (1, 1), (2, 1)] = .uncorrectable ∧
    pfPage 0x90 = true ∧ typeOf 0x90 ≠ 3 ∧ capProbe (typeOf 0x90) = true ∧ (live.dev.page 0x90).fenced = false ∧
    lateCounter 0x90 = some 0x040 ∧ (recovering 0 []).dev.readers 0 (some 1) = [3] ∧ (3 ∉ slot1.poisoned ∧ 3 ≠ 0) ∧
    (1 ≤ handleOwner ixHandle ∧ handleOwner ixHandle ≤ 16) ∧
    (recovering 0 []).dev.row.slots[0]? = some { slot1 with phase := 1, tierErr := [some 1] } := by decide +kernel

theorem witness_TierReads_recovery :
    (recovering 0 []).dev.tiers.recoveries.filter (fun x => x.tier == 3 && x.line == 9) = [⟨9, 3, 0x90, 0, 1, 4, 0, some 1, 10⟩] ∧
    (recovering 0 []).dev.tiers.recoveries.filter (fun x => x.tier == 1 && x.line == 9) = [⟨9, 1, 0x90, 0, 1, 4, 0, some 1, 10⟩] ∧
    (recovering 0 []).dev.row.number = 10 ∧ ((recovering ixHandle []).dev.obj ixHandle).isDamaged 4 1 = false ∧
    ((recovering ixHandle [1]).dev.obj ixHandle).isDamaged 4 1 = true ∧ ixHandle ≠ 0 ∧ (recovering ixHandle []).dev.isLost 3 9 = false ∧
    nget (recovering ixHandle []).dev.objs ixHandle = some indexObj ∧ indexObj.epoch 4 = some ⟨4, 0, indexBody, 0, 6, []⟩ ∧
    (∀ r ∈ live.dev.tiers.recoveries, r.tier ≠ 3 ∨ r.line ≠ 9) ∧
    outstanding.dev.row.slots[0]? = some { slot1 with phase := 3 } ∧ tierSrc 3 = some .t3 ∧
    nget outstanding.dev.strands 1 = some { strand3 with reading := [.t3] } := by decide +kernel

/-- A read that returns after its stitch was cut stays in its strand's scratch; a line read again without error in T1 ends the wait and counts
nothing, and a failed one of working data is lost in its own tier (R32, R193, R194). -/
theorem test_tierReads :
    ((outstanding.dev.tierRead 3 0x90 0 (some 1) false [] 9 0 0).strands.map fun p => (p.2.reading, p.2.scratch)) = [([], [.t3])] ∧
    ((recovering 0 []).dev.recoveryDone 1 9 true true).row.slots.map (·.tierErr) = [[]] ∧
    ((recovering 0 []).dev.recoveryDone 1 9 true true).regs = (recovering 0 []).dev.regs ∧
    ((recovering 0 []).dev.recoveryDone 1 9 false false).tiers.lost = [(1, 9, 0, 1)] ∧
    ((recovering ixHandle []).dev.recoveryDone 3 9 false false).objs.map (fun p => p.2.epochs.map (·.damaged)) = [[[1]]] ∧
    ((recovering ixHandle [1]).dev.recoveryDone 3 9 true false).row.slots.map (·.poisoned) = [[3]] := by
  decide +kernel

theorem witness_TierWrites :
    live.dev.up = true ∧ 0xB6 = 0xB6 + 8 * (0 % 2) ∧ 0xBE = 0xB6 + 8 * (1 % 2) ∧ 2 ≤ 2 ∧ typeOf 0x9B = 0x15 ∧
    (typeOf 0xB5 = 0x18 ∧ instOf 0xB5 % 8 < 6) ∧ (typeOf 0xBD = 0x18 ∧ instOf 0xBD % 8 < 6) ∧ scrubCounter 0x9B = some 0x04C ∧
    (live.dev.page 0x9B).fenced = false ∧ inReset.dev.up = false ∧ live.dev.scrubWaits 0xB5 = false ∧
    (liveWith fun d => { d.put (pf 1 0x124) 5 with fw := { Fw.reset with state := 2, rewritten := [3] } }).dev.scrubWaits 0xB5 = true := by
  decide +kernel

/-! Errors and probes -/

/-- Classes 1, 5, 6 and 8 at the ends of their ranges; a search unit, and the row timer, which has no probe. -/
theorem witness_ErrorsReported :
    pfPage 0x190 = true ∧ typeOf 0x190 ≠ 3 ∧ ¬ (0x190 = 1 ∧ 3 = 3) ∧ pfPage 1 = true ∧ typeOf 1 ≠ 3 ∧ ¬ (1 = 1 ∧ 8 = 3) ∧
    bit (live.dev.rg (pf 0x190 0x024)) 0 = false ∧ 0x190 ∉ live.dev.firsts ∧ 0x190 ∈ ({ live.dev with firsts := [0x190] } : Dev).firsts ∧
    classCounter 1 = some 0x040 ∧ 5 ≤ 5 ∧ capProbe (typeOf 0x190) = true ∧ (live.dev.page 0x190).fenced = false ∧ isCompute 0x190 = true ∧
    locKind (2 * 2 ^ 60) = 2 ∧ locKind (unitLoc 0) ≠ 2 ∧ 6 ≤ 6 ∧ 3 < 4 ∧ 3 ∉ live.dev.fault.restarting ∧ 3 ∈ (live.dev.restartGroup 3).fault.restarting := by decide +kernel

/-- A planned probe of search unit 0x190 after an error in row 9. -/
def probe1 : Probe := ⟨0x190, unitLoc 0, 9, false, none, 0⟩
def probed (x : Probe) : State := liveWith fun d => { d with fault := { d.fault with probes := [x] } }

theorem witness_ProbesRun :
    (probed probe1).dev.fault.probes[0]? = some probe1 ∧ probe1.row < (probed probe1).dev.row.number ∧
    (probed probe1).dev.row.running = true ∧ bit ((probed probe1).dev.rg (pf 1 0x124)) 0 = false ∧
    (∀ x ∈ (probed probe1).dev.fault.probes, x.page = 0x190 → x.running = false ∧ x.outcome = none) ∧
    (∃ x ∈ (probed { probe1 with outcome := some true }).dev.fault.probes, x.page = 0x190 ∧ (x.running = true ∨ x.outcome ≠ none)) ∧
    (probed { probe1 with running := true }).dev.fault.probes.find? (fun x => x.page == 0x190 && x.running)
      = some { probe1 with running := true } ∧
    (probed probe1).dev.passes 0x190 (unitLoc 0) + 1 < bits ((probed probe1).dev.inForce (pf 7 0x100)) 23 16 ∧
    (probed probe1).dev.fault.history.length < 4096 := by decide +kernel

theorem witness_ProbesRun_flProbe :
    0x190 = bits ((liveWith fun d => withRegs d [(pf 7 0x13C, 0x190)]).dev.rg (pf 7 0x13C)) 11 0 ∧ pfPage 0x190 = true ∧
    capProbe (typeOf 0x190) = true ∧ (live.dev.page 0x190).quiesced = false ∧ (live.dev.page 0x190).probing = false ∧
    (live.dev.page 0x190).fenced = false ∧ (∀ x ∈ live.dev.fault.probes, x.page ≠ 0x190) ∧ isCompute 0x190 = true ∧
    0x90 = bits ((liveWith fun d => withRegs d [(pf 7 0x13C, 0x90)]).dev.rg (pf 7 0x13C)) 11 0 ∧ capProbe (typeOf 0x90) = true ∧
    isCompute 0x90 = false ∧ 1 = bits ((liveWith fun d => withRegs d [(pf 7 0x13C, 1)]).dev.rg (pf 7 0x13C)) 11 0 ∧
    capProbe (typeOf 1) = false := by decide +kernel

/-- A log with one record, and tenant 3's queue with a strand, a waiting command, or neither. -/
def logged : State := liveWith fun d => { d with fault := { d.fault with log := [⟨9, 2, 0, 1, 0, 0, 0, 0x300, 5⟩] } }

theorem witness_LogAndHostErrors :
    logged.dev.up = true ∧ logged.dev.fault.log.find? (·.seq == (5#32 : Word).toNat) = some ⟨9, 2, 0, 1, 0, 0, 0, 0x300, 5⟩ ∧
    (∀ r ∈ logged.dev.fault.log, r.seq ≠ (6#32 : Word).toNat) := by decide +kernel

theorem witness_LogAndHostErrors_one :
    ∀ y ∈ busyQueue.dev.strands, y.2.state ≠ 3 → y.2.part = none → y.2.cmd.q = q3 → y.2.cmd.cid = 7 → y = (1, strand3) :=
  fun _ hy _ _ _ _ => List.mem_singleton.1 hy

theorem witness_LogAndHostErrors_queues :
    nget busyQueue.dev.strands 1 = some strand3 ∧ strand3.state ≠ 3 ∧ strand3.part = none ∧ strand3.cmd.q = q3 ∧ strand3.cmd.cid = 7 ∧
    (1, strand3) ∈ busyQueue.dev.strands ∧ busyQueue.dev.on (tenantPage q3.tenant) = true ∧
    (∀ y ∈ closing.dev.strands, y.2.cmd.q = q3 → y.2.cmd.cid ≠ 7) ∧ (closing.dev.qp q3).waiting.find? (·.cid == 7) = some (cmd3 0x23) ∧
    (cmd3 0x23).q = q3 ∧ busyQueue.dev.queueOn q3 = true ∧ inReset.dev.up = false := by decide +kernel

/-! Resets and power -/

/-- The power of a module that runs, changed. -/
def powered (f : Power → Power) : State := liveWith fun d => { d with power := f d.power }

theorem witness_ResetsTaken :
    busyQueue.dev.up = true ∧ 1 ≤ 3 ∧ 16 ≤ 16 ∧ busyQueue.dev.absorbs = false ∧
    nget busyQueue.dev.strands 1 = some strand3 ∧ strand3.cmd.q.tenant = 3 ∧ queueKey ⟨16, 63⟩ / 64 = 16 ∧
    State.reset.dev.absorbs = true ∧ live.dev.power.stage = 2 ∧ live.dev.power.sag = false ∧ live.dev.power.starting = false ∧
    live.dev.power.perst = false ∧ (powered fun w => { w with starting := true }).dev.power.por = false ∧
    State.reset.dev.power.starting = true ∧ State.reset.dev.power.por = true ∧ inReset.dev.power.pwrgd = true ∧
    (powered fun w => { w with perst := true, starting := true }).dev.power.starting = true ∧
    (live.dev.mgmt.pinSlot ≠ 15 % 16 ∨ live.dev.mgmt.pinMaster ≠ true) ∧ (live.dev.mgmt.pinSlot = 0 % 16 ∧ live.dev.mgmt.pinMaster = false) := by
  decide +kernel

/-- A module without power, and one whose cellar holds a save. -/
def off : State := powered fun w => { w with stage := 0, pwrgd := false }
def save1 : Save := ⟨1, true, false, 4, 5, [], [(0x01030005, ⟨4, 0, Content.empty, 0, 6, []⟩)], [], [], 10, [], []⟩
def saved : State := { State.reset with perm := { State.reset.perm with saves := [save1] } }

theorem witness_PowerUp :
    off.dev.power.stage = 0 ∧ off.dev.power.l3 = false ∧ off.dev.power.connected.getD (b2n true) false = true ∧
    (powered fun w => { w with stage := 0, connected := [true, false] }).dev.power.connected.getD (b2n true) false = false ∧
    State.reset.dev.power.starting = true ∧ State.reset.dev.power.perst = false ∧ State.reset.dev.power.stage = 2 ∧
    State.reset.dev.power.pwrgd = true ∧ State.reset.dev.power.por = true ∧ State.reset.perm.newest = none ∧ saved.perm.newest = some save1 ∧
    nget save1.directory 0x01030005 = some ⟨4, 0, Content.empty, 0, 6, []⟩ ∧ 0x190 ∈ unitSlots 2 ∧ 0x1D4 ∈ unitSlots 4 ∧
    0x190 ∈ ({ State.reset.perm with fenced := [0x190] } : Perm).fenced ∧ live.dev.power.starting = false ∧
    (powered fun w => { w with bankReady := false }).dev.power.rebuilt = true ∧
    (liveWith fun d => withAct d [(pf 6 8, 1)]).dev.enAct 6 = true ∧ live.dev.row.running = true ∧ live.dev.power.warm = false ∧
    live.dev.power.bankReady = true ∧ live.dev.power.stage ≠ 0 ∧ live.dev.power.sag = false := by decide +kernel

/-- 42 V is no undervoltage; 20 samples below it are reported. -/
theorem witness_FeedsAndBank :
    live.dev.power.stage ≠ 0 ∧ 42000 ≤ max 42000 0 ∧ 41999 < 42000 ∧ (powered fun w => { w with bothLowUs := 19 }).dev.power.bothLowUs < 20 ∧
    0 < (powered fun w => { w with bothLowUs := 19 }).dev.power.bothLowUs ∧ live.dev.managerStopped = false ∧ off.dev.power.stage = 0 ∧
    (let s := powered fun w => { w with lowUs := [0, 20] }
     1 = b2n true ∧ s.dev.power.lowUs.length = 2 ∧ 20 ≤ s.dev.power.lowUs.getD 1 0 ∧ s.dev.power.lowUs.getD 1 0 < 2 ^ 32 ∧
       s.dev.power.lowUs.getD (1 - 1) 0 = 0) ∧
    (powered fun w => { w with lowUs := [19, 0] }).dev.power.lowUs.getD 0 0 < 20 ∧ live.dev.up = true ∧ live.dev.power.sag = false ∧
    (powered fun w => { w with measuring := true }).dev.power.measuring = true ∧ live.dev.power.measuring = false ∧
    4999 % 65536 ≠ 0 ∧ 1 % 65536 < bits (live.dev.inForce (pf 8 0x11C)) 15 0 ∧
    bits (live.dev.inForce (pf 8 0x11C)) 15 0 ≤ 65535 % 65536 := by decide +kernel

/-- A sag that is saved: power returned or not. -/
def saving (back : Bool) : State :=
  { busyQueue with
    dev := { busyQueue.dev with power := { busyQueue.dev.power with sag := true, saving := true, returned := back } }
    perm := { busyQueue.perm with saves := [save1] } }

theorem witness_SagAndSave :
    (let s := powered fun w => { w with bothLowUs := 20 }
     s.dev.power.stage = 2 ∧ s.dev.power.sag = false ∧ 20 ≤ s.dev.power.bothLowUs ∧ s.dev.inStart = false) ∧
    (let s := powered fun w => { w with bothLowUs := 20, rebuilt := false }
     s.dev.power.stage = 2 ∧ s.dev.power.sag = false ∧ s.dev.inStart = true) ∧
    (powered fun w => { w with bothLowUs := 19 }).dev.power.bothLowUs < 20 ∧ (saving false).dev.power.sag = true ∧
    (saving false).dev.power.saving = true ∧ (saving false).dev.power.returned = false ∧ (saving true).dev.power.returned = true ∧
    save1 ∈ (saving true).perm.saves ∧ (1, strand3) ∈ (saving true).dev.strands ∧ strand3.state ≠ 3 ∧ strand3.part = none ∧
    survOf (pf 6 0x100) = .k ∧ isMsix (pf 6 0x100) = false ∧ live.dev.power.sag = false := by decide +kernel

/-- A module whose standby has been asked for. -/
def asked : State := powered fun w => { w with standby := true, standbyRow := 9 }

/-- Row of a cascade state. -/
def cascaded (st : Nat) : State := liveWith fun d => { d with cas := { d.cas with state := st, modules := 2 } }

theorem witness_StandbyAndTemperatures :
    live.dev.up = true ∧ live.dev.cas.state = 0 ∧ (cascaded 3).dev.cas.state = 3 ∧ live.dev.power.standby = false ∧
    (cascaded 1).dev.cas.state = 1 ∧ (cascaded 2).dev.up = true ∧ asked.dev.power.standby = true ∧ asked.dev.power.l2 = false ∧
    asked.dev.row.running = true ∧ (∀ x ∈ asked.dev.strands, x.2.state = 3) ∧ inL2.dev.up = true ∧ inL2.dev.power.l2 = true ∧
    live.dev.power.l2 = false ∧ live.dev.power.stage ≠ 0 ∧ warnAt 2 ≤ 800 ∧ warnAt 3 ≤ 520 ∧ warnAt 15 ≤ 760 ∧ 15 ∉ live.dev.mgmt.warm ∧
    760 + 40 ≤ warnAt 0 ∧ tripAt 15 = some 840 ∧ 840 ≤ 840 ∧ live.dev.inStart = false ∧ live.dev.power.stage = 2 ∧ live.dev.power.sag = false ∧
    (powered fun w => { w with rebuilt := false }).dev.inStart = true ∧ off.dev.power.stage = 0 ∧ 16 ≤ 16 := by decide +kernel

/-! Management -/

/-- The management block with a requester's state. -/
def agreed (negotiated handshake session : Bool) : State :=
  liveWith fun d => { d with mgmt := { d.mgmt with negotiated := negotiated, handshake := handshake, session := session } }

/-- The security part's image is rewritten. -/
def secWrite : State := liveWith fun d => { d.put (pf 1 0x124) 5 with fw := { Fw.reset with state := 2, waiting := [7] } }

theorem witness_ManagementAnswers :
    live.dev.managed = true ∧ live.dev.securityStopped = false ∧ (agreed true false false).dev.mgmt.negotiated = true ∧
    (agreed true true false).dev.mgmt.handshake = true ∧ (agreed true false true).dev.mgmt.session = true ∧ 11 ≤ 11 ∧
    secWrite.dev.managed = true ∧ secWrite.dev.securityStopped = true ∧ live.dev.mgmt.negotiated = false ∧ 11 < 12 ∧ 12 ≠ 0xFF ∧
    (agreed true false false).dev.mgmt.handshake = false ∧ live.dev.mgmt.session = false ∧ live.dev.up = true ∧
    off.dev.managed = false := by decide +kernel

/-! The cascade -/

/-- A member of a cascade as the master sees it. -/
def member1 (i reply : Nat) : Member := ⟨i, reply, 0, 0xFFF, 0, 250, live.dev.topology, true, false, 0⟩

/-- The master of a cascade of two modules, in an exchange that began in row 8. -/
def master (ms : List Member) (x : Option Nat) : State :=
  liveWith fun d => { d with
    mgmt := { d.mgmt with masterLow := true }
    cas := { d.cas with state := 2, modules := 2, members := ms, exchange := x }
    pub := x.map fun _ => { pubOf d with due := untilGo, checked := true } }

/-- What the master finds at the deadline. -/
def answer (ms : List Member) : Option (Option (Nat × Nat × Nat)) :=
  let n := (master ms (some 8)).dev.checkDone
  n.pub.map fun p => n.casCode p

theorem witness_CascadeMessages_deadline :
    (master [member1 0 1, member1 1 1] (some 8)).dev.cas.exchange = some 8 ∧ (master [] (some 8)).dev.cas.goSent = false ∧
    (master [] (some 8)).dev.mgmt.masterLow = true ∧ 8 + 2 ≤ (master [] (some 8)).dev.row.number ∧
    answer [member1 0 1, member1 1 1] = some none ∧ answer [member1 0 1, member1 1 2] = some none ∧
    (∃ m ∈ (master [member1 0 1, member1 1 2] (some 8)).dev.checkDone.cas.members, m.reply = 2) ∧
    (∀ m ∈ (master [member1 0 1, member1 1 1] (some 8)).dev.checkDone.cas.members, m.reply ≠ 2) ∧
    answer [member1 0 1] = some none ∧ answer [member1 0 1, member1 1 0] = some (some (0x0905, 0xFFF, 1)) ∧
    (master [] none).dev.cas.exchange = none ∧ (master [] (some 9)).dev.row.number < 9 + 2 ∧
    (master [] none).dev.servingMaster = true ∧ (master [] none).dev.pub = none ∧ live.dev.servingMaster = false := by decide +kernel

/-- A member that follows the master's row, its cascade page staged, its publish pending until a GO. -/
def following (due : Nat) : State :=
  { follow 1 0 with dev := { withAct (follow 1 0).dev [(pf 1 0x10C, 8 * 256 + 2)] with
      cas := { Cascade.reset with state := 2, index := 1, modules := 2, ready := true }
      pub := some { pubOf live.dev with due := due } } }

theorem witness_CascadeMessages :
    (following untilGo).dev.up = true ∧ (following untilGo).dev.row.running = true ∧ (following untilGo).dev.mgmt.masterLow = false ∧
    (following untilGo).dev.cas.state = 2 ∧ (cascaded 1).dev.cas.state = 1 ∧ (following untilGo).dev.syncMode = 2 ∧ live.dev.syncMode ≠ 2 ∧
    2 * (2000 : Int) ≤ (following untilGo).dev.rowLen ∧ (following untilGo).dev.row.edgeHere = false ∧ (following untilGo).dev.syncState = 1 ∧
    (2000 : Int).natAbs ≤ (following untilGo).dev.captureNs ∧ live.dev.prepared = false ∧
    (cascaded 1).dev.prepared = true ∧ (cascaded 1).dev.prepareCode 1 = none ∧ (cascaded 1).dev.pub = none ∧
    (master [] none).dev.prepareCode 1 = some 0x0902 ∧ (master [] (some 8)).dev.cas.exchange ≠ none ∧
    (∃ m ∈ (master [member1 1 1] (some 8)).dev.cas.members, m.index = 1) ∧ (following untilGo).dev.pub = some { pubOf live.dev with due := untilGo } ∧
    (following untilGo).dev.cas.ready = true ∧ (following untilPrepare).dev.pub = some { pubOf live.dev with due := untilPrepare } ∧
    live.dev.pub = none := by decide +kernel

/-- Strand 1 of this module, spanning the cascade, and a part served for the master's strand 5. -/
def spanning : State := { cascaded 2 with dev := { (cascaded 2).dev with strands := [(1, { strand3 with spans := true })] } }
def serving : State := { cascaded 2 with dev := { (cascaded 2).dev with strands := [(1, { strand3 with part := some 5 })] } }

theorem witness_CascadeParts :
    (master [{ member1 1 0 with silent := (master [] none).dev.lostRows }] none).dev.cas.members.find? (·.index == 1)
      = some { member1 1 0 with silent := (master [] none).dev.lostRows } ∧
    (master [] none).dev.servingMaster = true ∧ (master [] none).dev.mgmt.masterLow = true ∧ live.dev.mgmt.masterLow = false ∧
    serving.dev.casMember = true ∧ ({ serving.dev.cas with silent := serving.dev.lostRows } : Cascade).silent = serving.dev.lostRows ∧
    nget serving.dev.strands 1 = some { strand3 with part := some 5 } ∧ live.dev.casMember = false ∧ (cascaded 3).dev.up = true ∧
    (cascaded 3).dev.cas.state = 3 ∧ (cascaded 3).dev.pub = none ∧ nget spanning.dev.strands 1 = some { strand3 with spans := true } ∧
    strand3.state ≠ 3 ∧ strand3.part = none ∧ 1 < spanning.dev.cas.modules ∧ (∀ l ∈ strand3.work.lists, l.1 ≠ 1) ∧
    spanning.dev.partOf 1 = none ∧ serving.dev.partOf 5 = some (1, { strand3 with part := some 5 }) ∧ 0xFF < 0x100 ∧ 0x100 ≤ 0x100 := by
  decide +kernel

/-- A footprint that the cascade reserve covers, on a module that serves no part. -/
theorem part_fits (d : Dev) (f : Foot) (h0 : d.strands = []) (h1 : f.l.getD 2 0 ≤ d.casReserve 2) (h2 : f.l.getD 4 0 ≤ d.casReserve 4)
    (h3 : f.t0 ≤ d.inForce (pf 0xD 0x110) % 2 ^ 24) (h4 : f.t2 ≤ d.inForce (pf 0xD 0x114) % 2 ^ 24)
    (h5 : f.slots ≤ bits (d.inForce (pf 0xD 0x108)) 10 0) (h6 : f.markers ≤ bits (d.inForce (pf 0xD 0x118)) 12 0) : d.partFits f = none := by
  have no (limit asked : Nat) (h : asked ≤ limit) : (asked != 0 && decide (limit < 0 + asked)) = false := by
    rw [Nat.zero_add, decide_eq_false (Nat.not_lt.2 h), Bool.and_false]
  have hs (g : Strand → Nat) : d.partSum g = 0 := by rw [Dev.partSum, h0]; rfl
  show firstCode [codeIf (decide (16384 ≤ d.strands.length)) 0x0410,
    codeIf ((f.l.getD 2 0 != 0 && decide (d.casReserve 2 < d.partSum (fun s => s.foot.l.getD 2 0) + f.l.getD 2 0)) ||
      (f.l.getD 4 0 != 0 && decide (d.casReserve 4 < d.partSum (fun s => s.foot.l.getD 4 0) + f.l.getD 4 0))) 0x0412,
    codeIf (f.t0 != 0 && decide (d.inForce (pf 0xD 0x110) % 2 ^ 24 < d.partSum (·.foot.t0) + f.t0)) 0x0415,
    codeIf (f.t2 != 0 && decide (d.inForce (pf 0xD 0x114) % 2 ^ 24 < d.partSum (·.foot.t2) + f.t2)) 0x0417,
    codeIf (f.slots != 0 && decide (bits (d.inForce (pf 0xD 0x108)) 10 0 < d.partSum (·.foot.slots) + f.slots)) 0x0418,
    codeIf (f.markers != 0 && decide (bits (d.inForce (pf 0xD 0x118)) 12 0 < d.partSum (·.foot.markers) + f.markers)) 0x0419] = none
  rw [hs, hs, hs, hs, hs, hs, no _ _ h1, no _ _ h2, no _ _ h3, no _ _ h4, no _ _ h5, no _ _ h6, h0]
  rfl

/-- A member with a flat index of dimension 4, eight search cores and four merge units, and a reserve for parts. -/
def partHost (reserve : List (Nat × Nat)) : State :=
  { cascaded 2 with dev := { (withOn (withAct (cascaded 2).dev reserve) ((List.range 8).map (0x190 + ·) ++ [0x1D0, 0x1D1, 0x1D2, 0x1D3])) with
      objs := [(ixHandle, { indexObj with epochs := [⟨4, 0, ⟨[(0x40, 1#8), (0x44, 4#8), (0x4C, 1#8)], ⟨[], [], []⟩⟩, 0, 6, []⟩] })] } }

/-- The part's command and its footprint there. -/
def partCommand (s : State) : Cmd := s.dev.partCmd { e3 with object := ixHandle } ⟨10, 0, 1, 0, 0, 0, 4⟩ 10 0
def partFoot (s : State) : Foot :=
  let v := s.dev.heardMaster.asOf 9
  searchFoot s.dev.period s.dev.budget (ixDesc (v.curContent ixHandle).bytes) (v.curContent ixHandle).index (partCommand s).search 10 (some 0)

/-- The whole of the module's class L share is reserved for parts. -/
def partReserve : List (Nat × Nat) :=
  [(pf 6 0x100, 255), (pf 0xD 0x108, 1000), (pf 0xD 0x10C, 1000 * 65536 + 1000), (pf 0xD 0x110, 1000), (pf 0xD 0x114, 1000), (pf 0xD 0x118, 1000)]

/-- The cycles of its one shard's stitch. -/
def partShard : Nat :=
  let s := partHost partReserve
  let v := s.dev.heardMaster.asOf 9
  searchCycles s.dev.budget (ixDesc (v.curContent ixHandle).bytes) (partCommand s).search

theorem witness_CascadeParts_broadcast :
    (partHost partReserve).dev.up = true ∧ (partHost partReserve).dev.casMember = true ∧
    (∀ y ∈ (partHost partReserve).dev.strands, y.2.part = some 5 → y.2.state = 3) ∧ (partCommand (partHost partReserve)).object = ixHandle ∧
    9 = (9 + (partHost partReserve).dev.rg64 (pf 0xD 0x124)) % 2 ^ 48 ∧
    ((partHost partReserve).dev.heardMaster.asOf 9).partObjects (partCommand (partHost partReserve)) [1, 2, 3, 4] = none ∧
    ((partHost partReserve).dev.heardMaster.asOf 9).partObjects (partCommand (partHost partReserve)) [1, 2, 3] = some 0x0221 := by decide +kernel

/-- The class L cycles that the part asks of a search core: those of its one shard, which a row's window bounds (R228). -/
theorem part_cycles : (partFoot (partHost partReserve)).l.getD 2 0 ≤ (partHost partReserve).dev.budget := by
  have e : (partFoot (partHost partReserve)).l.getD 2 0 = maxNat [sumNat [0], sumNat [partShard], sumNat [partShard], sumNat [0], sumNat [0]] := by rfl
  have h : partShard ≤ (partHost partReserve).dev.budget := Nat.le_of_lt_succ (Nat.mod_lt _ (Nat.succ_pos _))
  rw [e]
  simpa [maxNat, sumNat] using h

theorem witness_CascadeParts_fits : (partHost partReserve).dev.heardMaster.partFits (partFoot (partHost partReserve)) = none := by
  have hB : (partHost partReserve).dev.budget ≤ (partHost partReserve).dev.heardMaster.casReserve 2 := by decide +kernel
  exact part_fits _ _ rfl (Nat.le_trans part_cycles hB) (by decide +kernel)
    (by decide +kernel) (by decide +kernel) (by decide +kernel) (by decide +kernel)

/-- A link in a state of R435 with a number of lanes. -/
def linked (port st width : Nat) : State := liveWith fun d => withRegs d [(pf (0xA0 + port) 0x104, width * 256 + st)]

theorem witness_LinksFollow :
    3 < 4 ∧ (linked 3 2 8).dev.linkUp 3 = true ∧ 2 = (if true then 1 + 1 else 0) ∧ live.dev.linkUp 3 = false ∧ live.dev.up = true ∧ 4 ≤ 4 ∧
    7 < 8 ∧ 8 * 3 + 7 ∉ (linked 3 2 8).dev.cas.badLanes ∧ bits ((linked 3 2 8).dev.rg (pf (0xA0 + 3) 0x104)) 11 8 = 8 ∧
    4 ≤ ([24, 25, 26, 27].filter fun x => x / 8 == 3).length ∧ (linked 3 1 4).dev.linkState 3 ≠ 0 ∧ live.dev.linkState 3 = 0 ∧ 1 < 2 ∧
    inReset.dev.up = false ∧ 2 ≤ (if true then [1, 0].getD 0 0 + 1 else 0) ∧ symbolErrors [(37, 1)] = 1 ∧ symbolErrors [(0, 1), (37, 1)] ≤ 2 ∧
    symbolErrors [(0, 1), (1, 1), (2, 1), (37, 1)] ≤ 4 ∧ symbolErrors [(5, 0)] = 0 := by decide +kernel

/-! Small tests. Each takes its expected value from the rule named, most from a worked example of the spec. -/

/-- The device after a command that answers a next state. -/
def after (s : State) (c : Instr) : Dev :=
  match exec c s with
  | .next t => t.dev
  | _ => s.dev

/-- R28: the stitch window at the four periods of its table. -/
theorem test_budget : budget 100 = 145226 ∧ budget 250 = 369101 ∧ budget 500 = 742226 ∧ budget 1000 = 1488476 := by decide +kernel

/-- R48: an edge 7.3 µs late lengthens the row by 2 µs and slews; one 1.3 µs late is corrected whole and locks. -/
theorem test_edge_slews :
    (after (follow 1 0) (.rowsyncEdge 7300)).row.corr = 2000 ∧ (after (follow 1 0) (.rowsyncEdge 7300)).syncState = 2 ∧
    (after (follow 2 0) (.rowsyncEdge 1300)).row.corr = 1300 ∧ (after (follow 2 0) (.rowsyncEdge 1300)).syncState = 1 := by decide +kernel

/-- R55: the row number advances by one and the row's windows start again. -/
theorem test_row_boundary : (after live .rowBoundary).row.number = 11 ∧ (after live .rowBoundary).row.windows = 0 := by decide +kernel

/-- R49: a plan miss is counted once, though the deadline is followed by a late plan. -/
theorem test_plan_miss_once :
    (after { live with dev := after live (.planDeadline [2]) } (.planCommit true [2])).rg (pf 1 0x068) = 1 := by decide +kernel

/-- R73: a search core given to a tenant whose page is not enabled fails check 7 with EN_DEP_OWNER. -/
theorem test_enable_refused :
    let deps := [1, 17, 18, 19].map fun p => (pf p 8, 1)
    let s := liveWith fun d => withRegs d deps
    let t := { s with dev := after s (.enableRequest 0 0x19A 0x501#32) }
    bit (t.dev.rg (pf 0x19A 8)) 0 = false ∧ (t.dev.page 0x19A).checking = true ∧
      (after t (.enableCheckDone 0 0x19A)).rg (pf 0x19A 0x010) = 0x0304 ∧ ((after t (.enableCheckDone 0 0x19A)).page 0x19A).refused = true := by
  decide +kernel

/-- R112: the entry of the worked search. -/
def search112 : Entry := ⟨⟨5, 3⟩, 0x2A07, false, false, 0x01050012, 0x408A312C00, 0x600, 0x640, 0x408A313400, []⟩

theorem test_search_entry :
    sqeOf search112 0x11 (searchDw ⟨100, 2, 8, 0, 0x06050003, 1, 768⟩) =
      [0x2A070011, 0x01050012, 0x8A312C00, 0x40, 0x600, 0x640, 0x8A313400, 0x40, 0x64, 0, 0x00020800, 0x06050003, 0x00010300, 0, 0, 0] := by
  decide +kernel

/-- R112: its completion, and its doorbell at VF BAR0 offset 0x0004_1018. -/
theorem test_search_completion :
    ((⟨0x2A07, 0, 0, 1, 0, 0x1F42, 94, 120340, 0, 8, 0, 7⟩ : Cqe).words 18 true) =
      [0x00122A07, 0x00010001, 0x00001F42, 0x5E, 0x0001D614, 8, 0, 7] ∧ doorbellKey ⟨5, 3⟩ false = regKey 5 0x00041018 := by decide +kernel

/-- R99: a tail of 16 on a ring of 16 is ignored and sets DB_ERR; 15 is taken. -/
theorem test_doorbell :
    bit ((after (queued3 Qp.fresh) (.sqDoorbell q3 16)).rg (queueStat q3)) 2 = true ∧
    ((after (queued3 Qp.fresh) (.sqDoorbell q3 15)).qp q3).tailNew = some 15 := by decide +kernel

/-- R103: an opcode that no table lists is refused with CMD_BAD_OPCODE in a completion of status REFUSED. -/
theorem test_unknown_opcode :
    (after (adminHas (live.dev.cmdFor (e0, 0x77, []))) .commandDecision).sent =
      [.cqe ⟨0, 0⟩ 0 [0x00010009, 0x00090010, 0x07020000, 0, 0, 0, 0, 0]] := by decide +kernel

/-- R106: a load of no bytes completes without a strand; one of four bytes makes a strand. -/
theorem test_load_shared :
    (after adminReady (.objectLoadShared (loadEntry 0) 0)).strands = [] ∧
    ((after adminReady (.objectLoadShared (loadEntry 4) 0)).strands.map fun x => (x.1, x.2.state)) = [(0, 1)] := by decide +kernel

/-- R135, R161, R162: a pin of 2.000 s is not yet too old; one row later the strand ends. -/
theorem test_pin_age :
    let s (ns : Nat) : State := { oldPin with dev := { (withAct oldPin.dev [(pf 2 0x200, 2000)]) with row := { oldPin.dev.row with timeNs := ns } } }
    (nget (after (s 2000000000) (.pinAgeExpiry 1)).strands 1).map (·.state) = some 2 ∧
    (nget (after (s 2000250000) (.pinAgeExpiry 1)).strands 1).map (·.state) = some 3 := by decide +kernel

/-- R199: two symbols in error are corrected, three are not. -/
theorem test_line_code :
    lineOutcome [(3, 0x8000), (7, 1)] = .corrected ∧ lineOutcome [(3, 0x8000), (7, 1), (9, 2)] = .uncorrectable := by decide +kernel

/-- R227: 5,461 entries of 768 bytes pass a search core in a row. -/
theorem test_scan_rate : scanPerRow ⟨0, 0, 1, 0, 768, 4, 8, 32, 0, 0⟩ = 5461 := by decide +kernel

/-- R252, R256: the worked fallback selection is one stitch at 250 µs and two at 100 µs. -/
theorem test_select_split :
    selectStitches 369101 65537 262144 262144 = 1 ∧ selectStitches 145226 65537 262144 262144 = 2 := by decide +kernel

/-- R287: the worked HB4 block, and the exact products with 2.5 and 1.25. -/
theorem test_hb4 :
    r32 (blockVal true 0x7D 0x5) = r32 (.fin false 3 (-2)) ∧ r32 (blockVal true 0x7D 0xE) = r32 (.fin true 1 0) ∧
    prod32 (blockVal true 0x7D 0x5) (.fin false 5 (-1)) = r32 (.fin false 15 (-3)) := by decide +kernel

/-- R297: the tree of R296 gives 1.5; the same sum split in two parts gives +0. -/
theorem test_tree_sum :
    treeSum [0x4B800000, 0x3F800000, 0x3F800000, 0xCB800000, 0x3F000000] = 0x3FC00000 ∧
    chainSum [treeSum [0x4B800000, 0x3F800000, 0x3F800000], treeSum [0xCB800000, 0x3F000000]] = 0 := by decide +kernel

/-- R306: 1.0048828125 to BF16: nearest-even, toward zero, and stochastic with the two draws given. -/
theorem test_rounding :
    bf16.encode .nearest false (v32 0x3F80A000) = 0x3F81 ∧ bf16.encode .zero false (v32 0x3F80A000) = 0x3F80 ∧
    bf16.encode (.stoch 0x3A00) false (v32 0x3F80A000) = 0x3F80 ∧ bf16.encode (.stoch 0x7100) false (v32 0x3F80A000) = 0x3F81 := by
  decide +kernel

/-- R377: the worked prompt packs four passages of the six. -/
theorem test_packing :
    ((choosePassages 1716 32 5 true ([402, 611, 377, 286, 515, 190].map fun n => ⟨0, 0, n, [], [], [], false⟩)).map (·.2))
      = [402, 611, 377, 286] := by decide +kernel

/-- R385: the first newline is held as a prefix of the stop string that the next completes. -/
theorem test_stop_string :
    heldBack [[0x0A#8, 0x0A#8], [0x51#8, 0x75#8]] [0x2E#8, 0x0A#8] = 1 ∧
    scanStop [[0x0A#8, 0x0A#8], [0x51#8, 0x75#8]] [0x2E#8, 0x0A#8] [0x0A#8, 0x51#8, 0x75#8] = some (0, 2, [0x2E#8, 0x0A#8, 0x0A#8]) := by
  decide +kernel

/-- R415: an ADD wraps modulo 2^32; R416: another strand's signal changes nothing. -/
theorem test_marker_signal :
    ((after marked (.markerSignal 4095 true 1 1 0 1 false)).marker 4095).value = 0 ∧
    (after marked (.markerSignal 4095 true 1 1 0 2 false)).marker 4095 = marked.dev.marker 4095 := by decide +kernel

/-- R482: the worked error of S-core page 0x131 in row 700,210. -/
theorem test_error_report :
    let s := liveWith fun d => { d with row := { d.row with number := 700210 } }
    (after s (.errorReport 0x131 3 1 0x1001570000000000 0)).rg (pf 0x131 0x028) = 0x0301AF32 := by decide +kernel

/-- R470, R482: its probe fails in the next row. -/
theorem test_probe_end :
    let s := probed { probe1 with page := 0x131, running := true }
    bits ((after { s with dev := { s.dev with row := { s.dev.row with number := 700211 } } } (.probeEnd 0x131 false)).rg (pf 0x131 0x034)) 31 30 = 2 ∧
    bits ((after { s with dev := { s.dev with row := { s.dev.row with number := 700211 } } } (.probeEnd 0x131 false)).rg (pf 0x131 0x034)) 15 0
      = 0xAF33 := by decide +kernel

/-- R494: 19 µs of both feeds below 42 V declare no sag. -/
theorem test_sag : (after (powered fun w => { w with bothLowUs := 19 }) .sagDeclare).power.sag = false := by decide +kernel

/-- R484: a PF FLR is a COLD of cause 2. -/
theorem test_pf_flr : (after live .pfFlr).rg (pf 8 0x124) = 0x20000002 ∧ (after live .pfFlr).row.running = false := by decide +kernel

/-- R552: in eighths of a degree, a junction warns at 100 °C and trips at 110 °C, an HBM stack at 95 °C and 105 °C. -/
theorem test_thresholds : warnAt 0 = 800 ∧ tripAt 0 = some 880 ∧ warnAt 4 = 760 ∧ tripAt 4 = some 840 := by decide

/-- R554, R555: GET_DIGESTS before the algorithms are agreed is answered with an error; SEC_LOCK bits do not clear (R556). -/
theorem test_management :
    (after live .getDigests).rg (pf 9 0x044) = 1 ∧ (after live .negotiateAlgorithms).mgmt.negotiated = true ∧
    (after { live with dev := after live (.secLockWrite 0x21#32) } (.secLockWrite 0#32)).rg (pf 9 0x104) = 0x21 := by decide +kernel

/-- R432: four to seven lanes train at width 4, fewer give no link. -/
theorem test_link_training :
    bits ((after live (.linkTrainingDone 1 7 30 1 false 0)).rg (pf 0xA1 0x104)) 11 8 = 4 ∧
    (after (linked 1 2 8) (.linkTrainingDone 1 3 30 1 false 0)).linkState 1 = 0 := by decide +kernel

/-- R507: no training ends while the link firmware is rewritten. -/
theorem witness_training :
    live.dev.partStopped 5 = false ∧ 4 ≤ 7 ∧ 3 < 4 ∧
    (liveWith fun d => { d.put (pf 1 0x124) 5 with fw := { Fw.reset with state := 2, waiting := [5] } }).dev.partStopped 5 = true := by
  decide +kernel

/-- R515: a HEADER whose manifest is bad is refused and the state stays IDLE; BODY in IDLE is refused as well. -/
theorem test_firmware :
    (after (fwState Fw.reset []) (.fwHeader (zeros 4))).fw.state = 0 ∧ (after (fwState Fw.reset []) (.fwBody (zeros 4) 0)).rg (pf 0xB 0x104) = 0x0A01 := by
  decide +kernel

/-- R86: an access to a function that the module does not have. -/
theorem test_no_function : exec (.registerWrite 18 0 0#32) live = .fault .noSuchFunction := rfl

end Sys2Proof.Tests
end

namespace Sys2Proof.Machine

/-- The reset status of a unit of a type with spares: the first `a` instances are active, the rest are spares (R62). -/
theorem pageReset_of_sparing {p type inst spares a : Nat} (hp : pageInfo p = some (type, inst)) (hs : sparing type = some (spares, a)) :
    ((pageReset p).spare = true ↔ a ≤ inst) ∧ (inst < a → (pageReset p).active = inst) := by
  by_cases h : inst < a
  · simp [pageReset, hp, hs, h]
  · simp [pageReset, hp, hs, h, Nat.le_of_not_lt h]

/-- No page runs at its reset status (R57). -/
theorem pageReset_running (p : Nat) : (pageReset p).running = false := by
  unfold pageReset
  dsimp only
  split
  · rfl
  · split
    · split <;> rfl
    · rfl

end Sys2Proof.Machine

namespace Sys2Proof.Proofs.Scope
open Sys2Proof.Machine

/-- Settles O4: nothing is stored at reset, so every register, page, queue, object and marker reads as its default. -/
theorem resetLeaves : Obligations.ResetLeaves := by
  unfold Obligations.ResetLeaves
  refine ⟨fun _ => ⟨rfl, rfl⟩, rfl, rfl, rfl, pageReset_running, ?_, fun _ => rfl, fun _ => rfl, fun _ => rfl, rfl, rfl, rfl, rfl⟩
  intro p type inst spares a hp hs
  exact pageReset_of_sparing hp hs
end Sys2Proof.Proofs.Scope

namespace Sys2Proof.Machine

/-- A function that exists answers (R84, R86). -/
theorem onFn_of_lt {fn : Nat} (h : fn < 18) (s : State) (d : Dev) : onFn fn s d = .next { s with dev := d } := if_pos h

@[simp] theorem Dev.rg_passFree (d : Dev) (k : Nat) : d.passFree.rg k = d.rg k := rfl

/-- The fields that a read can change (R6, R8, R9). -/
theorem Dev.readEffect_frame (d : Dev) (m : Perm) (k : Nat) :
    d.readEffect m k = { d with regs := (d.readEffect m k).regs, hold := (d.readEffect m k).hold, free := d.free + 1 } := by
  unfold Dev.readEffect
  dsimp only
  split <;> split <;> split <;> rfl

/-- A read clears an RC counter and leaves every other register (R6). -/
theorem Dev.rg_readEffect (d : Dev) (m : Perm) (k j : Nat) : (d.readEffect m k).rg j = if isRc k = true ∧ j = k then 0 else d.rg j := by
  have keep (c : Prop) [Decidable c] (e : Dev) (h : NMap Word) : (if c then { e with hold := h } else e).rg j = e.rg j := by
    split <;> rfl
  unfold Dev.readEffect
  dsimp only
  split
  · rename_i hr
    rw [Dev.rg_passFree, Dev.rg_put, keep, keep]
    simp [hr]
  · rename_i hr
    rw [Dev.rg_passFree, keep, keep]
    simp [hr]

/-- The copies of pairs that a read leaves: a _LO latches its _HI, a _HI gives up its copy (R9). -/
theorem Dev.hold_readEffect (d : Dev) (m : Perm) (k : Nat) :
    (d.readEffect m k).hold =
      (let h := if pairLo k = true then nset d.hold (k + 4) (wd (d.regRead m (k + 4))) else d.hold
       if pairLo (k - 4) = true then nerase h k else h) := by
  unfold Dev.readEffect
  dsimp only
  split <;> split <;> split <;> rfl

theorem Dev.nget_hold_readEffect (d : Dev) (m : Perm) (k j : Nat) :
    nget (d.readEffect m k).hold j =
      if pairLo (k - 4) = true ∧ j = k then none
      else if pairLo k = true ∧ j = k + 4 then some (wd (d.regRead m (k + 4))) else nget d.hold j := by
  rw [Dev.hold_readEffect]
  dsimp only
  have lo : nget (if pairLo k = true then nset d.hold (k + 4) (wd (d.regRead m (k + 4))) else d.hold) j =
      if pairLo k = true ∧ j = k + 4 then some (wd (d.regRead m (k + 4))) else nget d.hold j := by
    by_cases hk : pairLo k = true <;> by_cases hj : j = k + 4 <;> simp [hk, hj, nget_nset_ne]
  by_cases hk : pairLo (k - 4) = true
  · by_cases hj : j = k
    · subst hj; simp [hk]
    · simp [hk, hj, nget_nerase_ne, lo]
  · simp [hk, lo]

/-- A _HI with a pending copy answers the copy (R9). -/
theorem Dev.readValue_of_copy {d : Dev} {k : Nat} {v : Word} (m : Perm) (hk : pairLo (k - 4) = true) (hv : nget d.hold k = some v) :
    d.readValue m k = v := by
  simp [Dev.readValue, hk, hv]

/-- A register that is no _HI answers its value (R6). -/
theorem Dev.readValue_of_value {k : Nat} (d : Dev) (m : Perm) (hk : pairLo (k - 4) = false) (hr : (regDesc k).isSome = true) :
    d.readValue m k = wd (d.regRead m k) := by
  obtain ⟨r, hr⟩ := Option.isSome_iff_exists.mp hr
  simp [Dev.readValue, hk, hr]

theorem Dev.read_of_up {d : Dev} (m : Perm) (fn off : Nat) (h : d.up = true) :
    d.read m fn off = (d.readEffect m (busKey fn off)).emit (.value fn off (d.readValue m (busKey fn off))) := by
  simp [Dev.read, h]

/-- Nothing answers while the module is off, in reset or halted (R66, R495, R537). -/
theorem Dev.read_of_down {d : Dev} (m : Perm) (fn off : Nat) (h : d.up = false) : d.read m fn off = d := by
  simp [Dev.read, h]

/-- The three reads have one meaning. -/
theorem exec_reads {fn : Nat} (hf : fn < 18) (off : Nat) (s : State) {t : Dev} (h : s.dev.read s.perm fn off = t) :
    exec (.rcRead fn off) s = .next { s with dev := t } ∧ exec (.pairLoRead fn off) s = .next { s with dev := t } ∧
      exec (.pairHiRead fn off) s = .next { s with dev := t } := by
  subst h
  exact ⟨onFn_of_lt hf s _, onFn_of_lt hf s _, onFn_of_lt hf s _⟩

end Sys2Proof.Machine

namespace Sys2Proof.Proofs.Scope
open Sys2Proof.Machine

/-- Settles O41, from what a read does to the registers and to the pending copies of pairs. -/
theorem readsAnswer : Obligations.ReadsAnswer := by
  unfold Obligations.ReadsAnswer
  refine ⟨?_, fun fn off s hf hd => exec_reads hf off s (Dev.read_of_down _ _ _ hd)⟩
  rintro fn off k s hf rfl hup
  obtain ⟨h1, h2, h3⟩ := exec_reads hf off s (Dev.read_of_up s.perm fn off hup)
  refine ⟨_, h1, h2, h3, ?_, ?_, ?_, ?_, ?_, s.dev.readValue_of_value s.perm, ?_⟩
  · exact (congrArg (fun e : Dev => e.emit _) (s.dev.readEffect_frame s.perm (busKey fn off))).trans rfl
  · intro hr
    simp [Dev.rg_readEffect, hr]
  · intro j hj
    rw [Dev.rg_emit, Dev.rg_readEffect, if_neg]
    rintro ⟨hr, rfl⟩
    simp [hr] at hj
  · intro hk
    simp [Dev.nget_hold_readEffect, hk]
  · intro hk
    exact ⟨by simp [Dev.nget_hold_readEffect, hk], fun v => Dev.readValue_of_copy s.perm hk⟩
  · intro j hj hj4
    simp [Dev.nget_hold_readEffect, hj, hj4]
end Sys2Proof.Proofs.Scope

namespace Sys2Proof.Machine

/-! Bits -/

theorem bit_eq_testBit (w i : Nat) : bit w i = w.testBit i := by
  rw [Nat.testBit_eq_decide_div_mod_eq, bit, Nat.shiftRight_eq_div_pow]
  rfl

/-- The bits of a register that a write under a mask stores (R10). -/
theorem bit_stored {m : Nat} (old v : Nat) (hm : m < 2 ^ 32) {i : Nat} (hi : i < 32) :
    bit (Nat.lor (Nat.land old (2 ^ 32 - 1 - m)) (Nat.land v m) % 2 ^ 32) i = if bit m i then bit v i else bit old i := by
  change bit ((old &&& (2 ^ 32 - 1 - m) ||| v &&& m) % 2 ^ 32) i = _
  have hc : 2 ^ 32 - 1 - m = 2 ^ 32 - (m + 1) := by omega
  simp only [bit_eq_testBit, Nat.testBit_mod_two_pow, hi, decide_true, Bool.true_and, Nat.testBit_or, Nat.testBit_and, hc,
    Nat.testBit_two_pow_sub_succ hm]
  cases m.testBit i <;> simp

/-- The bits of a register that a write of ones under a mask clears (R6). -/
theorem bit_cleared (old : Nat) {m : Nat} (hm : m < 2 ^ 32) {i : Nat} (hi : i < 32) :
    bit (Nat.land old (2 ^ 32 - 1 - m) % 2 ^ 32) i = (bit old i && !bit m i) := by
  change bit ((old &&& (2 ^ 32 - 1 - m)) % 2 ^ 32) i = _
  have hc : 2 ^ 32 - 1 - m = 2 ^ 32 - (m + 1) := by omega
  simp only [bit_eq_testBit, Nat.testBit_mod_two_pow, hi, decide_true, Bool.true_and, Nat.testBit_and, hc,
    Nat.testBit_two_pow_sub_succ hm]

/-! The register tables -/

/-- The register tables of the blocks (R59). -/
def registerTables : List (List RegDesc) :=
  [deviceRegs, rowTimerRegs, controlGroupRegs, epochsRegs, indexJobsRegs, samplingRegs, admissionRegs, faultLogRegs, powerRegs, securityRegs,
   managementRegs, firmwareRegs, endpointRegs, cascadeRegs, needleBedRegs, embeddingRegs, tierRegs, modelServingRegs, tenantRegs, markersRegs,
   markerViewRegs, strandWindowRegs, modelDescRegs, hbmRegs, tuivyRegs, d2dRegs, zorberRegs, sCoreRegs, bCoreRegs, searchCoreRegs,
   textEngineRegs, selectMergeRegs, tenantViewRegs, queuePairRegs, doorbellsRegs]

/-- The registers of a page are those of the tables. -/
theorem mem_registerTables {type inst : Nat} {r : RegDesc} (h : r ∈ blockRegs type inst) : ∃ l ∈ registerTables, r ∈ l := by
  unfold blockRegs at h
  split at h
  case h_3 =>
    rcases List.mem_append.mp h with h | h
    · exact ⟨_, by simp [registerTables], h⟩
    · split at h
      · exact ⟨_, by simp [registerTables], h⟩
      · split at h
        · exact ⟨_, by simp [registerTables], h⟩
        · split at h
          · exact ⟨_, by simp [registerTables], h⟩
          · cases h
  case h_33 => cases h
  all_goals exact ⟨_, by simp [registerTables], h⟩

theorem mem_of_findDesc {off : Nat} {l : List RegDesc} {r : RegDesc} (h : findDesc off l = some r) : r ∈ l := by
  induction l with
  | nil => cases h
  | cons d l ih =>
    unfold findDesc at h
    split at h
    · cases h; exact List.mem_cons_self
    · exact List.mem_cons_of_mem _ (ih h)

/-- A register of the bus lies in a page of the maps; outside the MSI-X tables its page's tables describe it. -/
theorem regDesc_eq_some {k : Nat} {r : RegDesc} (h : regDesc k = some r) :
    ∃ type inst, pageInfo (keyPage k) = some (type, inst) ∧
      (type = 0xF2 ∧ r = msixDesc (k % 4096) ∨ type ≠ 0xF2 ∧ pageDesc type inst (k % 4096) = some r) := by
  unfold regDesc at h
  split at h
  · cases h
  · rename_i type inst hp
    refine ⟨type, inst, hp, ?_⟩
    dsimp only at h
    split at h
    · rename_i ht
      refine .inl ⟨ht, ?_⟩
      split at h <;> split at h <;> cases h <;> rfl
    · rename_i ht
      exact .inr ⟨ht, h⟩

/-- A fact about every entry of the tables and of the header holds of the register that a page describes. -/
theorem pageDesc_of_tables {P : RegDesc → Prop} (hh : ∀ r ∈ headerRegs, P r) (ht : ∀ l ∈ registerTables, ∀ r ∈ l, P r) {type inst off : Nat}
    {r : RegDesc} (h : pageDesc type inst off = some r) : P r := by
  unfold pageDesc at h
  split at h
  · exact hh r (mem_of_findDesc h)
  · obtain ⟨l, hl, hr⟩ := mem_registerTables (mem_of_findDesc h)
    exact ht l hl r hr

/-- The writable bits of a register lie within its word (R3). -/
theorem wmask_lt {k : Nat} {r : RegDesc} (h : regDesc k = some r) : r.wmask < 2 ^ 32 := by
  obtain ⟨type, inst, -, ⟨-, rfl⟩ | ⟨-, h⟩⟩ := regDesc_eq_some h
  · exact Nat.lt_of_le_of_lt (Nat.le_of_eq rfl) (by decide : 0xFFFFFFFF < 2 ^ 32)
  · exact pageDesc_of_tables (P := fun r => r.wmask < 2 ^ 32) (by decide) (by decide) h

/-! Commands -/

/-- Block type and offset of the registers whose write commands the block and is not only stored. -/
def commandRegs : List (Nat × Nat) :=
  [(0x01, 0x100), (0x02, 0x110), (0x03, 0x228), (0x05, 0x104), (0x05, 0x10C), (0x05, 0x138), (0x06, 0x13C), (0x07, 0x104), (0x0A, 0x11C),
   (0x0A, 0x120), (0x0A, 0x124), (0x0B, 0x140), (0x11, 0x100), (0x11, 0x118), (0x12, 0x100), (0x12, 0x104)]

/-- A write to any other register commands nothing. -/
theorem Dev.special_eq_none (d : Dev) (p : Nat) {type off : Nat} (inst v : Nat) (r : RegDesc)
    (h : (type, off) ∈ commandRegs → type = 0x03 ∧ inst ≠ 2) : d.special p type inst off v r = none := by
  unfold Dev.special
  extract_lets k go
  split
  case h_17 => rfl
  case h_3 =>
    exact if_neg (h (by decide)).2
  all_goals
    exact absurd (h (by decide)).1 (by decide)

/-- A command register that is read, cleared by reading or configuration-class: none, but for MV_VALUE and the registers that share
IX_CMD's offset on the pages of other control groups. -/
theorem commandRegs_acc {type inst off : Nat} {r : RegDesc} (h : pageDesc type inst off = some r) (hm : (type, off) ∈ commandRegs)
    (hi : ¬(type = 0x03 ∧ inst ≠ 2)) : r.acc ≠ .rc ∧ (r.acc = .ro → type = 0x12) ∧ (r.acc = .rw → r.shadow = false) := by
  simp only [commandRegs, List.mem_cons, Prod.mk.injEq, List.not_mem_nil, or_false] at hm
  rcases hm with ⟨rfl, rfl⟩ | ⟨rfl, rfl⟩ | ⟨rfl, rfl⟩ | ⟨rfl, rfl⟩ | ⟨rfl, rfl⟩ | ⟨rfl, rfl⟩ | ⟨rfl, rfl⟩ | ⟨rfl, rfl⟩ | ⟨rfl, rfl⟩ |
    ⟨rfl, rfl⟩ | ⟨rfl, rfl⟩ | ⟨rfl, rfl⟩ | ⟨rfl, rfl⟩ | ⟨rfl, rfl⟩ | ⟨rfl, rfl⟩ | ⟨rfl, rfl⟩
  case inr.inr.inl =>
    obtain rfl : inst = 2 := Decidable.byContradiction fun hne => hi ⟨rfl, hne⟩
    cases h; decide
  all_goals cases h; decide

end Sys2Proof.Machine

namespace Sys2Proof.Machine
/-! Writes -/

/-- The fate of a write by access: a read-only register and an RC counter store nothing (R6). -/
theorem Dev.store_of_readOnly (d : Dev) (k v : Nat) {r : RegDesc} (h : r.acc = .rc ∨ r.acc = .ro) : d.store k v r = d := by
  unfold Dev.store
  rcases h with h | h <;> rw [h]

/-- A register write stores the bits of the mask and keeps the others; a configuration-class one makes its page dirty (R10, R65). -/
theorem Dev.store_of_rw (d : Dev) (k v : Nat) {r : RegDesc} (h : r.acc = .rw) :
    d.store k v r =
      (let n := d.put k (Nat.lor (Nat.land (d.rg k) (2 ^ 32 - 1 - r.wmask)) (Nat.land v r.wmask))
       if r.shadow then n.dirty (keyPage k) else n) := by
  unfold Dev.store; rw [h]

theorem keyPage_mul_add (k : Nat) : keyPage k * 4096 + k % 4096 = k := Nat.div_add_mod' k 4096

/-- A write outside the headers, the doorbells and the MSI-X tables (R66). -/
theorem Dev.write_block (d : Dev) {k type inst : Nat} (v : Nat) {r : RegDesc} (hr : regDesc k = some r)
    (hp : pageInfo (keyPage k) = some (type, inst)) (hh : ¬(hasHeader type = true ∧ k % 4096 < 0x40)) (h1 : type ≠ 0xF1) (h2 : type ≠ 0xF2) :
    d.write k v = if d.ignored (keyPage k) type inst (k % 4096) then d
      else (d.special (keyPage k) type inst (k % 4096) v r).getD (d.store k v r) := by
  have hh' : (hasHeader type && decide (k % 4096 < 0x40)) = false := by
    rw [← Bool.not_eq_true, Bool.and_eq_true, decide_eq_true_eq]; exact hh
  unfold Dev.write
  rw [hr, hp]
  simp only [hh', Bool.false_eq_true, if_false, Dev.blockWrite, h1, h2, keyPage_mul_add]

/-- A write to a header. -/
theorem Dev.write_header (d : Dev) {k type inst : Nat} (v : Nat) {r : RegDesc} (hr : regDesc k = some r)
    (hp : pageInfo (keyPage k) = some (type, inst)) (hh : hasHeader type = true) (ho : k % 4096 < 0x40) :
    d.write k v = d.headerWrite (keyPage k) (k % 4096) v r := by
  unfold Dev.write
  rw [hr, hp]
  simp [hh, ho]

/-- The header registers with an effect of their own are written. -/
theorem Dev.headerWrite_of_readOnly (d : Dev) (p v : Nat) {off : Nat} {r : RegDesc} (hr : findDesc off headerRegs = some r)
    (ha : r.acc = .rc ∨ r.acc = .ro) : d.headerWrite p off v r = d := by
  unfold Dev.headerWrite
  extract_lets k
  split
  case h_5 => exact d.store_of_readOnly _ _ ha
  all_goals
    cases hr
    exact absurd ha (by decide)

/-- Writes to a RC counter, and to a read-only register outside the view pages, change nothing (R6, R58). -/
theorem Dev.write_of_readOnly (d : Dev) {k : Nat} (v : Nat) {r : RegDesc} (hr : regDesc k = some r)
    (ha : r.acc = .rc ∨ r.acc = .ro ∧ typeOf (keyPage k) ≠ 0x12) : d.write k v = d := by
  have ha' : r.acc = .rc ∨ r.acc = .ro := ha.imp_right And.left
  obtain ⟨type, inst, hp, ⟨-, rfl⟩ | ⟨h2, hd⟩⟩ := regDesc_eq_some hr
  · exact absurd ha' (by simp [msixDesc])
  · by_cases hh : hasHeader type = true ∧ k % 4096 < 0x40
    · rw [d.write_header v hr hp hh.1 hh.2]
      simp only [pageDesc, hh.1, hh.2, decide_true, Bool.and_self, if_true] at hd
      exact d.headerWrite_of_readOnly _ _ hd ha'
    · have h1 : type ≠ 0xF1 := by
        rintro rfl
        have acc : ∀ r ∈ doorbellsRegs, r.acc = .rw := by decide
        have := acc r (mem_of_findDesc hd)
        simp [this] at ha'
      rw [d.write_block v hr hp hh h1 h2, d.special_eq_none, Option.getD_none, d.store_of_readOnly _ _ ha', ite_self]
      refine fun hm => Decidable.byContradiction fun hi => ?_
      obtain ⟨nrc, ro12, -⟩ := commandRegs_acc hd hm hi
      rcases ha with ha | ha
      · exact nrc ha
      · exact ha.2 (by simp [typeOf, hp, ro12 ha.1])

/-- A write to a stored register of the PF that commands nothing and that its page's state does not ignore (R10). -/
theorem Dev.write_stored (d : Dev) {k type inst : Nat} (v : Nat) {r : RegDesc} (hr : regDesc k = some r)
    (hp : pageInfo (keyPage k) = some (type, inst)) (ht : type < 0x30) (ho : 0x40 ≤ k % 4096)
    (hi : d.ignored (keyPage k) type inst (k % 4096) = false) (hc : (type, k % 4096) ∈ commandRegs → type = 0x03 ∧ inst ≠ 2) :
    d.write k v = d.store k v r := by
  rw [d.write_block v hr hp (by omega) (by omega) (by omega), hi, if_neg (by decide), d.special_eq_none _ _ _ _ hc, Option.getD_none]

/-- A register write on a module that is up, PW_CTRL aside, reaches the device alone (R66). -/
theorem exec_registerWrite {fn off : Nat} (hf : fn < 18) (v : Word) {s : State} (hup : s.dev.up = true) (hk : busKey fn off ≠ pf 8 0x104) :
    exec (.registerWrite fn off v) s = .next { s with dev := s.dev.write (busKey fn off) v.toNat } := by
  show execRegisterWrite fn off v s = _
  have hf' : fn < fnCount := hf
  simp [execRegisterWrite, busWrite, hf', hup, hk]

/-- A register of the PF has its offset as its key. -/
theorem busKey_zero_of_lt {off : Nat} (h : off < 2 ^ 24) : busKey 0 off = off := by
  rw [busKey, if_pos h, regKey, Nat.zero_mul, Nat.zero_add]

theorem exec_selectionWrite {slot off : Nat} (hs : slot < 4096) (ho : off < 4096) (v : Word) {s : State} (hup : s.dev.up = true)
    (hk : pf slot off ≠ pf 8 0x104) :
    exec (.selectionWrite slot off v) s = .next { s with dev := s.dev.write (pf slot off) v.toNat } := by
  have e : busKey 0 (slot % 4096 * 4096 + off % 4096) = pf slot off := by
    rw [Nat.mod_eq_of_lt hs, Nat.mod_eq_of_lt ho]; exact busKey_zero_of_lt (by omega)
  show execSelectionWrite slot off v s = _
  simp [execSelectionWrite, busWrite, hup, e, hk]

/-- A key of the PF lies in a page of the PF's map. -/
theorem busKey_zero_lt (off : Nat) : busKey 0 off < 2 ^ 24 := by
  unfold busKey regKey
  split <;> omega

/-- The blocks of the PF's map. -/
theorem pageMap_types : ∀ x ∈ pageMap, x.2.2.1 < 0x30 := by decide

theorem mem_of_findSlot {s type inst : Nat} {l : List (Nat × Nat × Nat × Nat)} (h : findSlot s l = some (type, inst)) :
    ∃ x ∈ l, x.1 ≤ s ∧ s < x.1 + x.2.1 ∧ type = x.2.2.1 ∧ inst = x.2.2.2 + (s - x.1) := by
  induction l with
  | nil => cases h
  | cons x l ih =>
    obtain ⟨lo, n, t, i⟩ := x
    unfold findSlot at h
    split at h
    · rename_i hs
      simp only [Bool.and_eq_true, decide_eq_true_eq] at hs
      cases h
      exact ⟨_, List.mem_cons_self, hs.1, hs.2, rfl, rfl⟩
    · obtain ⟨x, hx, h⟩ := ih h
      exact ⟨x, List.mem_cons_of_mem _ hx, h⟩

theorem pageInfo_of_pf {p : Nat} (h : p < 4096) : pageInfo p = pfSlot p := by
  unfold pageInfo
  rw [Nat.div_eq_of_lt h, Nat.mod_eq_of_lt h]
  rfl

theorem type_lt_of_pf {p type inst : Nat} (hp : p < 4096) (h : pageInfo p = some (type, inst)) : type < 0x30 := by
  rw [pageInfo_of_pf hp] at h
  obtain ⟨x, hx, -, -, rfl, -⟩ := mem_of_findSlot h
  exact pageMap_types x hx

/-- The first tier page is T0's. -/
theorem tier0_slot {p : Nat} (hp : p < 4096) (h : pageInfo p = some (0x0E, 0)) : p = 0x10 := by
  rw [pageInfo_of_pf hp] at h
  obtain ⟨x, hx, hlo, hhi, ht, hi⟩ := mem_of_findSlot h
  have tier : ∀ x ∈ pageMap, x.2.2.1 = 0x0E → x.1 = 0x10 := by decide
  have := tier x hx ht.symm
  omega

end Sys2Proof.Machine

namespace Sys2Proof.Machine

/-- The bits that a stored write takes and keeps (R10). -/
theorem Dev.bit_store (d : Dev) {k : Nat} (v : Nat) {r : RegDesc} (hr : regDesc k = some r) (ha : r.acc = .rw) {i : Nat} (hi : i < 32) :
    bit ((d.store k v r).rg k) i = if bit r.wmask i then bit v i else bit (d.rg k) i := by
  have e : (d.store k v r).rg k = Nat.lor (Nat.land (d.rg k) (2 ^ 32 - 1 - r.wmask)) (Nat.land v r.wmask) % 2 ^ 32 := by
    rw [d.store_of_rw k v ha]
    dsimp only [Dev.dirty]
    split
    · split
      · rw [Dev.rg_modPage, Dev.rg_put_same]
      · rw [Dev.rg_put_same]
    · rw [Dev.rg_put_same]
  rw [e, bit_stored _ _ (wmask_lt hr) hi]

theorem Dev.store_regs (d : Dev) (k v : Nat) (r : RegDesc) : RegsBut [k] d (d.store k v r) := by
  unfold Dev.store Dev.dirty
  dsimp only
  split
  · split
    · split
      · exact (d.put_regs _ (by simp)).trans (.of_regs rfl)
      · exact d.put_regs _ (by simp)
    · exact d.put_regs _ (by simp)
  · exact d.put_regs _ (by simp)
  all_goals exact .refl _ d

/-- Clearing flags of PG_ERR_STAT: the flags and the pages whose first error is held (R462, R463). -/
theorem Dev.clearFlags_rg (d : Dev) (p v : Nat) :
    (d.clearFlags p v).rg (pf p 0x020) = Nat.land (d.rg (pf p 0x020)) (2 ^ 32 - 1 - Nat.land v 0xFFF) % 2 ^ 32 := by
  have hk : pf p 0x020 ∉ alertRegs := by
    simp only [alertRegs, pf, List.mem_cons, List.not_mem_nil, or_false]
    omega
  unfold Dev.clearFlags
  dsimp only
  rw [Dev.alert_rg _ hk]
  split <;> exact Dev.rg_put_same _ _ _

theorem Dev.alert_firsts (d : Dev) : d.alert.firsts = d.firsts := by
  unfold Dev.alert
  dsimp only
  split
  · rfl
  · rw [Dev.emit_firsts, Dev.bump_firsts, Dev.put_firsts]

theorem Dev.clearFlags_firsts (d : Dev) (p v : Nat) :
    (d.clearFlags p v).firsts = if (d.clearFlags p v).rg (pf p 0x020) = 0 then d.firsts.filter (· != p) else d.firsts := by
  rw [Dev.clearFlags_rg]
  unfold Dev.clearFlags
  dsimp only
  rw [Dev.alert_firsts, Dev.rg_put_same]
  change (if Nat.land (d.rg (pf p 0x020)) (2 ^ 32 - 1 - Nat.land v 0xFFF) % 2 ^ 32 = 0 then _ else _ : Dev).firsts = _
  split <;> rfl

theorem Dev.clearFlags_on (d : Dev) (p v : Nat) : SigOn (pf p 0x020 :: alertRegs) d (d.clearFlags p v) := by
  unfold Dev.clearFlags
  dsimp only
  refine SigOn.trans ?_ (Dev.alert_on _ (List.subset_cons_self _ _))
  have hput := d.put_on (ks := pf p 0x020 :: alertRegs) (Nat.land (d.rg (pf p 0x020)) (2 ^ 32 - 1 - Nat.land v 0xFFF)) List.mem_cons_self
  exact SigOn.ite (hput.trans ⟨⟨_, _, _, _, _, _, rfl⟩, .of_regs rfl⟩) hput

theorem Dev.write_errStat (d : Dev) {p type inst : Nat} (v : Nat) (hp : pageInfo p = some (type, inst)) (hh : hasHeader type = true) :
    d.write (pf p 0x020) v = d.clearFlags p v := by
  have hk : keyPage (pf p 0x020) = p := by unfold keyPage pf; omega
  have ho : pf p 0x020 % 4096 = 0x020 := by unfold pf; omega
  have h2 : type ≠ 0xF2 := by rintro rfl; exact absurd hh (by decide)
  have hr : regDesc (pf p 0x020) = some ⟨0x020, 1, 4, "PG_ERR_STAT", .w1c, 0x0, .k, false, 0x0, 0xFFF, 0x0⟩ := by
    unfold regDesc
    rw [hk, hp]
    simp only [h2, if_false, pageDesc, hh, ho]
    rfl
  rw [d.write_header v hr (by rw [hk]; exact hp) hh (by omega), hk, ho]
  rfl

/-- An object quota of T0 ignores a write (R202). -/
theorem Dev.write_t0Quota (d : Dev) {i : Nat} (v : Nat) (hi : i < 17) : d.write (pf 0x10 (0x180 + 4 * i)) v = d := by
  have hk : keyPage (pf 0x10 (0x180 + 4 * i)) = 0x10 := by unfold keyPage pf; omega
  have ho : pf 0x10 (0x180 + 4 * i) % 4096 = 0x180 + 4 * i := by unfold pf; omega
  have hp : pageInfo (keyPage (pf 0x10 (0x180 + 4 * i))) = some (0x0E, 0) := by rw [hk]; decide
  cases hr : regDesc (pf 0x10 (0x180 + 4 * i)) with
  | none => unfold Dev.write; rw [hr]
  | some r =>
    have hg : d.ignored 0x10 0x0E 0 (0x180 + 4 * i) = true := by
      simp only [Dev.ignored, beq_self_eq_true, Bool.true_and, Bool.or_eq_true, Bool.and_eq_true, decide_eq_true_eq]
      omega
    rw [d.write_block v hr hp (by omega) (by decide) (by decide), hk, ho, hg, if_pos rfl]

/-- A configuration-class register of a PF page outside the headers stores (R65). -/
theorem Dev.write_config (d : Dev) {k : Nat} (v : Nat) {r : RegDesc} (hk : k < 2 ^ 24) (hr : regDesc k = some r) (ha : r.acc = .rw)
    (hs : r.shadow = true) (ho : 0x40 ≤ k % 4096) (hp : keyPage k ≠ 0x10) : d.write k v = d.store k v r := by
  have hp4 : keyPage k < 4096 := by unfold keyPage; omega
  obtain ⟨type, inst, hpi, ⟨rfl, -⟩ | ⟨-, hd⟩⟩ := regDesc_eq_some hr
  · exact absurd (type_lt_of_pf hp4 hpi) (by decide)
  · have ht := type_lt_of_pf hp4 hpi
    refine d.write_stored v hr hpi ht ho ?_ ?_
    · have h31 : (type == 0x31) = false := by rw [beq_eq_false_iff_ne]; omega
      have h0E : (type == 0x0E && inst == 0) = false := by
        rw [← Bool.not_eq_true, Bool.and_eq_true, beq_iff_eq, beq_iff_eq]
        rintro ⟨rfl, rfl⟩
        exact hp (tier0_slot hp4 hpi)
      simp [Dev.ignored, h31, h0E]
    · refine fun hm => Decidable.byContradiction fun hi => ?_
      have hns := (commandRegs_acc hd hm hi).2.2 ha
      rw [hs] at hns
      cases hns

theorem Dev.store_config (d : Dev) {k : Nat} (v : Nat) {r : RegDesc} (hk : k < 2 ^ 24) (ha : r.acc = .rw) (hs : r.shadow = true) :
    d.store k v r = (d.put k (Nat.lor (Nat.land (d.rg k) (2 ^ 32 - 1 - r.wmask)) (Nat.land v r.wmask))).modPage (keyPage k)
      fun x => { x with dirty := true } := by
  have hp4 : keyPage k < 4096 := by unfold keyPage; omega
  rw [d.store_of_rw k v ha]
  simp [hs, Dev.dirty, hp4]

/-- The selection registers (R565). -/
def selectionRegs : List (Nat × Nat) :=
  [(6, 0x10C), (2, 0x208), (4, 0x208), (0xF, 0x10C), (0x10, 0x114), (0x11, 0x114), (0x12, 0x114), (0x13, 0x114)] ++
    (List.range 16).map fun i => (0x40 + i, 0x900)

/-- A selection register is stored, of no configuration class, and commands nothing. -/
theorem selectionRegs_stored : ∀ x ∈ selectionRegs, x.1 < 4096 ∧ 0x40 ≤ x.2 ∧ x.2 < 4096 ∧ x.1 ≠ 8 ∧
    (regDesc (pf x.1 x.2)).all (fun r => r.acc == .rw && !r.shadow) = true ∧
    (pageInfo x.1).all (fun y => decide (y.1 < 0x30) && !(y.1 == 0x0E && 0x180 ≤ x.2) && !commandRegs.contains (y.1, x.2)) = true := by
  decide +kernel

theorem Dev.write_selection (d : Dev) {slot off : Nat} (v : Nat) {r : RegDesc} (h : (slot, off) ∈ selectionRegs)
    (hr : regDesc (pf slot off) = some r) : d.write (pf slot off) v = d.store (pf slot off) v r ∧ r.acc = .rw ∧ r.shadow = false := by
  obtain ⟨hs, ho, ho4, -, hreg, hpage⟩ := selectionRegs_stored _ h
  have hk : keyPage (pf slot off) = slot := by unfold keyPage pf; omega
  have hm : pf slot off % 4096 = off := by unfold pf; omega
  simp only [hr, Option.all_some, Bool.and_eq_true, beq_iff_eq, Bool.not_eq_true'] at hreg
  obtain ⟨type, inst, hpi, -⟩ := regDesc_eq_some hr
  rw [hk] at hpi
  simp only [hpi, Option.all_some, Bool.and_eq_true, decide_eq_true_eq, Bool.not_eq_true'] at hpage
  obtain ⟨⟨ht, hE⟩, hc⟩ := hpage
  refine ⟨d.write_stored v hr (by rw [hk]; exact hpi) ht (by omega) ?_ fun hm' => ?_, hreg⟩
  · have h31 : (type == 0x31) = false := by rw [beq_eq_false_iff_ne]; omega
    rw [hk, hm]
    rw [Bool.and_eq_false_iff, decide_eq_false_iff_not] at hE
    simp only [Dev.ignored, h31, Bool.false_and, Bool.false_or, Bool.and_eq_false_iff, decide_eq_false_iff_not]
    exact .inl (hE.imp .inl id)
  · rw [hm, ← List.contains_iff_mem, hc] at hm'
    cases hm'
end Sys2Proof.Machine
namespace Sys2Proof.Proofs.Scope
open Sys2Proof.Machine

/-- Settles O42: what a write does is said by the access of its register, by the few registers that command, and by the store. -/
theorem writesStore : Obligations.WritesStore := by
  unfold Obligations.WritesStore
  refine ⟨?_, ?_, ?_, ?_⟩
  · rintro fn off k v s hf rfl hup h
    have hw : s.dev.write (busKey fn off) v.toNat = s.dev ∧ busKey fn off ≠ pf 8 0x104 := by
      have pwCtrl : (regDesc (pf 8 0x104)).map (·.acc) = some .rw := by decide
      rcases h with hn | ⟨r, hr, ha⟩ | ⟨r, hr, ha, ht⟩ | ⟨rfl, i, hi, rfl⟩
      · refine ⟨by unfold Dev.write; rw [hn], fun e => ?_⟩
        rw [← e, hn] at pwCtrl; cases pwCtrl
      · refine ⟨s.dev.write_of_readOnly _ hr (.inl ha), fun e => ?_⟩
        rw [← e, hr, Option.map_some, ha] at pwCtrl; cases pwCtrl
      · refine ⟨s.dev.write_of_readOnly _ hr (.inr ⟨ha, ht⟩), fun e => ?_⟩
        rw [← e, hr, Option.map_some, ha] at pwCtrl; cases pwCtrl
      · rw [busKey_zero_of_lt (by unfold pf; omega)]
        exact ⟨s.dev.write_t0Quota _ hi, by unfold pf; omega⟩
    rw [exec_registerWrite hf v hup hw.2, hw.1]
  · rintro off k p v r s rfl rfl hup hr ha hs ho hp
    have hk := busKey_zero_lt off
    have hne : busKey 0 off ≠ pf 8 0x104 := by
      have pwCtrl : (regDesc (pf 8 0x104)).map (·.shadow) = some false := by decide
      intro e
      rw [← e, hr, Option.map_some, hs] at pwCtrl; cases pwCtrl
    refine ⟨_, exec_registerWrite (by decide) v hup hne, ?_⟩
    rw [s.dev.write_config _ hk hr ha hs ho hp]
    refine ⟨?_, fun i => s.dev.bit_store _ hr ha, s.dev.store_regs _ _ _, fun j => ?_⟩
    · rw [s.dev.store_config _ hk ha hs]; rfl
    · rw [s.dev.store_config _ hk ha hs, Dev.page_modPage]; rfl
  · intro slot off v r s hup hm hr
    have hsel : (slot, off) ∈ selectionRegs := by
      rcases hm with h | ⟨h1, h2, rfl⟩
      · exact List.mem_append_left _ h
      · refine List.mem_append_right _ (List.mem_map.mpr ⟨slot - 0x40, List.mem_range.mpr (by omega), ?_⟩)
        rw [Nat.add_sub_cancel' h1]
    obtain ⟨hs, -, ho, h8, -⟩ := selectionRegs_stored _ hsel
    obtain ⟨hw, ha, hsh⟩ := s.dev.write_selection v.toNat hsel hr
    refine ⟨_, exec_selectionWrite hs ho v hup (by unfold pf; omega), ?_⟩
    rw [hw]
    refine ⟨?_, fun i => s.dev.bit_store _ hr ha, s.dev.store_regs _ _ _⟩
    rw [s.dev.store_of_rw _ _ ha]
    simp only [hsh, Bool.false_eq_true, if_false]
    rfl
  · intro p type inst v s hp hpi hh hup
    have e : busKey 0 (pf p 0x020) = pf p 0x020 := busKey_zero_of_lt (by unfold pf; omega)
    refine ⟨_, exec_registerWrite (by decide) v hup (by rw [e]; unfold pf; omega), ?_⟩
    rw [e, s.dev.write_errStat _ hpi hh]
    have hf := s.dev.clearFlags_firsts p v.toNat
    obtain ⟨hsig, hregs⟩ := s.dev.clearFlags_on p v.toNat
    refine ⟨hsig, fun i hi => ?_, fun h0 => ?_, fun h0 => ?_, fun q hq => ?_, hregs⟩
    · have hm : Nat.land v.toNat 0xFFF < 2 ^ 32 := Nat.lt_of_le_of_lt Nat.and_le_right (by decide)
      rw [Dev.clearFlags_rg, bit_cleared _ hm (by omega)]
      change (_ && !bit (v.toNat &&& 2 ^ 12 - 1) i) = _
      rw [Nat.and_two_pow_sub_one_eq_mod, bit_eq_testBit (_ % _), Nat.testBit_mod_two_pow, ← bit_eq_testBit]
      simp [hi]
    · rw [hf, if_pos h0]; simp
    · rw [hf, if_neg h0]
    · rw [hf]; split <;> simp [hq]
end Sys2Proof.Proofs.Scope

namespace Sys2Proof.Machine

/-- A field that every step of a fold keeps is kept by the fold. -/
theorem foldl_keeps {β γ : Type} (π : Dev → γ) {f : Dev → β → Dev} (h : ∀ d b, π (f d b) = π d) (l : List β) (d : Dev) :
    π (l.foldl f d) = π d := by
  induction l generalizing d with
  | nil => rfl
  | cons b l ih => exact (ih (f d b)).trans (h d b)

/-! The row that begins with the row timer (R57, R71) -/

/-- The configuration in force after a reading of it. -/
theorem Dev.after_act (d : Dev) (m : NMap Word) : (d.after m).act = m := by
  unfold Dev.after; dsimp only; exact foldl_keeps Dev.act (fun _ _ => Dev.modPage_act _ _ _) _ _

theorem Dev.after_row (d : Dev) (m : NMap Word) : (d.after m).row = d.row := by
  unfold Dev.after; dsimp only; exact foldl_keeps Dev.row (fun _ _ => Dev.modPage_row _ _ _) _ _

/-- A publish without objects brings its registers into force (R77). -/
theorem Dev.enterPub_act (d : Dev) {p : Pub} (h : p.objs = []) : (d.enterPub p).act = p.regs := by
  have hm : p.models = [] := by simp [Pub.models, h]
  unfold Dev.enterPub
  simp only [hm, List.foldl_nil]
  refine (foldl_keeps Dev.act (fun d q => ?_) _ _).trans (Dev.after_act _ _)
  split <;> rfl

theorem Dev.enterPub_row (d : Dev) (p : Pub) : (d.enterPub p).row = d.row := by
  unfold Dev.enterPub
  dsimp only
  refine (foldl_keeps Dev.row (fun d q => ?_) _ _).trans ((Dev.after_row _ _).trans (Dev.bump_row _ _ _))
  split <;> rfl

theorem Dev.cleanPages_keeps {γ : Type} (π : Dev → γ) (h : ∀ d p f, π (Dev.modPage d p f) = π d) (d : Dev) : π d.cleanPages = π d := by
  refine foldl_keeps π (fun d q => ?_) _ _
  split
  · exact h _ _ _
  · rfl

/-- The row runs on through a publish that leaves the row timer enabled (R57). -/
theorem Dev.timerPublish_running (d : Dev) (oldMode : Nat) : (d.timerPublish oldMode).row.running = (d.row.running && enIn d.act 1) := by
  unfold Dev.timerPublish
  extract_lets P mode timed _ started st signalled row
  have hrow : timed.row = d.row := by unfold timed; rw [Dev.put_row, Dev.put_row]
  have hact : timed.act = d.act := by unfold timed; rw [Dev.put_act, Dev.put_act]
  have hstarted : started.row.running = (d.row.running && enIn d.act 1) := by
    rw [← hrow, ← hact]; rfl
  have hsignalled : row = started.row := by
    unfold row signalled
    split
    · rfl
    · rw [(Dev.vector_sig _ _ _).row, Dev.putBits_row]
  by_cases hm : mode = oldMode
  · rw [if_pos hm]; exact hstarted
  · rw [if_neg hm]; dsimp only; rw [hsignalled, hstarted]

theorem Dev.latchSwatches_row (d : Dev) : d.latchSwatches.row = d.row := by
  unfold Dev.latchSwatches; rw [Dev.put64_row]; exact foldl_keeps Dev.row (fun _ _ => Dev.put64_row _ _ _) _ _

theorem Dev.showTenants_row (d : Dev) : d.showTenants.row = d.row := by
  unfold Dev.showTenants; exact foldl_keeps Dev.row (fun _ _ => Dev.putBits_row _ _ _ _ _) _ _

theorem Dev.afterPub_row (d : Dev) {p : Pub} (old : NMap Obj) (h : p.objs = []) : (d.afterPub p old).row = d.row := by
  have hm : p.models = [] := by simp [Pub.models, h]
  unfold Dev.afterPub
  simp only [hm, h, List.foldl_nil]
  exact (foldl_keeps Dev.row (fun d t => (d.event_sig t 3).row) _ _).trans (Dev.bump_row _ _ _)

/-- Firmware's publish of registers alone leaves the row running when they leave the row timer enabled (R57, R71). -/
theorem Dev.applyPub_running (d : Dev) {p : Pub} (h : p.objs = []) (hs : p.src = .firmware) :
    (d.applyPub p).row.running = (d.row.running && enIn p.regs 1) := by
  unfold Dev.applyPub Dev.pubBit Dev.measured
  simp only [hs, Dev.pubDone]
  rw [(Dev.vector_sig _ _ _).row, Dev.afterPub_row _ _ h, Dev.put_row, Dev.put_row, Dev.put64_row, Dev.bump_row,
    Dev.showTenants_row, Dev.latchSwatches_row, Dev.timerPublish_running,
    Dev.cleanPages_keeps Dev.row (fun _ _ _ => rfl), Dev.cleanPages_keeps Dev.act (fun _ _ _ => rfl), Dev.enterPub_row,
    Dev.enterPub_act _ h]

/-- The configuration that the first row starts with: what is in force, and the shadow of the row-timer page as its registers list it (R71). -/
def Dev.firstConfig (d : Dev) : NMap Word := (d.shadows.filter fun x => keyPage x.1 == 1).foldl (fun m x => nset m x.1 x.2) d.act

theorem Dev.pulse_row (d : Dev) : d.pulse.row = d.row := by
  unfold Dev.pulse; split <;> rfl

theorem Dev.rowStart_running (d : Dev) : d.rowStart.row.running = enIn d.firstConfig 1 := by
  unfold Dev.rowStart
  rw [Dev.pulse_row, Dev.put64_row]
  exact Dev.applyPub_running _ rfl rfl

/-- The end of the row timer's own check, while no row runs: its EN is set and the row begins (R71). -/
theorem Dev.checkEnd_rowTimer {d : Dev} {c : Check} (hs : d.power.starting = false) (hc : d.checks.find? (·.page == 1) = some c)
    (hw : d.checkWaits c = false) (hj : (d.dropCheck 1).judgeCheck c = none) (hr : d.row.running = false) :
    d.checkEnd 1 = ((((d.dropCheck 1).pass 1).putBits (pf 1 8) 0 0 1).dirty 1).rowStart := by
  have hr' : (((d.dropCheck 1).pass 1).putBits (1 * 4096 + 8) 0 0 1).row.running = false := hr
  unfold Dev.checkEnd
  rw [hc]
  simp only [hs, hw, hj, hr', Bool.or_self, Bool.false_eq_true, if_false, if_true]
  rfl

/-- States that differ in the device alone are told apart by the device. -/
theorem dev_eq_of_next {s : State} {d e : Dev}
    (h : (Host.Outcome.next { s with dev := d } : Host.Outcome State Fault Refusal) = .next { s with dev := e }) : d = e :=
  congrArg State.dev (Host.Outcome.next.inj h)

theorem exec_enableCheckDone {fn : Nat} (hf : fn < 18) (slot : Nat) (s : State) :
    exec (.enableCheckDone fn slot) s = .next { s with dev := s.dev.checkEnd (pageKey fn (slot % 4096)) } := onFn_of_lt hf _ _

end Sys2Proof.Machine

namespace Sys2Proof.Machine

/-! The same with registers that list each key once -/

theorem nget_eq_none {α : Type} {m : NMap α} {k : Nat} (h : ∀ p ∈ m, p.1 ≠ k) : nget m k = none := by
  induction m with
  | nil => rfl
  | cons p m ih =>
    obtain ⟨a, v⟩ := p
    have ha : a ≠ k := h _ List.mem_cons_self
    simp [nget, ha, ih fun q hq => h q (List.mem_cons_of_mem _ hq)]

/-- Entries of one map written over another: the first wins where it lists a key. -/
theorem nget_foldl_nset {α : Type} {l : NMap α} (hl : NMap.wf l) (m : NMap α) (k : Nat) :
    nget (l.foldl (fun m x => nset m x.1 x.2) m) k = (nget l k).or (nget m k) := by
  induction l generalizing m with
  | nil => rfl
  | cons p l ih =>
    obtain ⟨a, v⟩ := p
    obtain ⟨hlt, hl⟩ := List.pairwise_cons.mp hl
    rw [List.foldl_cons, ih hl]
    by_cases h : a = k
    · subst h
      simp [nget_eq_none fun q hq => Nat.ne_of_gt (hlt q hq), nget]
    · simp [nget, h, nget_nset_ne _ _ (Ne.symm h)]

/-- The value at a key that a filter on keys lets through. -/
theorem nget_filter {α : Type} (m : NMap α) (P : Nat → Bool) (k : Nat) :
    nget (m.filter fun p => P p.1) k = if P k then nget m k else none := by
  induction m with
  | nil => simp
  | cons p m ih =>
    obtain ⟨a, v⟩ := p
    by_cases h : a = k
    · subst h
      by_cases hP : P a <;> simp [hP, nget, ih]
    · by_cases hP : P a <;> simp [hP, nget, h, ih]

theorem Dev.put_wf {d : Dev} (h : NMap.wf d.regs) (k v : Nat) : NMap.wf (d.put k v).regs := by
  show NMap.wf (if wd v = wd (resetOf k) then nerase d.regs k else nset d.regs k (wd v))
  split
  · exact nerase_wf h k
  · exact nset_wf h k _

theorem Dev.firstConfig_enabled {d : Dev} (hw : NMap.wf d.regs) (he : bit (d.rg (pf 1 8)) 0 = true) : enIn d.firstConfig 1 = true := by
  have hown : NMap.wf (d.shadows.filter fun x => keyPage x.1 == 1) := (hw.filter _).filter _
  have hnget : nget (d.shadows.filter fun x => keyPage x.1 == 1) (pf 1 8) = nget d.regs (pf 1 8) := by
    rw [nget_filter _ (fun k => keyPage k == 1), Dev.shadows, nget_filter _ isConfig]
    rfl
  unfold enIn Dev.firstConfig
  rw [nget_foldl_nset hown, hnget]
  unfold Dev.rg at he
  cases hv : nget d.regs (pf 1 8) with
  | none => rw [hv] at he; exact absurd he (by decide)
  | some v => rw [hv] at he; exact he

/-- The row begins with the end of the row timer's check where the registers list each key once (R71). -/
theorem Dev.checkEnd_rowTimer_running {d : Dev} {c : Check} (hw : NMap.wf d.regs) (hs : d.power.starting = false)
    (hc : d.checks.find? (·.page == 1) = some c) (hwait : d.checkWaits c = false) (hj : (d.dropCheck 1).judgeCheck c = none)
    (hr : d.row.running = false) : (d.checkEnd 1).row.running = true := by
  rw [Dev.checkEnd_rowTimer hs hc hwait hj hr, Dev.rowStart_running]
  refine Dev.firstConfig_enabled (Dev.put_wf (Dev.put_wf hw _ _) _ _) ?_
  exact Dev.bit_put_setBit _ (pf 1 8) 0 true (by decide)

end Sys2Proof.Machine

namespace Sys2Proof.Proofs.Scope
open Sys2Proof.Machine

/-- A module whose row timer's check runs, and whose registers list that page's PG_CTRL twice: a write reaches the first entry alone. -/
def ctrlListedTwice : State :=
  { State.reset with dev := { Dev.reset with
      power := { Power.reset with starting := false }, regs := [(pf 1 8, 0#32), (pf 1 8, 0#32)], checks := [⟨1, [], 0⟩] } }

/-- Its check passes. -/
theorem ctrlListedTwice_passes :
    ctrlListedTwice.dev.checkWaits ⟨1, [], 0⟩ = false ∧ (ctrlListedTwice.dev.dropCheck 1).judgeCheck ⟨1, [], 0⟩ = none := by decide +kernel

/-- The row does not begin: the second entry brings EN 0 into force. -/
theorem ctrlListedTwice_stands : (ctrlListedTwice.dev.checkEnd 1).row.running = false := by
  rw [Dev.checkEnd_rowTimer rfl rfl ctrlListedTwice_passes.1 ctrlListedTwice_passes.2 rfl, Dev.rowStart_running]
  decide +kernel

/-- Refutes O22: nothing in the statement says that the registers list a key once. On `ctrlListedTwice` the row timer's check passes and the
row does not begin, since the publish of the first row takes the entry that the enable has not reached. Where each key is listed once the row
begins (`Dev.checkEnd_rowTimer_running`). -/
theorem not_enableEnds : ¬ Obligations.EnableEnds := by
  unfold Obligations.EnableEnds
  rintro ⟨h, -⟩
  obtain ⟨-, -, -, rowTimer, -⟩ := h 0 1 1 ⟨1, [], 0⟩ ctrlListedTwice (by decide) rfl rfl rfl ctrlListedTwice_passes.1
  obtain ⟨x, hx, hrun, -⟩ := rowTimer ctrlListedTwice_passes.2 rfl rfl
  have hdev : ctrlListedTwice.dev.checkEnd 1 = x := by
    rw [exec_enableCheckDone (by decide), show pageKey 0 (1 % 4096) = 1 from rfl] at hx
    exact dev_eq_of_next hx
  rw [← hdev, ctrlListedTwice_stands] at hrun
  cases hrun
end Sys2Proof.Proofs.Scope

namespace Sys2Proof.Machine

/-! Strands that a TENANT reset ends (R87, R136) -/

/-- The strand of an ID after an end without a completion, and of another ID. -/
theorem Dev.strand_endSilent (d : Dev) (id j : Nat) :
    nget (d.endSilent id).strands j =
      if j = id then (nget d.strands id).map fun x => if x.state = 3 then x else x.ended else nget d.strands j := by
  unfold Dev.endSilent
  split
  · rename_i hx
    split
    · rename_i h; rw [h, hx]; rfl
    · rfl
  · rename_i x hx
    split
    · rename_i h3
      split
      · rename_i h; simp [h, hx, h3]
      · rfl
    · rename_i h3
      dsimp only
      have hs : (if x.part.isSome = true then d else
          ((d.modQp x.cmd.q fun y => { y with outstanding := y.outstanding - 1 }).countEnd x.cmd.q.tenant 0x14).endParts id x).strands =
          d.strands := by
        split
        · rfl
        · rw [(Dev.endParts_sig _ _ _).strands, (Dev.countEnd_sig _ _ _).strands, Dev.modQp_strands]
      rw [Dev.toEnding, Dev.strand_modStrand, hs, hx]
      simp [h3, Strand.ended]

/-- An end without a completion leaves the command of every strand. -/
theorem Dev.cmd_endSilent {d : Dev} {id j : Nat} {y : Strand} (h : nget (d.endSilent id).strands j = some y) :
    ∃ x, nget d.strands j = some x ∧ x.cmd = y.cmd := by
  rw [Dev.strand_endSilent] at h
  split at h
  · rename_i hj
    obtain ⟨x, hx, rfl⟩ := Option.map_eq_some_iff.mp h
    refine ⟨x, by rw [hj]; exact hx, ?_⟩
    split <;> rfl
  · exact ⟨y, h, rfl⟩

theorem Dev.countEnd_aborted_regs (d : Dev) (t : Nat) : RegsBut [pf 6 0x064, pf (tenantPage t) 0x050] d (d.countEnd t 0x14) := by
  unfold Dev.countEnd
  simp only [show ¬(0x14 ≤ 6) by decide, show (0x14 : Nat) ≠ 0x11 by decide, show (0x14 : Nat) ≠ 0x12 by decide, if_false, if_true]
  split
  · exact d.bump_regs _ (by simp)
  · exact (d.bump_regs _ (by simp)).trans (Dev.bump_regs _ _ (by simp))

theorem Dev.endParts_regs (d : Dev) (id : Nat) (s : Strand) : (d.endParts id s).regs = d.regs := by
  unfold Dev.endParts; split <;> rfl

theorem Dev.dropCheck_regs (d : Dev) (p : Nat) : (d.dropCheck p).regs = d.regs := rfl

theorem Dev.dropChecks_regs (d : Dev) (reach : Nat → Bool) : (d.dropChecks reach).regs = d.regs := by
  unfold Dev.dropChecks; exact foldl_keeps Dev.regs (fun _ _ => Dev.dropCheck_regs _ _) _ _

/-- An end without a completion counts for the tenant of the strand that the ID names (R141). -/
theorem Dev.endSilent_regs (d : Dev) {id t : Nat} (h : ∀ x, nget d.strands id = some x → x.cmd.q.tenant = t) :
    RegsBut [pf 6 0x064, pf (tenantPage t) 0x050] d (d.endSilent id) := by
  unfold Dev.endSilent
  split
  · exact .refl _ d
  · rename_i x hx
    obtain rfl := h x hx
    split
    · exact .refl _ d
    · dsimp only
      split
      · exact .of_regs rfl
      · have hforget : RegsBut [pf 6 0x064, pf (tenantPage x.cmd.q.tenant) 0x050] d
            (d.modQp x.cmd.q fun y => { y with outstanding := y.outstanding - 1 }) := .of_regs rfl
        exact ((hforget.trans (Dev.countEnd_aborted_regs _ _)).trans (.of_regs (Dev.endParts_regs _ _ _))).trans (.of_regs rfl)

theorem Dev.endSilents_regs {t : Nat} (ids : List Nat) (d : Dev)
    (h : ∀ id ∈ ids, ∀ x, nget d.strands id = some x → x.cmd.q.tenant = t) :
    RegsBut [pf 6 0x064, pf (tenantPage t) 0x050] d (ids.foldl (fun d id => d.endSilent id) d) := by
  induction ids generalizing d with
  | nil => exact .refl _ d
  | cons id ids ih =>
    refine (d.endSilent_regs (h id List.mem_cons_self)).trans (ih _ fun j hj y hy => ?_)
    obtain ⟨x, hx, hc⟩ := Dev.cmd_endSilent hy
    rw [← hc]
    exact h j (List.mem_cons_of_mem _ hj) x hx

/-- A register after a reset that clears those of a reach under their classes (R11, R486). -/
theorem Dev.rg_clearRegs (d : Dev) (r : Reset) (reach : Nat → Bool) (k : Nat) :
    (d.clearRegs r reach).rg k = if reach k && !keepsReg r k then resetOf k else d.rg k := by
  unfold Dev.rg Dev.clearRegs
  rw [nget_filter _ (fun k => !reach k || keepsReg r k)]
  by_cases hr : reach k <;> by_cases hk : keepsReg r k <;> simp [hr, hk]

/-- In a map that lists each key once, what is listed at a key is what is read there. -/
theorem nget_of_mem {α : Type} {m : NMap α} (hm : NMap.wf m) {k : Nat} {v : α} (h : (k, v) ∈ m) : nget m k = some v := by
  induction m with
  | nil => cases h
  | cons p m ih =>
    obtain ⟨a, b⟩ := p
    obtain ⟨hlt, hm⟩ := List.pairwise_cons.mp hm
    rcases List.mem_cons.mp h with h | h
    · cases h; simp [nget]
    · have hne : a ≠ k := Nat.ne_of_lt (hlt _ h)
      simp [nget, hne, ih hm h]

/-- Where each strand ID is listed once, a TENANT reset leaves the registers of the other functions but the two counters of aborted strands
(R11, R87, R141). -/
theorem Dev.tenantReset_otherRegs {d : Dev} (hd : NMap.wf d.strands) {t k : Nat} (hf : keyFn k ≠ t)
    (hk : k ∉ [pf 6 0x064, pf (tenantPage t) 0x050]) : (d.tenantReset t).rg k = d.rg k := by
  unfold Dev.tenantReset
  split
  · rfl
  · extract_lets ids ended cleared
    have hids : ∀ id ∈ ids, ∀ x, nget d.strands id = some x → x.cmd.q.tenant = t := by
      intro id hid x hx
      obtain ⟨⟨_, y⟩, hy, rfl⟩ := List.mem_map.mp hid
      obtain ⟨hmem, hy⟩ := List.mem_filter.mp hy
      rw [nget_of_mem hd hmem] at hx
      cases hx
      simp only [Bool.and_eq_true, beq_iff_eq] at hy
      exact hy.1
    have hended : ended.rg k = d.rg k := d.endSilents_regs ids hids k hk
    have hcleared : cleared.rg k = ended.rg k := by
      have hreach : (keyFn k == t) = false := beq_eq_false_iff_ne.mpr hf
      unfold cleared
      rw [Dev.rg_clearRegs, hreach, Bool.false_and, if_neg (by decide)]
      exact RegsBut.of_regs (ks := []) (Dev.dropChecks_regs _ _) k (by simp)
    exact hcleared.trans hended

end Sys2Proof.Machine

namespace Sys2Proof.Proofs.Scope
open Sys2Proof.Machine

/-- A strand without steps, of queue pair 0 of a tenant. -/
def idleStrand (t : Nat) : Strand :=
  { cmd := ⟨⟨t, 0⟩, [], [], 0⟩, state := 2, admitRow := 0, admitNs := 0, counter := 0, foot := Foot.zero, owned := [], markers := [],
    pins := [], unpin := [], steps := [], start := 0, lane := 0, drops := 0, consec := 0, cause := 0, holdL := false, holdP := false, kv := 0,
    kvNext := 0, kvMap := [], work := Work.blank, final := none, spans := false, part := none, reading := [], scratch := [], done := [],
    fate := 0, stitchBase := 0, core := 0, expiring := false }

/-- A module that runs, and that lists strand ID 5 twice: for tenant 3 and for tenant 4. -/
def idListedTwice : State :=
  { State.reset with dev := { Dev.reset with
      power := { Power.reset with starting := false }, strands := [(5, idleStrand 3), (5, idleStrand 4)] } }

/-- A reset of tenant 4 ends the strand that ID 5 names, which is tenant 3's, and counts it for tenant 3. -/
theorem idListedTwice_counts :
    idListedTwice.dev.rg (pf (tenantPage 3) 0x050) = 0 ∧
      ((idListedTwice.dev.host fun d => d.tenantReset 4).rg (pf (tenantPage 3) 0x050)) = 1 := by decide +kernel

/-- Refutes O52: nothing in the statement says that a strand ID is listed once. On `idListedTwice` the TENANT reset of tenant 4 counts an
aborted strand for tenant 3, a register that the statement keeps. Where each ID is listed once that clause holds
(`Dev.tenantReset_otherRegs`). -/
theorem not_resetsTaken : ¬ Obligations.ResetsTaken := by
  unfold Obligations.ResetsTaken
  rintro ⟨h, -⟩
  obtain ⟨e, he, -, -, -, -, -, -, -, -, -, -, -, hframe, -⟩ := h 4 idListedTwice rfl (by decide) (by decide) rfl
  have hdev : (idListedTwice.dev.host fun d => d.tenantReset 4) = e := dev_eq_of_next he
  have hreg := hframe (pf (tenantPage 3) 0x050) (by decide) (by decide)
  obtain ⟨hbefore, hafter⟩ := idListedTwice_counts
  rw [← hdev, hbefore, hafter] at hreg
  cases hreg
end Sys2Proof.Proofs.Scope

namespace Sys2Proof.Machine

/-! Fields of a register beside the one that is replaced (R3) -/

theorem testBit_setBits {hi lo : Nat} (w v : Nat) (h : lo ≤ hi) (i : Nat) :
    (setBits w hi lo v).testBit i = if lo ≤ i ∧ i ≤ hi then v.testBit (i - lo) else w.testBit i := by
  rw [setBits_eq, Nat.mul_comm _ (2 ^ lo), Nat.testBit_two_pow_mul_add _ (Nat.mod_lt _ (Nat.two_pow_pos lo)),
    Nat.mul_comm _ (2 ^ (hi + 1 - lo)), Nat.testBit_two_pow_mul_add _ (Nat.mod_lt _ (Nat.two_pow_pos _))]
  simp only [Nat.testBit_mod_two_pow, Nat.testBit_div_two_pow]
  by_cases hlo : i < lo
  · simp [hlo, Nat.not_le_of_lt hlo]
  · by_cases hhi : i ≤ hi
    · have hin : i - lo < hi + 1 - lo := by omega
      simp [hlo, hhi, hin, Nat.le_of_not_lt hlo]
    · have hout : ¬(i - lo < hi + 1 - lo) := by omega
      have hpos : i - lo - (hi + 1 - lo) + (hi + 1 - lo) + lo = i := by omega
      simp [hlo, hhi, hout, hpos]

theorem bits_setBits_of_disjoint {hi lo hi' lo' : Nat} (w v : Nat) (h : lo ≤ hi) (hd : hi' < lo ∨ hi < lo') :
    bits (setBits w hi lo v) hi' lo' = bits w hi' lo' := by
  refine Nat.eq_of_testBit_eq fun i => ?_
  simp only [bits, Nat.testBit_mod_two_pow, Nat.testBit_shiftRight, testBit_setBits w v h]
  by_cases hi : i < hi' + 1 - lo'
  · rw [if_neg (by omega)]
  · simp [hi]

theorem bit_setBits_of_outside {hi lo i : Nat} (w v : Nat) (h : lo ≤ hi) (hi' : i < lo ∨ hi < i) :
    bit (setBits w hi lo v) i = bit w i := by
  rw [bit_eq_testBit, bit_eq_testBit, testBit_setBits w v h, if_neg (by omega)]

theorem bit_setBit_ne {n i : Nat} (w : Nat) (b : Bool) (h : i ≠ n) : bit (setBit w n b) i = bit w i :=
  bit_setBits_of_outside w _ (Nat.le_refl n) (Nat.lt_or_gt_of_ne h)

theorem Dev.rg_putBits (d : Dev) {hi lo : Nat} (k v j : Nat) (h : lo ≤ hi) (hi32 : hi < 32) :
    (d.putBits k hi lo v).rg j = if j = k then setBits (d.rg k) hi lo v else d.rg j := by
  rw [Dev.putBits, Dev.rg_put, Nat.mod_eq_of_lt (setBits_lt (d.rg_lt k) h hi32)]

theorem Dev.rg_pubBit (d : Dev) {n : Nat} (b : Bool) (k : Nat) (hn : n < 32) :
    (d.pubBit n b).rg k = if k = pf 0 0x104 then setBit (d.rg k) n b else d.rg k := by
  rw [Dev.pubBit, Dev.rg_put, Nat.mod_eq_of_lt (setBit_lt b (d.rg_lt _) hn)]
  split
  · rename_i h; rw [h]
  · rfl


/-! What PG_CTRL holds after a write (R61, R65) -/

theorem Dev.dirty_of_pf (d : Dev) {p : Nat} (h : p < 4096) : d.dirty p = d.modPage p fun x => { x with dirty := true } := if_pos h

/-- VF pages and the row timer's keep their owner field (R57, R91). -/
theorem Dev.putOwner_of_fixed (d : Dev) {p : Nat} (v : Nat) (h : 4096 ≤ p ∨ p = 1) : d.putOwner p v = d := by
  unfold Dev.putOwner
  rw [if_pos (by rcases h with h | h <;> simp [h])]

/-- Any other page of the PF takes the owner, unless the write is one of R67 that does nothing. -/
theorem Dev.putOwner_of_free (d : Dev) {p v : Nat} (hp : p < 4096) (h1 : p ≠ 1)
    (hw : bit v 0 = true → bit (d.rg (pf p 8)) 0 = false ∧ (d.page p).checking = false) :
    d.putOwner p v = (d.putBits (pf p 8) 15 8 (bits v 15 8)).modPage p fun x => { x with dirty := true } := by
  rw [← Dev.dirty_of_pf _ hp]
  unfold Dev.putOwner
  refine if_neg ?_
  cases hv : bit v 0
  · simp [h1, hp]
  · simp [h1, hp, hw hv]

section
variable {d : Dev} {p v : Nat} (hw : bit v 0 = true → bit (d.rg (pf p 8)) 0 = false ∧ (d.page p).checking = false)
include hw

/-- The two outcomes of a write to the owner field. -/
theorem Dev.putOwner_cases : ((4096 ≤ p ∨ p = 1) ∧ d.putOwner p v = d) ∨ (p < 4096 ∧ p ≠ 1 ∧
    d.putOwner p v = (d.putBits (pf p 8) 15 8 (bits v 15 8)).modPage p fun x => { x with dirty := true }) := by
  by_cases h : 4096 ≤ p ∨ p = 1
  · exact .inl ⟨h, d.putOwner_of_fixed v h⟩
  · obtain ⟨hp, h1⟩ := not_or.mp h
    exact .inr ⟨Nat.lt_of_not_le hp, h1, d.putOwner_of_free (Nat.lt_of_not_le hp) h1 hw⟩

theorem Dev.putOwner_frame : d.putOwner p v = { d with regs := (d.putOwner p v).regs, pages := (d.putOwner p v).pages } := by
  obtain ⟨-, e⟩ | ⟨-, -, e⟩ := Dev.putOwner_cases hw
  · rw [e]
  · rw [e]; rfl

theorem Dev.putOwner_regs : RegsBut [pf p 8] d (d.putOwner p v) := by
  obtain ⟨-, e⟩ | ⟨-, -, e⟩ := Dev.putOwner_cases hw
  · rw [e]; exact .refl _ d
  · rw [e]; exact (d.put_regs _ (by simp)).trans (.of_regs rfl)

theorem Dev.putOwner_enable : bit ((d.putOwner p v).rg (pf p 8)) 0 = bit (d.rg (pf p 8)) 0 := by
  obtain ⟨-, e⟩ | ⟨-, -, e⟩ := Dev.putOwner_cases hw
  · rw [e]
  · rw [e, Dev.rg_modPage, Dev.rg_putBits _ _ _ _ (by decide) (by decide), if_pos rfl, bit_setBits_of_outside _ _ (by decide) (by decide)]

theorem Dev.putOwner_owner (hp : p < 4096) (h1 : p ≠ 1) : bits ((d.putOwner p v).rg (pf p 8)) 15 8 = bits v 15 8 := by
  rw [Dev.putOwner_of_free d hp h1 hw, Dev.rg_modPage, Dev.bits_putBits _ _ _ _ _ (by decide) (by decide)]
  exact Nat.mod_mod _ _

/-- The page that takes an owner is dirty; nothing else of any page changes (R61, R65). -/
theorem Dev.page_putOwner (j : Nat) :
    (d.putOwner p v).page j = if j = p ∧ p < 4096 ∧ p ≠ 1 then { d.page p with dirty := true } else d.page j := by
  obtain ⟨h, e⟩ | ⟨hp, h1, e⟩ := Dev.putOwner_cases hw
  · rw [e, if_neg (by omega)]
  · rw [e, Dev.page_modPage]
    simp only [hp, h1, ne_eq, not_false_eq_true, and_true]
    rfl
end

/-! Writes of EN (R65, R67, R72) -/

section
variable {d : Dev} {p v type inst : Nat} (hp : pageInfo p = some (type, inst)) (hh : hasHeader type = true)
include hp hh

theorem Dev.ctrlWrite_enable (ht : type ≠ 0x14) (h0 : bit v 0 = true) (h1 : bit v 1 = false) (he : bit (d.rg (p * 4096 + 8)) 0 = false) :
    d.ctrlWrite p v = (d.putOwner p v).startCheck p := by
  simp [Dev.ctrlWrite, hp, hh, ht, h0, h1, he]

theorem Dev.ctrlWrite_disable (ht : type ≠ 0x14) (h0 : bit v 0 = false) (h1 : bit v 1 = false) (he : bit (d.rg (p * 4096 + 8)) 0 = true)
    (hrow : p = 1 → d.rowInUse = false) : d.ctrlWrite p v = (d.putOwner p v).clearEn p := by
  by_cases hp1 : p = 1
  · subst hp1; simp [Dev.ctrlWrite, hp, hh, ht, h0, h1, he, hrow rfl]
  · simp [Dev.ctrlWrite, hp, hh, ht, h0, h1, he, hp1]
end

/-- The row timer's page cannot be disabled while the row is in use (R57). -/
theorem Dev.ctrlWrite_rowInUse {d : Dev} {v : Nat} (h0 : bit v 0 = false) (he : bit (d.rg (pf 1 8)) 0 = true) (hu : d.rowInUse = true) :
    d.ctrlWrite 1 v = d.put (pf 1 0x010) 0x0312 := by
  have hp : pageInfo 1 = some (0x02, 0) := by decide
  have he' : bit (d.rg (1 * 4096 + 8)) 0 = true := he
  simp [Dev.ctrlWrite, hp, hasHeader, h0, he', hu]

/-- A check starts over the registers of its page (R67, R68). -/
theorem Dev.startCheck_of_idle {d : Dev} {p : Nat} (hc : (d.page p).checking = false) (he : bit (d.rg (p * 4096 + 8)) 0 = false)
    (hq : ∀ q, pageQueue p = some q → d.draining q = false ∧ (d.page p).running = false) :
    d.startCheck p =
      ({ d with checks := d.checks ++ [(⟨p, pageRegs d.regs p, d.row.number⟩ : Check)] }).modPage p fun x => { x with checking := true } := by
  unfold Dev.startCheck
  cases h : pageQueue p with
  | none => simp [hc, he]
  | some q => simp [hc, he, hq q h]

/-- EN cleared on a page of the PF waits for a publish (R65, R72). -/
theorem Dev.clearEn_of_pf (d : Dev) {p : Nat} (h : p < 4096) :
    d.clearEn p = (d.putBits (pf p 8) 0 0 0).modPage p fun x => { x with dirty := true } := by
  unfold Dev.clearEn
  rw [if_pos h, Dev.dirty_of_pf _ h]
  rfl

theorem pageQueue_of_pf {p : Nat} (h : p < 4096) : pageQueue p = none := by
  simp [pageQueue, Nat.div_eq_of_lt h]

/-- What the host writes reaches the device while it is up (R66). -/
theorem Dev.host_of_up {d : Dev} (f : Dev → Dev) (h : d.up = true) : d.host f = f d := if_pos h

theorem Dev.host_of_down {d : Dev} (f : Dev → Dev) (h : d.up = false) : d.host f = d := if_neg (by simp [h])

theorem exec_enableRequest {fn : Nat} (hf : fn < 18) (slot : Nat) (v : Word) {s : State} (hup : s.dev.up = true) :
    exec (.enableRequest fn slot v) s = .next { s with dev := s.dev.ctrlWrite (pageKey fn (slot % 4096)) v.toNat } := by
  rw [← Dev.host_of_up (fun d => d.ctrlWrite (pageKey fn (slot % 4096)) v.toNat) hup]
  exact onFn_of_lt hf s _

theorem exec_disableWrite (slot : Nat) (v : Word) {s : State} (hup : s.dev.up = true) :
    exec (.disableWrite slot v) s = .next { s with dev := s.dev.ctrlWrite (slot % 4096) v.toNat } := by
  rw [← Dev.host_of_up (fun d => d.ctrlWrite (slot % 4096) v.toNat) hup]
  rfl

end Sys2Proof.Machine

namespace Sys2Proof.Proofs.Scope
open Sys2Proof.Machine

/-- Settles O21: the check starts on the device that the owner field's write leaves. -/
theorem enableStarts : Obligations.EnableStarts := by
  unfold Obligations.EnableStarts
  rintro fn slot p type inst v s hf rfl hp hh ht hup h0 h1 he hc hq
  rw [exec_enableRequest hf slot v hup, Dev.ctrlWrite_enable hp hh ht h0 h1 he]
  generalize pageKey fn (slot % 4096) = p at *
  have hw : bit v.toNat 0 = true → bit (s.dev.rg (pf p 8)) 0 = false ∧ (s.dev.page p).checking = false := fun _ => ⟨he, hc⟩
  have hpage := Dev.page_putOwner hw
  have hregs := Dev.putOwner_regs hw
  have hframe := Dev.putOwner_frame hw
  have hen : bit ((s.dev.putOwner p v.toNat).rg (p * 4096 + 8)) 0 = false := (Dev.putOwner_enable hw).trans he
  have hself : ((s.dev.putOwner p v.toNat).page p).checking = false ∧
      ((s.dev.putOwner p v.toNat).page p).running = (s.dev.page p).running := by
    rw [hpage]; split <;> exact ⟨hc, rfl⟩
  have hqueue : ∀ q, pageQueue p = some q →
      (s.dev.putOwner p v.toNat).draining q = false ∧ ((s.dev.putOwner p v.toNat).page p).running = false := by
    intro q hpq
    have hvf : 4096 ≤ p := Nat.le_of_not_lt fun h => by rw [pageQueue_of_pf h] at hpq; cases hpq
    rw [Dev.putOwner_of_fixed _ _ (.inl hvf)]
    exact hq q hpq
  rw [Dev.startCheck_of_idle hself.1 hen hqueue]
  refine ⟨_, rfl, ?_, ?_, ?_, fun j hj => ?_, hen, fun hlt h => Dev.putOwner_owner hw hlt h, fun hlt h => ?_, fun h => ?_, ?_⟩
  · rw [hframe]; rfl
  · rw [Dev.page_modPage, if_pos rfl]
  · rw [Dev.page_modPage, if_pos rfl]; exact hself.2
  · rw [Dev.page_modPage, if_neg hj]; exact (hpage j).trans (if_neg (by simp [hj]))
  · rw [Dev.page_modPage, if_pos rfl]
    exact congrArg Page.dirty ((hpage p).trans (if_pos ⟨rfl, hlt, h⟩))
  · rw [Dev.putOwner_of_fixed _ _ h, Dev.modPage_regs]
  · exact hregs.trans (.of_regs rfl)

/-- Settles O23, from the owner field's write and the clearing of EN after it. -/
theorem disableWrites : Obligations.DisableWrites := by
  unfold Obligations.DisableWrites
  refine ⟨?_, ?_, ?_⟩
  · intro slot type inst v s hs hp hh ht hup h0 h1 he hrow
    have hw : bit v.toNat 0 = true → bit (s.dev.rg (pf slot 8)) 0 = false ∧ (s.dev.page slot).checking = false := by simp [h0]
    rw [exec_disableWrite slot v hup, Nat.mod_eq_of_lt hs, Dev.ctrlWrite_disable hp hh ht h0 h1 he hrow, Dev.clearEn_of_pf _ hs]
    refine ⟨_, rfl, ?_, ?_, fun h => ?_, fun j => ?_, ?_⟩
    · rw [Dev.putOwner_frame hw]; rfl
    · exact Dev.bit_put_setBit _ (pf slot 8) 0 false (by decide)
    · rw [Dev.rg_modPage, Dev.rg_putBits _ _ _ _ (by decide) (by decide), if_pos rfl, bits_setBits_of_disjoint _ _ (by decide) (by decide)]
      exact Dev.putOwner_owner hw hs h
    · rw [Dev.page_modPage]
      change (if j = slot then { (s.dev.putOwner slot v.toNat).page slot with dirty := true } else (s.dev.putOwner slot v.toNat).page j) = _
      rw [Dev.page_putOwner hw, Dev.page_putOwner hw]
      split
      · split <;> rfl
      · rename_i hj; exact if_neg (by simp [hj])
    · exact (Dev.putOwner_regs hw).trans ((Dev.put_regs _ _ (by simp)).trans (.of_regs rfl))
  · intro v s hup h0 he hu
    rw [exec_disableWrite 1 v hup, show 1 % 4096 = 1 from rfl, Dev.ctrlWrite_rowInUse h0 he hu]
    exact ⟨_, rfl, rfl, Dev.rg_put_same _ _ _, Dev.put_regs _ _ (by simp)⟩
  · intro slot v s hdown
    exact congrArg (fun d => Host.Outcome.next { s with dev := d }) (Dev.host_of_down _ hdown)
end Sys2Proof.Proofs.Scope

namespace Sys2Proof.Machine

/-! The registers of a completion (R93, R111) -/

theorem msixPba_of_lt {vec : Nat} (fn : Nat) (h : vec < 64) : msixPba fn vec = msixPba fn 0 ∨ msixPba fn vec = msixPba fn 32 := by
  unfold msixPba; omega

theorem Dev.irq_vector_lt (d : Dev) (q : QRef) : (d.irq q).2.2.2 < 64 := by
  unfold Dev.irq
  split
  · decide
  · exact Nat.mod_lt _ (by decide)

theorem Dev.bumpQp_regs {ks : List Nat} (d : Dev) (q : QRef) {off : Nat} (h : queueReg q off 0 ∈ ks) : RegsBut ks d (d.bumpQp q off) := by
  unfold Dev.bumpQp
  split
  · exact .refl ks d
  · exact d.bump_regs 1 h

theorem Dev.sendIrq_regs (d : Dev) (q : QRef) : RegsBut (doneRegs q) d (d.sendIrq q) := by
  unfold Dev.sendIrq
  extract_lets cleared vec sent raised
  have hvec : msixPba q.tenant vec ∈ doneRegs q := by
    rcases msixPba_of_lt q.tenant (cleared.irq_vector_lt q) with h | h <;> simp [vec, h, doneRegs]
  have hraised : RegsBut (doneRegs q) d raised := RegsBut.trans (.of_regs rfl) (cleared.vector_on q.tenant vec hvec).2
  split
  · exact hraised.trans (Dev.bumpQp_regs _ _ (by simp [doneRegs]))
  · exact hraised

theorem Dev.countIrq_regs (d : Dev) (q : QRef) : RegsBut (doneRegs q) d (d.countIrq q) := by
  unfold Dev.countIrq
  dsimp only
  split
  · exact RegsBut.trans (.of_regs rfl) (Dev.sendIrq_regs _ q)
  · exact .of_regs rfl

theorem Dev.post_regs (d : Dev) (q : QRef) (noIrq : Bool) (c : Cqe) : RegsBut (doneRegs q) d (d.post q noIrq c) := by
  unfold Dev.post
  dsimp only
  split
  · exact .of_regs rfl
  · exact RegsBut.trans (.of_regs rfl) (Dev.countIrq_regs _ q)

/-- A final completion changes the counters of its queue and the pending bits of its message. -/
theorem Dev.finish_regs (d : Dev) (c : Cmd) (e : Cqe) : RegsBut (doneRegs c.q) d (d.finish c e) := by
  unfold Dev.finish
  extract_lets counted refused
  have hcounted : RegsBut (doneRegs c.q) d counted := RegsBut.trans (.of_regs rfl) (Dev.bumpQp_regs _ c.q (by simp [doneRegs]))
  have hrefused : RegsBut (doneRegs c.q) d refused := by
    unfold refused
    split
    · exact hcounted.trans (Dev.bumpQp_regs _ c.q (by simp [doneRegs]))
    · exact hcounted
  exact hrefused.trans (Dev.post_regs _ _ _ _)

/-- A completion posted after something else was sent is a completion all the same. -/
theorem Completed.of_sentOn {c : Cmd} {a b n x : Nat} {d e f : Dev} (h : SentOn d e) (g : Completed c a b n x e f) : Completed c a b n x d f := by
  obtain ⟨slot, head, phase, hs⟩ := g
  exact ⟨slot, head, phase, .of_sentOn h hs⟩

/-! Updates of one field -/

/-- Steps that each change objects alone change objects alone. -/
theorem foldl_objs {β : Type} {f : Dev → β → Dev} (h : ∀ d b, f d b = { d with objs := (f d b).objs }) (l : List β) (d : Dev) :
    l.foldl f d = { d with objs := (l.foldl f d).objs } := by
  induction l generalizing d with
  | nil => rfl
  | cons b l ih => rw [List.foldl_cons, ih (f d b), h d b]

theorem Dev.bump_frame (d : Dev) (k n : Nat) : d.bump k n = { d with regs := (d.bump k n).regs } := by
  unfold Dev.bump; split <;> rfl

/-! Refusals (R63, R76) -/

theorem Dev.rg_refuse (d : Dev) (p code k : Nat) : (d.refuse p code).rg k = if k = p * 4096 + 0x010 then code % 2 ^ 32 else d.rg k :=
  d.rg_put _ _ _

theorem Dev.countLock_regs {ks : List Nat} (d : Dev) (code : Nat) (h : pf 9 0x048 ∈ ks) : RegsBut ks d (d.countLock code) := by
  unfold Dev.countLock
  split
  · exact d.bump_regs 1 h
  · exact .refl ks d

theorem Dev.countLock_frame (d : Dev) (code : Nat) : d.countLock code = { d with regs := (d.countLock code).regs } := by
  unfold Dev.countLock
  split
  · exact d.bump_frame _ _
  · rfl

/-- The device with the reason and the place of a refusal, before counters and page. -/
def Dev.pubReason (d : Dev) (code slot : Nat) : Dev := ((d.put (pf 0 0x108) code).put (pf 0 0x10C) slot).pubBit 1 true

theorem Dev.pubRefusal_eq (d : Dev) (code slot : Nat) :
    d.pubRefusal code slot =
      if slot = 0xFFF then ((d.pubReason code slot).countLock code).countLive code
      else (((d.pubReason code slot).countLock code).countLive code).refuse slot code := rfl

/-- A refusal changes registers, and REFUSED of the page it names. -/
theorem Dev.pubRefusal_frame (d : Dev) (code slot : Nat) :
    d.pubRefusal code slot = { d with
      regs := (d.pubRefusal code slot).regs
      pages := if slot = 0xFFF then d.pages else nset d.pages slot { d.page slot with refused := true } } := by
  rw [Dev.pubRefusal_eq, Dev.countLive, Dev.bump_frame, Dev.countLock_frame]
  split <;> rfl

/-- The reason and the place stand in the registers of the device page, with REFUSED (R76). -/
theorem Dev.rg_pubRefusal (d : Dev) (code slot : Nat) {k : Nat} (h : k ∉ [slot * 4096 + 0x010, pf 9 0x048, pf 2 0x228]) :
    (d.pubRefusal code slot).rg k =
      if k = pf 0 0x104 then setBit (d.rg k) 1 true else if k = pf 0 0x10C then slot % 2 ^ 32
      else if k = pf 0 0x108 then code % 2 ^ 32 else d.rg k := by
  have hreason : (d.pubReason code slot).rg k =
      if k = pf 0 0x104 then setBit (d.rg k) 1 true else if k = pf 0 0x10C then slot % 2 ^ 32
      else if k = pf 0 0x108 then code % 2 ^ 32 else d.rg k := by
    rw [Dev.pubReason, Dev.rg_pubBit _ _ _ (by decide), Dev.rg_put, Dev.rg_put]
    split
    · rename_i hk; subst hk; rfl
    · rfl
  have hcounted : (((d.pubReason code slot).countLock code).countLive code).rg k = (d.pubReason code slot).rg k :=
    ((Dev.countLock_regs _ code (by simp)).trans (Dev.bump_regs _ _ (by simp))) k h
  rw [Dev.pubRefusal_eq]
  split
  · exact hcounted.trans hreason
  · rw [Dev.rg_refuse, if_neg fun e => h (by simp [e])]
    exact hcounted.trans hreason

/-! A publish refused (R76) -/

theorem Dev.restage_frame (d : Dev) (p : Pub) : d.restage p = { d with objs := (d.restage p).objs } :=
  foldl_objs (fun _ _ => rfl) _ _

theorem Dev.pubDone_register (d : Dev) (a b e : Nat) : d.pubDone .register a b e = d := rfl

theorem Dev.pubDone_posts (d : Dev) (src : PubSrc) (a b e : Nat) : Posts d (d.pubDone src a b e) := by
  unfold Dev.pubDone
  split
  · exact d.finishNoStrand_posts _ _ _ _ _
  · exact .refl d

theorem Dev.pubDone_regs (d : Dev) (src : PubSrc) (a b e : Nat) : RegsBut (doneRegs ⟨0, 0⟩) d (d.pubDone src a b e) := by
  unfold Dev.pubDone
  split
  · exact d.finish_regs ⟨⟨0, 0⟩, _, _, _⟩ _
  · exact .refl _ d

/-- The completion of a PUBLISH goes to the admin queue with the CID of its command (R105, R109). -/
theorem Dev.pubDone_completed (d : Dev) (cid : Nat) (noIrq : Bool) (a b e : Nat) :
    ∃ c, c.q = ⟨0, 0⟩ ∧ c.cid = cid % 65536 ∧ Completed c a b 0 e d (d.pubDone (.command cid noIrq) a b e) := by
  refine ⟨⟨⟨0, 0⟩, [cid * 65536 + b2n noIrq * 256], [], 0⟩, rfl, ?_, d.finishNoStrand_completed _ _ _ _ _⟩
  show (cid * 65536 + b2n noIrq * 256) >>> 16 % 2 ^ 16 = _
  have hb : b2n noIrq ≤ 1 := by cases noIrq <;> decide
  rw [Nat.shiftRight_eq_div_pow]
  omega

/-- The device that the completion of a refused publish finds. -/
def Dev.pubRefused (d : Dev) (p : Pub) (code slot : Nat) : Dev :=
  (((({ d with pub := none }.restage p).pubRefusal code slot).pubBit 0 false).pubBit 2 false).vector 0 2

theorem Dev.refusePub_eq (d : Dev) (p : Pub) (code slot : Nat) :
    d.refusePub p code slot = (d.pubRefused p code slot).pubDone p.src 0x10 code 0 := rfl

/-- Beside signals, a refused publish changes what is staged and the page it names. -/
theorem Dev.pubRefused_sig (d : Dev) (p : Pub) (code slot : Nat) :
    Sig { d with
      pub := none, objs := ({ d with pub := none }.restage p).objs
      pages := if slot = 0xFFF then d.pages else nset d.pages slot { d.page slot with refused := true } } (d.pubRefused p code slot) := by
  unfold Dev.pubRefused
  refine Sig.trans ?_ (Dev.vector_sig _ _ _)
  rw [Dev.pubRefusal_frame, Dev.restage_frame]
  exact ⟨_, _, _, _, _, _, rfl⟩

theorem Dev.pubRefused_sentOn (d : Dev) (p : Pub) (code slot : Nat) : SentOn d (d.pubRefused p code slot) := by
  refine SentOn.trans (.of_eq ?_) (Dev.vector_sentOn _ _ _)
  rw [Dev.pubRefusal_frame, Dev.restage_frame]
  rfl

theorem Dev.rg_pubRefused (d : Dev) (p : Pub) (code slot : Nat) {k : Nat}
    (h : k ∉ [slot * 4096 + 0x010, pf 9 0x048, pf 2 0x228, msixPba 0 2]) :
    (d.pubRefused p code slot).rg k =
      if k = pf 0 0x104 then setBit (setBit (setBit (d.rg k) 1 true) 0 false) 2 false else if k = pf 0 0x10C then slot % 2 ^ 32
      else if k = pf 0 0x108 then code % 2 ^ 32 else d.rg k := by
  have hv : k ∉ [msixPba 0 2] := fun m => h (List.mem_append_right [slot * 4096 + 0x010, pf 9 0x048, pf 2 0x228] m)
  have hr : k ∉ [slot * 4096 + 0x010, pf 9 0x048, pf 2 0x228] := fun m => h (List.mem_append_left [msixPba 0 2] m)
  have hd : ({ d with pub := none }.restage p).rg k = d.rg k := by rw [Dev.restage_frame]; rfl
  rw [Dev.pubRefused, (Dev.vector_on _ 0 2 (List.mem_singleton.mpr rfl)).2 k hv, Dev.rg_pubBit _ _ _ (by decide),
    Dev.rg_pubBit _ _ _ (by decide), Dev.rg_pubRefusal _ _ _ hr, hd]
  split <;> rfl

/-! The checks of a publish end (R75) -/

section
variable {d : Dev} {p : Pub} (hp : d.pub = some p) (hc : p.checked = false) (hd : p.due ≠ untilPrepare) (hx : d.cas.exchange = none)
  (hm : d.casPub = false)
include hp hc hd hx hm

theorem Dev.checkDone_of_pass (h : d.pubChecks p = none) : d.checkDone = { d with pub := some { p with checked := true } } := by
  simp [Dev.checkDone, hp, hc, hd, hx, hm, h]

theorem Dev.checkDone_of_fail {code slot : Nat} (h : d.pubChecks p = some (code, slot)) : d.checkDone = d.refusePub p code slot := by
  simp [Dev.checkDone, hp, hc, hd, hx, hm, h]
end

theorem exec_publishCheckDone {s : State} {d : Dev} (h : s.dev.checkDone = d) : exec .publishCheckDone s = .next { s with dev := d } := by
  rw [← h]; rfl

end Sys2Proof.Machine

namespace Sys2Proof.Proofs.Scope
open Sys2Proof.Machine

/-- The registers of the device page that report on publishes are none of those that a completion, a page's reason or a counter changes. -/
theorem pubStatus_apart {off : Nat} (h : off ∈ [0x104, 0x108, 0x10C, 0x110, 0x114]) (slot : Nat) :
    pf 0 off ∉ doneRegs ⟨0, 0⟩ ∧ pf 0 off ∉ [slot * 4096 + 0x010, pf 9 0x048, pf 2 0x228, msixPba 0 2] := by
  have hoff : off < 4096 ∧ off ≠ 0x010 ∧ pf 0 off ∉ doneRegs ⟨0, 0⟩ ∧ pf 0 off ∉ [pf 9 0x048, pf 2 0x228, msixPba 0 2] := by
    revert off; decide
  obtain ⟨hlt, hne, hdone, hrest⟩ := hoff
  refine ⟨hdone, fun m => ?_⟩
  rcases List.mem_cons.mp m with m | m
  · unfold pf at m; omega
  · exact hrest m

/-- Settles O27, from what a refused publish leaves before its completion and what the completion adds. -/
theorem publishChecked : Obligations.PublishChecked := by
  unfold Obligations.PublishChecked
  intro p s hp hc hd hx hm
  refine ⟨fun h => ?_, fun code slot h hcode hslot => ?_⟩
  · exact exec_publishCheckDone (Dev.checkDone_of_pass hp hc hd hx hm h)
  have hsig := s.dev.pubRefused_sig p code slot
  have hposts := hsig.posts.trans ((s.dev.pubRefused p code slot).pubDone_posts p.src 0x10 code 0)
  have hreg : ∀ off ∈ [0x104, 0x108, 0x10C, 0x110, 0x114],
      ((s.dev.pubRefused p code slot).pubDone p.src 0x10 code 0).rg (pf 0 off) = (s.dev.pubRefused p code slot).rg (pf 0 off) :=
    fun off ho => Dev.pubDone_regs _ _ _ _ _ _ (pubStatus_apart ho slot).1
  have hval := fun off ho => (hreg off ho).trans (s.dev.rg_pubRefused p code slot (pubStatus_apart ho slot).2)
  have hstat := hval 0x104 (by decide)
  refine ⟨_, exec_publishCheckDone ((Dev.checkDone_of_fail hp hc hd hx hm h).trans (Dev.refusePub_eq _ _ _ _)), hposts.pub, hposts.act,
    ?_, hposts.strands, hposts.row, ?_, ?_, ?_, ?_, fun hne => ⟨?_, fun j hj => ?_⟩, fun cid n hsrc => ?_, fun hsrc => ?_⟩
  · have hlo : ((s.dev.pubRefused p code slot).pubDone p.src 0x10 code 0).rg (pf 0 0x110) = s.dev.rg (pf 0 0x110) := hval 0x110 (by decide)
    have hhi : ((s.dev.pubRefused p code slot).pubDone p.src 0x10 code 0).rg (pf 0 0x110 + 4) = s.dev.rg (pf 0 0x110 + 4) :=
      hval 0x114 (by decide)
    rw [Dev.counter, Dev.rg64, hlo, hhi]; rfl
  · exact (hval 0x108 (by decide)).trans (Nat.mod_eq_of_lt hcode)
  · exact (hval 0x10C (by decide)).trans (Nat.mod_eq_of_lt hslot)
  · rw [hstat, if_pos rfl, bit_setBit_ne _ _ (by decide), bit_setBit_ne _ _ (by decide), bit_setBit]
  · rw [hstat, if_pos rfl, bit_setBit_ne _ _ (by decide), bit_setBit]
  · rw [Dev.page, hposts.pages]; simp [hne]
  · rw [Dev.page, hposts.pages]; simp [hne, nget_nset_ne _ _ hj, Dev.page]
  · rw [hsrc]
    obtain ⟨c, hq, hcid, hdone⟩ := (s.dev.pubRefused p code slot).pubDone_completed cid n 0x10 code 0
    exact ⟨c, hq, hcid, hdone.of_sentOn (s.dev.pubRefused_sentOn p code slot)⟩
  · rw [hsrc, Dev.pubDone_register]
    intro k hk
    simp only [List.mem_cons, not_or] at hk
    obtain ⟨hstat, hreason, hplace, hrest⟩ := hk
    rw [s.dev.rg_pubRefused p code slot (by simpa using hrest), if_neg hstat, if_neg hplace, if_neg hreason]
end Sys2Proof.Proofs.Scope

namespace Sys2Proof.Machine

/-! The snapshot of a COMMIT (R74, R150) -/

/-- The object shadows that entered before the present row, with the content that settled (R150). -/
def Dev.entered (d : Dev) : List (Nat × Content) :=
  d.objs.filterMap fun x => if x.2.stagedOld || x.2.stagedMid then x.2.settled.map fun c => (x.1, c) else none

/-- An object taken into a publish. -/
def Dev.stage (d : Dev) (x : Nat × Content) : Dev :=
  d.setObj x.1 { d.obj x.1 with stagedOld := false, stagedMid := false, inPublish := true }

/-- The publish that a COMMIT takes. -/
def Dev.pubNow (d : Dev) (src : PubSrc) (due : Nat) : Pub := ⟨src, d.row.number, d.shadows, d.entered, false, false, due⟩

theorem Dev.snapshot_eq (d : Dev) (src : PubSrc) (due : Nat) :
    d.snapshot src due = ({ d with objs := (d.entered.foldl Dev.stage d).objs, pub := some (d.pubNow src due) }).pubBit 0 true := by
  have hstage : d.entered.foldl Dev.stage d = { d with objs := (d.entered.foldl Dev.stage d).objs } := foldl_objs (fun _ _ => rfl) _ _
  have hdef : d.snapshot src due =
      ({ d.entered.foldl Dev.stage d with
        pub := some ⟨src, (d.entered.foldl Dev.stage d).row.number, (d.entered.foldl Dev.stage d).shadows, d.entered, false, false, due⟩
      }).pubBit 0 true := rfl
  rw [hdef, hstage]
  rfl

/-- What has entered before the present row is in the publish (R150). -/
theorem Dev.mem_entered {d : Dev} {x : Nat × Obj} {c : Content} (hx : x ∈ d.objs) (hs : x.2.stagedOld = true ∨ x.2.stagedMid = true)
    (hc : x.2.settled = some c) : (x.1, c) ∈ d.entered :=
  List.mem_filterMap.mpr ⟨x, hx, by simp [hs, hc]⟩

/-- An object taken into a publish keeps its epochs (R74). -/
theorem Dev.obj_stage_epochs (d : Dev) (x : Nat × Content) (h : Nat) :
    ((d.stage x).obj h).epochs = (d.obj h).epochs ∧ ((d.stage x).obj h).current = (d.obj h).current := by
  unfold Dev.stage
  by_cases e : h = x.1
  · rw [e, Dev.obj_setObj_same]; exact ⟨rfl, rfl⟩
  · rw [Dev.obj_setObj_ne _ _ e]; exact ⟨rfl, rfl⟩

/-- A snapshot brings no epoch into being and changes no register but DEV_PUB_STAT. -/
theorem Dev.snapshot_epochs (d : Dev) (src : PubSrc) (due h : Nat) :
    ((d.snapshot src due).obj h).epochs = (d.obj h).epochs ∧ ((d.snapshot src due).obj h).current = (d.obj h).current := by
  rw [Dev.snapshot_eq]
  exact ⟨foldl_keeps (fun d => (d.obj h).epochs) (fun d x => (d.obj_stage_epochs x h).1) _ _,
    foldl_keeps (fun d => (d.obj h).current) (fun d x => (d.obj_stage_epochs x h).2) _ _⟩

theorem Dev.snapshot_frame (d : Dev) (src : PubSrc) (due : Nat) : d.snapshot src due =
    { d with regs := (d.snapshot src due).regs, objs := (d.snapshot src due).objs, pub := some (d.pubNow src due) } := by
  rw [Dev.snapshot_eq]; rfl

theorem Dev.snapshot_regs (d : Dev) (src : PubSrc) (due : Nat) : RegsBut [pf 0 0x104] d (d.snapshot src due) := by
  rw [Dev.snapshot_eq]
  exact RegsBut.trans (.of_regs rfl) (Dev.put_regs _ _ (by simp))

/-- BUSY reads 1 from the snapshot on (R75). -/
theorem Dev.snapshot_busy (d : Dev) (src : PubSrc) (due : Nat) : bit ((d.snapshot src due).rg (pf 0 0x104)) 0 = true := by
  rw [Dev.snapshot_eq]
  exact Dev.bit_put_setBit _ _ 0 true (by decide)

/-! COMMIT (R74, R75) -/

theorem Dev.commit_of_pending {d : Dev} (src : PubSrc) (h : d.pub ≠ none) :
    d.commit src = (d.pubBit 3 true).pubDone src 0x10 0x0502 0 :=
  if_pos (Option.isSome_iff_ne_none.mpr h)

theorem Dev.commit_of_alone {d : Dev} (src : PubSrc) (h : d.pub = none) (hs : d.cas.state = 0 ∨ d.cas.state = 1) (hm : d.casMaster = false) :
    d.commit src = d.snapshot src (d.row.number + 2) := by
  have hmember : d.casMember = false := by rcases hs with hs | hs <;> simp [Dev.casMember, hs]
  have hlost : (d.cas.state == 3) = false := by rcases hs with hs | hs <;> simp [hs]
  simp [Dev.commit, h, hlost, hmember, hm]

/-- COMMIT_BUSY is set by a COMMIT that finds a publish pending (R75). -/
theorem Dev.pubBit_busy (d : Dev) : bit ((d.pubBit 3 true).rg (pf 0 0x104)) 3 = true := Dev.bit_put_setBit _ _ 3 true (by decide)

theorem exec_commit {s : State} (hup : s.dev.up = true) : exec .commit s = .next { s with dev := s.dev.commit .register } := by
  rw [← Dev.host_of_up (fun d => d.commit .register) hup]; rfl

end Sys2Proof.Machine

namespace Sys2Proof.Proofs.Scope
open Sys2Proof.Machine

/-- Settles O26, from what a snapshot takes and what it leaves. -/
theorem commitSnapshots : Obligations.CommitSnapshots := by
  unfold Obligations.CommitSnapshots
  refine ⟨?_, ?_, ?_⟩
  · intro s hup hp
    rw [exec_commit hup, Dev.commit_of_pending _ hp, Dev.pubDone_register]
    refine ⟨_, rfl, rfl, s.dev.pubBit_busy, fun n hn => ?_, Dev.put_regs _ _ (by simp)⟩
    rw [Dev.rg_pubBit _ _ _ (by decide), if_pos rfl, bit_setBit_ne _ _ (by omega)]
  · intro s hup hp hs hm
    rw [exec_commit hup, Dev.commit_of_alone _ hp hs hm]
    exact ⟨_, _, rfl, s.dev.snapshot_frame _ _, rfl, rfl, rfl, rfl, rfl, rfl, s.dev.snapshot_busy _ _,
      fun x hx c => Dev.mem_entered hx, s.dev.snapshot_epochs _ _, s.dev.snapshot_regs _ _⟩
  · intro s hdown
    exact congrArg (fun d => Host.Outcome.next { s with dev := d }) (Dev.host_of_down _ hdown)
end Sys2Proof.Proofs.Scope

namespace Sys2Proof.Machine

/-! A command that is fetched and decided at once (R97, R117, R118) -/

/-- A map filtered after a key is set, when nothing listed before passes. -/
theorem filterMap_nset {α β : Type} {m : NMap α} {f : Nat × α → Option β} (h : ∀ p ∈ m, f p = none) (k : Nat) (v : α) :
    (nset m k v).filterMap f = (f (k, v)).toList := by
  have hnone : ∀ l : NMap α, (∀ p ∈ l, f p = none) → l.filterMap f = [] := fun l hl => List.filterMap_eq_nil_iff.mpr hl
  have hset : ∀ l : NMap α, (∀ p ∈ l, f p = none) → ((k, v) :: l).filterMap f = (f (k, v)).toList := by
    intro l hl
    rw [List.filterMap_cons, hnone l hl]
    cases f (k, v) <;> rfl
  induction m with
  | nil => exact hset [] h
  | cons p m ih =>
    have hm := fun q hq => h q (List.mem_cons_of_mem p hq)
    unfold nset
    split
    · rw [List.filterMap_cons_none (h p List.mem_cons_self)]; exact ih hm
    · split
      · exact hset m hm
      · exact hset (p :: m) h

theorem Dev.fetch_posts (d : Dev) (c : Cmd) : Posts d (d.fetch c) := (d.modQp_posts _ _).trans (Dev.bumpQp_sig _ _ _).posts

theorem Posts.up {d e : Dev} (h : Posts d e) : e.up = d.up := by unfold Dev.up; rw [h.power]

theorem Dev.ready_of_empty (d : Dev) {x : Qp} (h : x.waiting = []) : d.ready x = none := by simp [Dev.ready, h]

theorem Dev.carriedFirst_singleton (d : Dev) (x : Nat × Cmd) : d.carriedFirst [x] = [x] := by
  unfold Dev.carriedFirst
  by_cases h : (x.2.row != d.row.number) = true <;> simp [h]

/-- A command fetched while none waits is the only one that may be decided. -/
theorem Dev.queuesReady_fetch {d : Dev} {c : Cmd} (hu : d.undecided = []) (hr : (d.fetch c).ready ((d.fetch c).qp c.q) = some c) :
    (d.fetch c).queuesReady = [(queueKey c.q, c)] := by
  have hqps : (d.fetch c).qps = nset d.qps (queueKey c.q) ((d.fetch c).qp c.q) := by
    unfold Dev.fetch
    rw [(Dev.bumpQp_sig _ _ _).qps, (Dev.bumpQp_sig _ _ _).qp, Dev.qp_modQp_same]
    rfl
  have hwait : ∀ p ∈ d.qps, p.2.waiting = [] := fun p hp => List.flatten_eq_nil_iff.mp hu _ (List.mem_map_of_mem hp)
  have hnone : ∀ p ∈ d.qps, (((d.fetch c).ready p.2).map fun a => (p.1, a)) = none := by
    intro p hp
    rw [Dev.ready_of_empty _ (hwait p hp), Option.map_none]
  unfold Dev.queuesReady
  rw [hqps, filterMap_nset hnone, hr]
  exact Dev.carriedFirst_singleton _ _

/-- The device as a decision finds it in a round that has not served the queue yet. -/
def Dev.takenOff (d : Dev) (key : Nat) (c : Cmd) : Dev :=
  let n := d.modQp c.q fun x => { x with waiting := x.waiting.tail }
  { n with decided := n.decided + 1, served := n.served ++ [key] }

theorem Dev.decideOne_of_valid {d : Dev} {key : Nat} {c : Cmd} (m : Perm) (h : (d.takenOff key c).validate c = none) :
    d.decideOne m key c = (d.takenOff key c).perform m c := by
  unfold Dev.takenOff at h ⊢
  simp only [Dev.decideOne, h]

/-- A queue that has been served opens the next round (R118). -/
theorem Dev.deciding_eq (d : Dev) (key : Nat) (c : Cmd) :
    d.deciding key c = if d.served.contains key then { d with served := [] }.takenOff key c else d.takenOff key c := by
  have hserved : (d.modQp c.q fun x => { x with waiting := x.waiting.tail }).served = d.served := rfl
  unfold Dev.deciding
  dsimp only
  rw [hserved]
  split <;> rfl

/-- The one command that may be decided is decided. -/
theorem Dev.decideNext_of_single {d : Dev} {key : Nat} {c : Cmd} (m : Perm) (hup : d.up = true) (hd : d.decided < 512)
    (hq : d.queuesReady = [(key, c)]) (hv : (d.deciding key c).validate c = none) :
    d.decideNext m = (d.deciding key c).perform m c := by
  unfold Dev.decideNext
  rw [if_neg (by simp [hup, hd]), hq]
  rw [Dev.deciding_eq] at hv ⊢
  by_cases hs : d.served.contains key = true
  · rw [if_pos hs] at hv ⊢
    simp only [List.find?_cons, hs, Bool.not_true, List.find?_nil]
    exact Dev.decideOne_of_valid m hv
  · rw [if_neg hs] at hv ⊢
    simp only [List.find?_cons, Bool.eq_false_iff.mpr hs, Bool.not_false]
    exact Dev.decideOne_of_valid m hv

/-- A valid command that is decided now is performed on the device that the decision finds. -/
theorem Dev.take_of_decidesNow {d n : Dev} {c : Cmd} (m : Perm) (h : d.decidesNow c) (hn : n = (d.fetch c).deciding (queueKey c.q) c)
    (hv : n.validate c = none) : d.take m c = n.perform m c := by
  obtain ⟨hup, hcan, hu, hdec, hready⟩ := h
  subst hn
  have hposts := d.fetch_posts c
  have hnext := Dev.decideNext_of_single m (hposts.up.trans hup) (hposts.decided ▸ hdec) (Dev.queuesReady_fetch hu hready) hv
  unfold Dev.take
  rw [if_neg (by simp [hup, hcan]), ← hnext]
  simp only [hu, List.isEmpty_nil, if_true]

/-! The entries of the admin queue (R101, R103, R112) -/

section
variable (d : Dev) (e : Entry) (op : Nat) (l : List Nat)

theorem Dev.cmdFor_dw0 : (d.cmdFor (e, op, l)).dw 0 = op % 256 + b2n e.noIrq * 256 + b2n e.fence * 512 + e.cid % 65536 * 65536 := rfl

theorem Dev.cmdFor_dw8 : (d.cmdFor (e, op, l)).dw 8 = l.getD 0 0 % 2 ^ 32 := rfl

theorem Dev.cmdFor_opcode : (d.cmdFor (e, op, l)).opcode = op % 256 := by
  rw [Cmd.opcode, Dev.cmdFor_dw0, bits, Nat.shiftRight_zero]
  omega

theorem Dev.cmdFor_cid : (d.cmdFor (e, op, l)).cid = e.cid % 65536 := by
  have hi : b2n e.noIrq ≤ 1 := by cases e.noIrq <;> decide
  have hf : b2n e.fence ≤ 1 := by cases e.fence <;> decide
  rw [Cmd.cid, Dev.cmdFor_dw0, bits, Nat.shiftRight_eq_div_pow]
  omega

theorem Dev.cmdFor_noIrq : (d.cmdFor (e, op, l)).noIrq = e.noIrq := by
  have hf : b2n e.fence ≤ 1 := by cases e.fence <;> decide
  rw [Cmd.noIrq, Dev.cmdFor_dw0, bit, Nat.shiftRight_eq_div_pow]
  cases e.noIrq
  · simp only [b2n, Bool.false_eq_true, if_false] at *; rw [beq_eq_false_iff_ne]; omega
  · simp only [b2n, if_true] at *; rw [beq_iff_eq]; omega
end

/-- A valid command lies in a table of its queue (R103). -/
theorem Dev.opcode_listed {d : Dev} {c : Cmd} (h : d.validate c = none) : sqeMasks (c.q.tenant == 0) c.opcode ≠ none := by
  intro hn
  unfold Dev.validate at h
  rw [hn] at h
  cases h

/-- A valid command with an opcode of the admin queue's own is on the admin queue (R105, R112). -/
theorem Dev.admin_of_valid {d : Dev} {c : Cmd} (hw : c.q.wf = true) (hop : sqeMasks false c.opcode = none) (h : d.validate c = none) :
    c.q = ⟨0, 0⟩ := by
  have hlisted := Dev.opcode_listed h
  cases hc : c.q with
  | mk tenant qp =>
    rw [hc] at hw hlisted
    by_cases ht : tenant = 0
    · subst ht
      have hqp : qp = 0 := beq_iff_eq.mp ((if_pos rfl).symm.trans hw)
      rw [hqp]
    · rw [beq_eq_false_iff_ne.mpr ht] at hlisted
      exact absurd hop hlisted

/-- A command of the admin queue reaches its decision with queues and counts of decisions changed alone. -/
theorem Dev.deciding_fetch_admin (d : Dev) {c : Cmd} (hq : c.q = ⟨0, 0⟩) (key : Nat) :
    ∃ q k v, (d.fetch c).deciding key c = { d with qps := q, decided := k, served := v } := by
  have hfetch : ∃ q, d.fetch c = { d with qps := q } := by
    unfold Dev.fetch Dev.bumpQp
    rw [hq]
    exact ⟨_, rfl⟩
  obtain ⟨q, hq⟩ := hfetch
  rw [hq]
  exact ⟨_, _, _, rfl⟩

/-! PUBLISH and RESET -/

theorem Entry.wf_queue {e : Entry} (h : e.wf = true) : e.q.wf = true ∧ e.cid < 2 ^ 16 := by
  simp only [Entry.wf, Bool.and_eq_true, decide_eq_true_eq] at h
  obtain ⟨⟨⟨⟨⟨⟨⟨hq, hcid⟩, -⟩, -⟩, -⟩, -⟩, -⟩, -⟩ := h
  exact ⟨hq, hcid⟩

theorem Dev.perform_publish (m : Perm) (d : Dev) {c : Cmd} (h : c.opcode = 0x01) : d.perform m c = d.commit (.command c.cid c.noIrq) := by
  unfold Dev.perform; rw [h]; rfl

theorem Dev.perform_reset (m : Perm) (d : Dev) {c : Cmd} (h : c.opcode = 0x02) : d.perform m c = d.doReset c := by
  unfold Dev.perform; rw [h]; rfl

theorem Dev.doReset_zero (d : Dev) {c : Cmd} (h : c.dw 8 = 0) : d.doReset c = (d.forget c.q).requestWarm 1 := if_pos h

theorem Dev.doReset_of_ne (d : Dev) {c : Cmd} (h : c.dw 8 ≠ 0) : d.doReset c = (d.forget c.q).cold 3 := if_neg h

/-- A COLD reset of a module that is up stops the row and drops strands and queues; a start waits (R484, R488). -/
theorem Dev.cold_of_up {d : Dev} {cause : Nat} (h : d.up = true) (hc : cause ≠ 1) :
    (d.cold cause).row.running = false ∧ (d.cold cause).row.number = 0 ∧ (d.cold cause).strands = [] ∧ (d.cold cause).qps = [] ∧
      (d.cold cause).power.starting = true ∧ (d.cold cause).rg (pf 8 0x124) = (2 * 2 ^ 28 + cause) % 2 ^ 32 := by
  have hup : (d.power.sag || d.power.stage != 2) = false := by
    simp only [Dev.up, Bool.and_eq_true, beq_iff_eq, Bool.not_eq_true'] at h
    simp [h]
  unfold Dev.cold
  rw [if_neg (by simp [hup])]
  extract_lets ended locked cleared _ _ _ _ _ _ fresh stamped
  rw [if_neg hc]
  have hfresh : fresh.row.running = false ∧ fresh.row.number = 0 ∧ fresh.strands = [] ∧ fresh.qps = [] ∧ fresh.power.starting = true :=
    ⟨rfl, rfl, rfl, rfl, rfl⟩
  obtain ⟨hrun, hnum, hstr, hqps, hst⟩ := hfresh
  have hsig : Sig fresh stamped := (Dev.bump_sig _ _ _).trans (Dev.put_sig _ _ _)
  have hcause : stamped.rg (pf 8 0x124) = (2 * 2 ^ 28 + cause) % 2 ^ 32 := Dev.rg_put_same _ _ _
  clear_value stamped fresh
  change stamped.row.running = false ∧ stamped.row.number = 0 ∧ stamped.strands = [] ∧ stamped.qps = [] ∧ stamped.power.starting = true ∧
    stamped.rg (pf 8 0x124) = _
  rw [hsig.row, hsig.strands, hsig.qps, hsig.power]
  exact ⟨hrun, hnum, hstr, hqps, hst, hcause⟩

/-- A WARM requested outside L2, a start and another WARM waits for the next boundary (R485). -/
theorem Dev.requestWarm_of_running {d : Dev} (cause : Nat) (hup : d.up = true) (hl : d.power.l2 = false) (hw : d.power.warm = false)
    (hc : d.power.warmCause = 0) (hs : d.inStart = false) (hr : d.row.running = true) :
    d.requestWarm cause = { d with power := { d.power with warmCause := cause } } := by
  have hsag : d.power.sag = false := by
    simp only [Dev.up, Bool.and_eq_true, beq_iff_eq, Bool.not_eq_true'] at hup
    exact hup.2
  simp [Dev.requestWarm, Dev.warmSoon, hl, hw, hc, hs, hr, hsag]

theorem exec_publish (e : Entry) {s : State} {d : Dev} (h : s.dev.take s.perm (s.dev.cmdFor (e, 0x01, [])) = d) :
    exec (.publish e) s = .next { s with dev := d } := by rw [← h]; rfl

theorem exec_reset (e : Entry) (kind : Nat) {s : State} {d : Dev} (h : s.dev.take s.perm (s.dev.cmdFor (e, 0x02, [kind])) = d) :
    exec (.reset e kind) s = .next { s with dev := d } := by rw [← h]; rfl

end Sys2Proof.Machine

namespace Sys2Proof.Proofs.Scope
open Sys2Proof.Machine

/-- Settles O36, from the device that the decision on a command of the admin queue finds. -/
theorem publishAndReset : Obligations.PublishAndReset := by
  unfold Obligations.PublishAndReset
  refine ⟨?_, ?_⟩
  · intro e c n s hwf hc hnow hn hv
    obtain ⟨hq, hcid⟩ := Entry.wf_queue hwf
    have hop : c.opcode = 0x01 := hc ▸ Dev.cmdFor_opcode _ _ _ _
    have hcid' : c.cid = e.cid := (hc ▸ Dev.cmdFor_cid _ _ _ _ : c.cid = e.cid % 65536).trans (Nat.mod_eq_of_lt hcid)
    have hirq : c.noIrq = e.noIrq := hc ▸ Dev.cmdFor_noIrq _ _ _ _
    have heq : c.q = e.q := hc ▸ rfl
    have hadmin : c.q = ⟨0, 0⟩ := Dev.admin_of_valid (heq ▸ hq) (by rw [hop]; rfl) hv
    have htake : s.dev.take s.perm (s.dev.cmdFor (e, 0x01, [])) = n.commit (.command e.cid e.noIrq) := by
      rw [← hc, Dev.take_of_decidesNow _ hnow hn hv, Dev.perform_publish _ _ hop, hcid', hirq]
    obtain ⟨q, k, v, hframe⟩ := s.dev.deciding_fetch_admin hadmin (queueKey c.q)
    rw [← hn] at hframe
    refine ⟨fun hp => ?_, fun hp hs hm => ?_⟩
    · have hpn : n.pub ≠ none := by rw [hframe]; exact hp
      rw [Dev.commit_of_pending _ hpn] at htake
      refine ⟨_, exec_publish e htake, ?_, ?_, ?_⟩
      · rw [(Dev.pubDone_posts _ _ _ _ _).pub, hframe]; rfl
      · rw [Dev.pubDone_regs _ _ _ _ _ _ (pubStatus_apart (off := 0x104) (by decide) 0).1]
        exact n.pubBit_busy
      · obtain ⟨k, hkq, hkc, hdone⟩ := (n.pubBit 3 true).pubDone_completed e.cid e.noIrq 0x10 0x0502 0
        refine ⟨k, ?_, hkc.trans (Nat.mod_eq_of_lt hcid), hdone.of_sentOn (.of_eq ?_)⟩
        · rw [hkq, ← hadmin, heq]
        · rw [hframe]; rfl
    · have hfields : n.pub = none ∧ n.cas = s.dev.cas ∧ n.casMaster = false ∧ n.row = s.dev.row ∧ n.shadows = s.dev.shadows := by
        rw [hframe]; exact ⟨hp, rfl, hm, rfl, rfl⟩
      obtain ⟨hpn, hcas, hmn, hrow, hsh⟩ := hfields
      rw [Dev.commit_of_alone _ hpn (by rw [hcas]; exact hs) hmn, hrow] at htake
      exact ⟨_, _, exec_publish e htake, n.snapshot_frame _ _, rfl, hsh, rfl, n.snapshot_busy _ _, n.snapshot_regs _ _⟩
  · intro e kind c n s hwf hc hnow hn hv
    obtain ⟨hq, -⟩ := Entry.wf_queue hwf
    have hop : c.opcode = 0x02 := hc ▸ Dev.cmdFor_opcode _ _ _ _
    have hkind : c.dw 8 = kind % 2 ^ 32 := hc ▸ Dev.cmdFor_dw8 _ _ _ _
    have hadmin : c.q = ⟨0, 0⟩ := Dev.admin_of_valid (hc ▸ hq) (by rw [hop]; rfl) hv
    have htake : s.dev.take s.perm (s.dev.cmdFor (e, 0x02, [kind])) = n.doReset c := by
      rw [← hc, Dev.take_of_decidesNow _ hnow hn hv, Dev.perform_reset _ _ hop]
    obtain ⟨q, k, v, hframe⟩ := s.dev.deciding_fetch_admin hadmin (queueKey c.q)
    rw [← hn] at hframe
    have hup : (n.forget c.q).up = true := by rw [hframe]; exact hnow.1
    refine ⟨?_, ?_⟩
    · rintro rfl hl hw hcause hs hr
      have hpower : n.power = s.dev.power := by rw [hframe]
      have hwarm : n.doReset c = { n.forget c.q with power := { n.power with warmCause := 1 } } := by
        rw [Dev.doReset_zero _ hkind]
        rw [hframe] at hup ⊢
        exact Dev.requestWarm_of_running 1 hup hl hw hcause hs hr
      rw [hwarm, hpower] at htake
      exact exec_reset e 0 htake
    · rintro rfl
      have hcold : n.doReset c = (n.forget c.q).cold 3 := Dev.doReset_of_ne _ (by rw [hkind]; decide)
      exact ⟨_, exec_reset e 1 (htake.trans hcold), Dev.cold_of_up hup (by decide)⟩
end Sys2Proof.Proofs.Scope

namespace Sys2Proof.Machine

/-! Accesses to functions that do not exist (R84, R86) -/

theorem onFn_of_ge {fn : Nat} (h : 18 ≤ fn) (s : State) (d : Dev) : onFn fn s d = .fault .noSuchFunction := if_neg (Nat.not_lt.mpr h)

theorem exec_registerWrite_of_ge {fn : Nat} (h : 18 ≤ fn) (off : Nat) (v : Word) (s : State) :
    exec (.registerWrite fn off v) s = .fault .noSuchFunction := if_neg (Nat.not_lt.mpr h)

end Sys2Proof.Machine

namespace Sys2Proof.Proofs.Scope
open Sys2Proof.Machine

/-- Settles O3: the eight commands that name a function answer through the one test of the function number. -/
theorem absentFunction : Obligations.AbsentFunction := by
  unfold Obligations.AbsentFunction
  intro fn n v s h
  have absent := fun d => onFn_of_ge h s d
  exact ⟨exec_registerWrite_of_ge h n v s, absent _, absent _, absent _, absent _, absent _, absent _, absent _⟩
end Sys2Proof.Proofs.Scope

namespace Sys2Proof.Machine

/-! The bytes of an entry (R3, R101) -/

theorem length_toLe (n v : Nat) : (toLe n v).length = n := by
  induction n generalizing v with
  | zero => rfl
  | succ n ih => exact congrArg (· + 1) (ih (v / 256))

theorem leNat_toLe (n v : Nat) : leNat (toLe n v) = v % 256 ^ n := by
  induction n generalizing v with
  | zero => rw [Nat.pow_zero, Nat.mod_one]; rfl
  | succ n ih =>
    have hbyte : (BitVec.ofNat 8 v).toNat = v % 256 := BitVec.toNat_ofNat v 8
    rw [toLe, leNat, ih, hbyte, Nat.pow_succ', Nat.mod_mul]

/-- A slice that lies at the front of two lists in a row. -/
theorem slice_append_zero (a b : List Byte) : slice (a ++ b) 0 a.length = a := by simp [slice]

theorem slice_append_add (a b : List Byte) (off n : Nat) : slice (a ++ b) (a.length + off) n = slice b off n := by
  simp [slice, List.drop_append, List.drop_eq_nil_of_le]

theorem entryBytes_cons (x : Nat) (ds : List Nat) : entryBytes (x :: ds) = toLe 4 x ++ entryBytes ds := rfl

/-- A dword of the bytes of some dwords. -/
theorem leAt_entryBytes (ds : List Nat) {i : Nat} (h : i < ds.length) : leAt (entryBytes ds) (4 * i) 4 = ds[i] % 2 ^ 32 := by
  induction ds generalizing i with
  | nil => cases h
  | cons x ds ih =>
    rw [entryBytes_cons]
    cases i with
    | zero => exact (congrArg leNat (slice_append_zero (toLe 4 x) _)).trans (leNat_toLe 4 x)
    | succ i =>
      rw [show 4 * (i + 1) = (toLe 4 x).length + 4 * i by rw [length_toLe]; omega, leAt, slice_append_add]
      exact ih (Nat.lt_of_succ_lt_succ h)

theorem length_entryBytes (ds : List Nat) : (entryBytes ds).length = 4 * ds.length := by
  induction ds with
  | nil => rfl
  | cons x ds ih =>
    rw [entryBytes_cons, List.length_append, length_toLe, ih, List.length_cons]
    omega

/-- The bytes of 16 dwords give the dwords back. -/
theorem entryDwords_entryBytes {ds : List Nat} (hl : ds.length = 16) (hd : ∀ x ∈ ds, x < 2 ^ 32) : entryDwords (entryBytes ds) = ds := by
  refine List.ext_getElem (by simp [entryDwords, hl]) fun i _ hi => ?_
  simp only [entryDwords, List.getElem_map, List.getElem_range]
  rw [leAt_entryBytes ds hi, Nat.mod_eq_of_lt (hd _ (List.getElem_mem hi))]

/-! The fields of an entry (R101) -/

theorem length_sqeOf (e : Entry) (op : Nat) (f : List Nat) : (sqeOf e op f).length = 16 := rfl

theorem b2n_le (b : Bool) : b2n b ≤ 1 := by cases b <;> decide

theorem sqeOf_lt (e : Entry) (op : Nat) (f : List Nat) : ∀ x ∈ sqeOf e op f, x < 2 ^ 32 := by
  have hi := b2n_le e.noIrq
  have hf := b2n_le e.fence
  intro x hx
  simp only [sqeOf, List.mem_append, List.mem_cons, List.mem_map, List.not_mem_nil, or_false] at hx
  rcases hx with ((rfl | rfl | rfl | rfl | rfl | rfl | rfl | rfl) | ⟨i, -, rfl⟩) | rfl <;> omega

/-- The per-command dwords of an entry stand from offset 0x20. -/
theorem sqeOf_getD (e : Entry) (op : Nat) (f : List Nat) {i : Nat} (h : i < 7) : (sqeOf e op f).getD (8 + i) 0 = f.getD i 0 % 2 ^ 32 := by
  have hi : i < ((List.range 7).map fun i => f.getD i 0 % 2 ^ 32).length := by rwa [List.length_map, List.length_range]
  rw [List.getD_eq_getElem?_getD, sqeOf, List.append_assoc, List.getElem?_append_right (Nat.le_add_right 8 i)]
  show (((List.range 7).map fun i => f.getD i 0 % 2 ^ 32) ++ [0])[8 + i - 8]?.getD 0 = _
  rw [Nat.add_sub_cancel_left, List.getElem?_append_left hi, List.getElem?_map, List.getElem?_range h]
  rfl

theorem Entry.wf_fields {e : Entry} (h : e.wf = true) :
    e.cid < 2 ^ 16 ∧ e.object < 2 ^ 32 ∧ e.inAddr < 2 ^ 64 ∧ e.inLen < 2 ^ 32 ∧ e.outLen < 2 ^ 32 ∧ e.outAddr < 2 ^ 64 := by
  simp only [Entry.wf, Bool.and_eq_true, decide_eq_true_eq] at h
  obtain ⟨⟨⟨⟨⟨⟨⟨-, hcid⟩, hobj⟩, hin⟩, hinLen⟩, houtLen⟩, hout⟩, -⟩ := h
  exact ⟨hcid, hobj, hin, hinLen, houtLen, hout⟩

theorem Dev.cmdFor_fence (d : Dev) (e : Entry) (op : Nat) (l : List Nat) : (d.cmdFor (e, op, l)).fence = e.fence := by
  have hi := b2n_le e.noIrq
  rw [Cmd.fence, Dev.cmdFor_dw0, bit, Nat.shiftRight_eq_div_pow]
  cases e.fence
  · rw [beq_eq_false_iff_ne]; simp only [b2n, Bool.false_eq_true, if_false] at *; omega
  · rw [beq_iff_eq]; simp only [b2n, if_true] at *; omega

/-- An address of 64 bits from its two dwords. -/
theorem dwords_of_address {a : Nat} (h : a < 2 ^ 64) : a % 2 ^ 32 + 2 ^ 32 * (a / 2 ^ 32 % 2 ^ 32) = a := by omega

theorem getD_lt {f : List Nat} {n : Nat} (hf : ∀ x ∈ f, x < n) (hn : 0 < n) (i : Nat) : f.getD i 0 < n := by
  rw [List.getD_eq_getElem?_getD]
  cases hx : f[i]? with
  | none => exact hn
  | some x => exact hf x (List.mem_of_getElem? hx)

end Sys2Proof.Machine

namespace Sys2Proof.Proofs.Scope
open Sys2Proof.Machine

/-- Settles O8: the 64 bytes give the 16 dwords back, and each field is read from its dwords. -/
theorem entryRoundTrip : Obligations.EntryRoundTrip := by
  unfold Obligations.EntryRoundTrip
  intro e opcode row f he hop hf c
  obtain ⟨hcid, hobj, hin, hinLen, houtLen, hout⟩ := Entry.wf_fields he
  have hsqe : c.sqe = sqeOf e opcode f := entryDwords_entryBytes (length_sqeOf e opcode f) (sqeOf_lt e opcode f)
  have hc : c = { Dev.reset with row := { Row.reset with number := row } }.cmdFor (e, opcode, f) := congrArg (Cmd.mk e.q · e.input row) hsqe
  have hdw : ∀ i, c.dw i = (sqeOf e opcode f).getD i 0 := fun i => congrArg (List.getD · i 0) hsqe
  refine ⟨?_, hsqe, ?_, ?_, ?_, ?_, ?_, ?_, ?_, ?_, ?_, fun i hi => ?_, hdw 15⟩
  · rw [length_entryBytes, length_sqeOf]
  · rw [hc, Dev.cmdFor_opcode, Nat.mod_eq_of_lt hop]
  · rw [hc, Dev.cmdFor_noIrq]
  · rw [hc, Dev.cmdFor_fence]
  · rw [hc, Dev.cmdFor_cid]; exact Nat.mod_eq_of_lt hcid
  · exact (hdw 1).trans (Nat.mod_eq_of_lt hobj)
  · rw [Cmd.inAddr, hdw, hdw]; exact dwords_of_address hin
  · exact (hdw 4).trans (Nat.mod_eq_of_lt hinLen)
  · exact (hdw 5).trans (Nat.mod_eq_of_lt houtLen)
  · rw [Cmd.outAddr, hdw, hdw]; exact dwords_of_address hout
  · rw [hdw, sqeOf_getD _ _ _ hi, Nat.mod_eq_of_lt (getD_lt hf (by decide) i)]
end Sys2Proof.Proofs.Scope

namespace Sys2Proof.Machine

/-! The fields of a completion entry (R108) -/

theorem bits_eq (w hi lo : Nat) : bits w hi lo = w / 2 ^ lo % 2 ^ (hi + 1 - lo) := by rw [bits, Nat.shiftRight_eq_div_pow]

/-- Two half-words in a dword. -/
theorem bits_halves {a b : Nat} (ha : a < 65536) (hb : b < 65536) : bits (a * 65536 + b) 31 16 = a ∧ bits (a * 65536 + b) 15 0 = b := by
  simp only [bits_eq]
  omega

/-- Dword 1 of a completion entry: flags, kind, phase and status under seven reserved bits. -/
theorem bits_status {f k p s : Nat} (hf : f < 64) (hk : k < 4) (hp : p < 2) (hs : s < 65536) :
    bits (f * 2 ^ 19 + k * 2 ^ 17 + p * 65536 + s) 31 25 = 0 ∧ bits (f * 2 ^ 19 + k * 2 ^ 17 + p * 65536 + s) 24 19 = f ∧
      bits (f * 2 ^ 19 + k * 2 ^ 17 + p * 65536 + s) 18 17 = k ∧ bits (f * 2 ^ 19 + k * 2 ^ 17 + p * 65536 + s) 16 16 = p ∧
      bits (f * 2 ^ 19 + k * 2 ^ 17 + p * 65536 + s) 15 0 = s := by
  simp only [bits_eq]
  omega

/-- Dword 2: the reason and the strand, with two reserved bits between them. -/
theorem bits_strand {r s : Nat} (hr : r < 65536) (hs : s < 16384) :
    bits (r * 65536 + s) 31 16 = r ∧ bits (r * 65536 + s) 15 14 = 0 ∧ bits (r * 65536 + s) 13 0 = s := by
  simp only [bits_eq]
  omega

theorem bit_eq_bits (w n : Nat) : bit w n = (bits w n n == 1) := by
  rw [bit, bits, Nat.add_sub_cancel_left, Nat.pow_one]

theorem b2n_beq_one (b : Bool) : (b2n b == 1) = b := by cases b <;> rfl

end Sys2Proof.Machine

namespace Sys2Proof.Proofs.Scope
open Sys2Proof.Machine

/-- Settles O9, dword by dword. -/
theorem completionLayout : Obligations.CompletionLayout := by
  unfold Obligations.CompletionLayout
  intro c sqHead phase w
  have half : ∀ n, n % 65536 < 65536 := fun n => Nat.mod_lt n (by decide)
  obtain ⟨hhead, hcid⟩ := bits_halves (half sqHead) (half c.cid)
  obtain ⟨hreserved, hflags, hkind, hphase, hstatus⟩ :=
    bits_status (Nat.mod_lt c.flags (by decide)) (Nat.mod_lt c.kind (by decide)) (Nat.lt_succ_of_le (b2n_le phase)) (half c.status)
  obtain ⟨hreason, hgap, hstrand⟩ := bits_strand (half c.reason) (Nat.mod_lt c.strand (by decide))
  obtain ⟨hdrops, hrows⟩ := bits_halves (a := min c.drops 65535) (b := min c.rows 65535) (by omega) (by omega)
  have hbit : bit (w 1) 16 = phase := by rw [bit_eq_bits]; exact (congrArg (· == 1) hphase).trans (b2n_beq_one phase)
  exact ⟨rfl, hhead, hcid, hreserved, hflags, hkind, hbit, hstatus, hreason, hgap, hstrand, rfl, rfl, hdrops, hrows, rfl, rfl⟩
end Sys2Proof.Proofs.Scope

namespace Sys2Proof.Machine

/-! The pages and registers of a queue (R93, R112) -/

theorem queueReg_of_vf {q : QRef} (h : q.tenant ≠ 0) (vfOff pfOff : Nat) :
    queueReg q vfOff pfOff = regKey q.tenant ((1 + q.qp) * 4096 + vfOff) := if_neg h

theorem Dev.bumpQp_frame (d : Dev) (q : QRef) (off : Nat) : d.bumpQp q off = { d with regs := (d.bumpQp q off).regs } := by
  unfold Dev.bumpQp
  split
  · rfl
  · exact d.bump_frame _ _

theorem Dev.rg_bumpQp (d : Dev) {q : QRef} (h : q.tenant ≠ 0) (off : Nat) :
    (d.bumpQp q off).rg (queueReg q off 0) = (d.rg (queueReg q off 0) + 1) % 2 ^ 32 := by
  rw [Dev.bumpQp, if_neg h, Dev.rg_bump, if_pos rfl]

/-! Doorbells (R96, R99, R100) -/

/-- An event of a running tenant is set (R92). -/
theorem Dev.event_bit (d : Dev) {t b : Nat} (hb : b < 32) (h : d.on (tenantPage t) = true) :
    bit ((d.event t b).rg (regKey t 0x10C)) b = true := by
  have hpba : regKey t 0x10C ≠ msixPba t 64 := by unfold msixPba regKey; split <;> omega
  rw [Dev.event, if_pos h]
  dsimp only
  split
  · exact Dev.bit_put_setBit _ _ _ _ hb
  · rw [Dev.vector_rg _ hpba]; exact Dev.bit_put_setBit _ _ _ _ hb

theorem Dev.dbError_of_vf (d : Dev) {q : QRef} (h : q.tenant ≠ 0) :
    d.dbError q = ((d.setQueueBit q 2 true).bump (regKey q.tenant 0x040) 1).event q.tenant 0 := if_neg h

/-- A rejected doorbell changes QP_STAT, and the error count and the events of the tenant (R92, R99). -/
theorem Dev.dbError_regs (d : Dev) (q : QRef) : RegsBut (queueStat q :: regKey q.tenant 0x040 :: eventRegs q.tenant) d (d.dbError q) := by
  have hstat : RegsBut (queueStat q :: regKey q.tenant 0x040 :: eventRegs q.tenant) d (d.setQueueBit q 2 true) := d.put_regs _ (by simp)
  unfold Dev.dbError
  dsimp only
  split
  · exact hstat
  · exact (hstat.trans (Dev.bump_regs _ _ (by simp))).trans (Dev.event_on _ _ _ (by simp)).2

theorem Dev.dbError_stat (d : Dev) (q : QRef) : bit ((d.dbError q).rg (queueStat q)) 2 = true := by
  have hset : bit ((d.setQueueBit q 2 true).rg (queueStat q)) 2 = true := d.bit_put_setBit _ 2 true (by decide)
  by_cases h : q.tenant = 0
  · rw [Dev.dbError, if_pos h]; exact hset
  · have hapart : queueStat q ∉ regKey q.tenant 0x040 :: eventRegs q.tenant := by
      simp only [queueStat, queueReg_of_vf h, eventRegs, msixPba, h, if_false, regKey, List.mem_cons, List.not_mem_nil, or_false]
      omega
    have hregs : RegsBut (regKey q.tenant 0x040 :: eventRegs q.tenant) (d.setQueueBit q 2 true) (d.dbError q) := by
      rw [d.dbError_of_vf h]
      exact (Dev.bump_regs _ _ (by simp)).trans (Dev.event_on _ _ _ (by simp)).2
    rw [hregs _ hapart]
    exact hset

/-- The tenant of the queue sees QP_ERR (R92, R99). -/
theorem Dev.dbError_event {d : Dev} {q : QRef} (h : q.tenant ≠ 0) (hon : d.on (tenantPage q.tenant) = true) :
    bit ((d.dbError q).rg (regKey q.tenant 0x10C)) 0 = true := by
  rw [d.dbError_of_vf h]
  refine Dev.event_bit _ (by decide) ?_
  rw [((d.setQueueBit_sig q 2 true).trans (Dev.bump_sig _ _ _)).on, hon]

section
variable {d : Dev} {q : QRef} {v : Nat}

theorem Dev.doorbells_off (h : d.queueOn q = false) : d.sqDoorbell q v = d ∧ d.cqDoorbell q v = d := by
  simp [Dev.sqDoorbell, Dev.cqDoorbell, h]

/-- An SQ tail is taken exactly when it is inside the ring and leaves at most size − 1 entries pending (R99). -/
theorem Dev.sqTailBad_iff : d.sqTailBad q v = true ↔ d.sqEntries q ≤ v ∨ d.sqEntries q - 1 <
    ((d.qp q).seenTail + d.sqEntries q - (d.qp q).head) % d.sqEntries q + (v + d.sqEntries q - (d.qp q).seenTail) % d.sqEntries q := by
  simp only [Dev.sqTailBad, Bool.or_eq_true, decide_eq_true_eq]

/-- A CQ head is taken exactly when it is inside the ring and returns only slots that have been posted (R99). -/
theorem Dev.cqHeadBad_iff : d.cqHeadBad q v = true ↔ d.cqEntries q ≤ v ∨
    (d.qp q).unreturned < (d.qp q).returning + (v + d.cqEntries q - (d.qp q).seenHead) % d.cqEntries q := by
  simp only [Dev.cqHeadBad, Bool.or_eq_true, decide_eq_true_eq]
  rfl

theorem Dev.sqDoorbell_of_bad (h : d.queueOn q = true) (hb : d.sqTailBad q v = true) : d.sqDoorbell q v = d.dbError q := by
  simp [Dev.sqDoorbell, h, hb]

theorem Dev.cqDoorbell_of_bad (h : d.queueOn q = true) (hb : d.cqHeadBad q v = true) : d.cqDoorbell q v = d.dbError q := by
  simp [Dev.cqDoorbell, h, hb]

theorem Dev.sqDoorbell_of_good (h : d.queueOn q = true) (hb : ¬d.sqTailBad q v = true) :
    d.sqDoorbell q v = (d.put (doorbellKey q false) v).modQp q fun x => { x with tailNew := some v } := by
  simp [Dev.sqDoorbell, h, hb]

theorem Dev.cqDoorbell_of_good (h : d.queueOn q = true) (hb : ¬d.cqHeadBad q v = true) :
    d.cqDoorbell q v = (d.put (doorbellKey q true) v).modQp q fun x =>
      { x with cqNew := some (v, x.returning + x.slotsTo (d.cqEntries q) v) } := by
  simp [Dev.cqDoorbell, h, hb]
end

/-- A doorbell value taken: its register holds it and the queue's entry is changed; nothing else is (R96). -/
theorem Dev.doorbell_taken (d : Dev) (q : QRef) (k : Nat) {v : Nat} (f : Qp → Qp) (hv : v < 65536) :
    (d.put k v).modQp q f = { d with regs := ((d.put k v).modQp q f).regs, qps := ((d.put k v).modQp q f).qps } ∧
      ((d.put k v).modQp q f).qp q = f (d.qp q) ∧ (∀ r, queueKey r ≠ queueKey q → ((d.put k v).modQp q f).qp r = d.qp r) ∧
      ((d.put k v).modQp q f).rg k = v ∧ RegsBut [k] d ((d.put k v).modQp q f) := by
  refine ⟨rfl, Dev.qp_modQp_same _ _ _, fun r hr => Dev.qp_modQp_ne _ _ hr, ?_, (d.put_regs v (by simp)).trans (.of_regs rfl)⟩
  rw [Dev.rg_modQp, Dev.rg_put_same, Nat.mod_eq_of_lt (by omega)]

section
variable {s : State} (hup : s.dev.up = true) (q : QRef) {v : Nat} (hv : v < 65536)
include hup hv

theorem exec_sqDoorbell : exec (.sqDoorbell q v) s = .next { s with dev := s.dev.sqDoorbell q v } := by
  show Host.Outcome.next { s with dev := s.dev.host fun d => d.sqDoorbell q (v % 65536) } = _
  rw [Dev.host_of_up _ hup, Nat.mod_eq_of_lt hv]

theorem exec_cqDoorbell : exec (.cqDoorbell q v) s = .next { s with dev := s.dev.cqDoorbell q v } := by
  show Host.Outcome.next { s with dev := s.dev.host fun d => d.cqDoorbell q (v % 65536) } = _
  rw [Dev.host_of_up _ hup, Nat.mod_eq_of_lt hv]
end

end Sys2Proof.Machine

namespace Sys2Proof.Proofs.Scope
open Sys2Proof.Machine

/-- Settles O29: a value is rejected, with the error of the queue, exactly where the model's two tests say so, and else taken. -/
theorem doorbells : Obligations.Doorbells := by
  unfold Obligations.Doorbells
  intro q v s hup hv
  have hsq := exec_sqDoorbell hup q hv
  have hcq := exec_cqDoorbell hup q hv
  refine ⟨fun hoff => ?_, fun c hon hc => ?_, fun hon hin hroom => ?_, fun hon hin hposted => ?_⟩
  · obtain ⟨hsqOff, hcqOff⟩ := Dev.doorbells_off (v := v) hoff
    rw [hsq, hcq, hsqOff, hcqOff]
    exact ⟨rfl, rfl⟩
  · have hexec : exec c s = .next { s with dev := s.dev.dbError q } := by
      rcases hc with ⟨rfl, hbad⟩ | ⟨rfl, hbad⟩
      · rw [hsq, Dev.sqDoorbell_of_bad hon (Dev.sqTailBad_iff.mpr hbad)]
      · rw [hcq, Dev.cqDoorbell_of_bad hon (Dev.cqHeadBad_iff.mpr hbad)]
    exact ⟨_, hexec, s.dev.dbError_sig q, s.dev.dbError_stat q, fun _ ht htenant => Dev.dbError_event ht htenant, s.dev.dbError_regs q⟩
  · have hgood : ¬s.dev.sqTailBad q v = true := by rw [Dev.sqTailBad_iff]; omega
    rw [hsq, Dev.sqDoorbell_of_good hon hgood]
    exact ⟨_, rfl, s.dev.doorbell_taken q _ _ hv⟩
  · have hgood : ¬s.dev.cqHeadBad q v = true := by rw [Dev.cqHeadBad_iff]; omega
    rw [hcq, Dev.cqDoorbell_of_good hon hgood]
    exact ⟨_, rfl, s.dev.doorbell_taken q _ _ hv⟩
end Sys2Proof.Proofs.Scope

namespace Sys2Proof.Machine

/-! The admin queue opened (R94, R95, R112) -/

/-- Where no lost strand of a queue waits, its enabling reports none (R504). -/
theorem Dev.postLost_of_none {d : Dev} {q : QRef} (h : ∀ l ∈ d.power.lost, l.q ≠ q) : d.postLost q = d := by
  have hmine : d.power.lost.filter (fun l => l.q == q) = [] := List.filter_eq_nil_iff.mpr fun l hl => by simpa using h l hl
  have hrest : d.power.lost.filter (fun l => l.q != q) = d.power.lost := List.filter_eq_self.mpr fun l hl => by simpa using h l hl
  rw [Dev.postLost, hmine, hrest]
  rfl

/-- Registers alone differ. -/
def RegsOnly (d e : Dev) : Prop := ∃ r, e = { d with regs := r }

theorem RegsOnly.trans {d e f : Dev} (h : RegsOnly d e) (g : RegsOnly e f) : RegsOnly d f := by
  obtain ⟨_, rfl⟩ := h
  obtain ⟨_, rfl⟩ := g
  exact ⟨_, rfl⟩

theorem Dev.put_regsOnly (d : Dev) (k v : Nat) : RegsOnly d (d.put k v) := ⟨_, rfl⟩

theorem Dev.openQueue_regsOnly (d : Dev) (q : QRef) : RegsOnly (d.setQp q Qp.fresh) (d.openQueue q) := ⟨_, rfl⟩

theorem Dev.openQueue_regs (d : Dev) (q : QRef) :
    RegsBut [doorbellKey q false, doorbellKey q true, queueStat q] d (d.openQueue q) :=
  ((RegsBut.of_regs rfl : RegsBut _ d (d.setQp q Qp.fresh)).trans (Dev.put_regs _ _ (by simp))).trans
    ((Dev.put_regs _ _ (by simp)).trans (Dev.put_regs _ _ (by simp)))

/-- ADM_CTRL granted: EN at 1, interface version major 2 and the minor that the host asks for (R90, R112). -/
def Dev.grantedCtrl (d : Dev) : Nat := (0x200 + bits (d.rg (regKey 1 0x100)) 15 0 % 256) * 65536 + 1

theorem Dev.grantedCtrl_fields (d : Dev) : d.grantedCtrl < 2 ^ 32 ∧ bit d.grantedCtrl 0 = true ∧ bits d.grantedCtrl 31 24 = 2 := by
  unfold Dev.grantedCtrl
  generalize bits (d.rg (regKey 1 0x100)) 15 0 = m
  refine ⟨by omega, ?_, by rw [bits_eq]; omega⟩
  rw [bit, beq_iff_eq, Nat.shiftRight_zero]
  omega

/-- The device with the admin queue open. -/
def Dev.adminOpened (d : Dev) : Dev := ((d.put (pf 0xC 0x11C) d.grantedCtrl).pass 0xC).openQueue ⟨0, 0⟩

/-- Beside registers, opening the admin queue changes the queue's entry alone. -/
theorem Dev.adminOpened_frame (d : Dev) : ∃ r, d.adminOpened = { d.setQp ⟨0, 0⟩ Qp.fresh with regs := r } := by
  obtain ⟨r, hpass⟩ := (d.put_regsOnly (pf 0xC 0x11C) d.grantedCtrl).trans (Dev.put_regsOnly _ (pf 0xC 0x010) 0)
  obtain ⟨r', hopen⟩ := Dev.openQueue_regsOnly { d with regs := r } ⟨0, 0⟩
  refine ⟨r', ?_⟩
  rw [Dev.adminOpened, Dev.pass, show 0xC * 4096 + 0x010 = pf 0xC 0x010 from rfl, hpass, hopen]
  rfl

section
variable {d : Dev} {v : Nat}

theorem Dev.admCtrl_close (h : bit v 0 = false) : d.admCtrl v = d.put (pf 0xC 0x11C) 0 := by simp [Dev.admCtrl, h]

theorem Dev.admCtrl_open (h : bit v 0 = true) (hoff : bit (d.rg (pf 0xC 0x11C)) 0 = false) (hlost : ∀ l ∈ d.power.lost, l.q ≠ ⟨0, 0⟩)
    (hsq : isPow2In (d.sqEntries ⟨0, 0⟩) 16 256 = true) (hcq : isPow2In (d.cqEntries ⟨0, 0⟩) 16 256 = true) :
    d.admCtrl v = d.adminOpened := by
  have hsizes : (isPow2In (bits (d.rg (pf 0xC 0x118)) 15 0) 16 256 && isPow2In (bits (d.rg (pf 0xC 0x118)) 31 16) 16 256) = true :=
    Bool.and_eq_true_iff.mpr ⟨hsq, hcq⟩
  have hopened : d.adminOpened.postLost ⟨0, 0⟩ = d.adminOpened := by
    obtain ⟨r, hr⟩ := d.adminOpened_frame
    rw [hr]
    exact Dev.postLost_of_none hlost
  rw [← hopened]
  simp only [Dev.admCtrl, h, hoff, hsizes, Bool.not_true, Bool.false_eq_true, if_false, if_true, Dev.adminOpened, Dev.grantedCtrl]

theorem Dev.admCtrl_refuse (h : bit v 0 = true) (hoff : bit (d.rg (pf 0xC 0x11C)) 0 = false)
    (hbad : isPow2In (d.sqEntries ⟨0, 0⟩) 16 256 = false ∨ isPow2In (d.cqEntries ⟨0, 0⟩) 16 256 = false) :
    d.admCtrl v = d.refuse 0xC 0x0101 := by
  have hsizes : (isPow2In (bits (d.rg (pf 0xC 0x118)) 15 0) 16 256 && isPow2In (bits (d.rg (pf 0xC 0x118)) 31 16) 16 256) = false :=
    Bool.and_eq_false_iff.mpr hbad
  simp only [Dev.admCtrl, h, hoff, hsizes, Bool.not_true, Bool.false_eq_true, if_false]
end

/-- The registers of the admin queue once it is open. -/
theorem Dev.rg_adminOpened (d : Dev) {k : Nat} (h : k ∉ [pf 0xC 0x120, pf 0xC 0x124, pf 0xC 0x128]) :
    d.adminOpened.rg k = if k = pf 0xC 0x010 then 0 else if k = pf 0xC 0x11C then d.grantedCtrl else d.rg k := by
  have hopen : d.adminOpened.rg k = ((d.put (pf 0xC 0x11C) d.grantedCtrl).pass 0xC).rg k := Dev.openQueue_regs _ ⟨0, 0⟩ k h
  have hpass : ((d.put (pf 0xC 0x11C) d.grantedCtrl).pass 0xC).rg k =
      if k = pf 0xC 0x010 then 0 % 2 ^ 32 else (d.put (pf 0xC 0x11C) d.grantedCtrl).rg k := Dev.rg_put _ _ _ _
  rw [hopen, hpass, Dev.rg_put, Nat.mod_eq_of_lt d.grantedCtrl_fields.1, Nat.zero_mod]

theorem exec_admCtrlEnable (v : Word) {s : State} (hup : s.dev.up = true) :
    exec (.admCtrlEnable v) s = .next { s with dev := s.dev.admCtrl v.toNat } := by
  rw [← Dev.host_of_up (fun d => d.admCtrl v.toNat) hup]; rfl

end Sys2Proof.Machine

namespace Sys2Proof.Proofs.Scope
open Sys2Proof.Machine

/-- Settles O28, from the three outcomes of a write of ADM_CTRL: opened, refused, closed. -/
theorem adminEnables : Obligations.AdminEnables := by
  unfold Obligations.AdminEnables
  refine ⟨fun v s hup hv hoff hlost => ⟨fun hsq hcq => ?_, fun hbad => ?_⟩, fun v s hup hv => ?_⟩
  · obtain ⟨-, hen, hversion⟩ := s.dev.grantedCtrl_fields
    have hctrl : s.dev.adminOpened.rg (pf 0xC 0x11C) = s.dev.grantedCtrl := by
      rw [s.dev.rg_adminOpened (by decide), if_neg (by decide), if_pos rfl]
    rw [exec_admCtrlEnable v hup, Dev.admCtrl_open hv hoff hlost hsq hcq]
    obtain ⟨r, hframe⟩ := s.dev.adminOpened_frame
    refine ⟨_, rfl, ?_, ?_, ?_, ?_, ?_, fun j hj => ?_, fun k hk => ?_⟩
    · rw [hframe]; rfl
    · rw [Dev.queueOn, if_pos rfl, hctrl, hen]
    · rw [hctrl, hversion]
    · rw [hframe]; exact s.dev.qp_setQp_same ⟨0, 0⟩ Qp.fresh
    · rw [s.dev.rg_adminOpened (by decide), if_pos rfl]
    · rw [hframe]; exact s.dev.qp_setQp_ne (q := ⟨0, 0⟩) Qp.fresh hj
    · simp only [List.mem_cons, not_or] at hk
      obtain ⟨hctrl', hreason, hrest⟩ := hk
      rw [s.dev.rg_adminOpened (by simpa using hrest), if_neg hreason, if_neg hctrl']
  · rw [exec_admCtrlEnable v hup, Dev.admCtrl_refuse hv hoff hbad]
    refine ⟨_, rfl, rfl, ?_, ?_, ?_, ?_⟩
    · exact (congrArg (bit · 0) (Dev.rg_refuse _ _ _ _)).trans hoff
    · exact Dev.rg_refuse _ _ _ _
    · exact congrArg Page.refused (Dev.page_modPage _ _ _ _)
    · exact (s.dev.put_regs (k := pf 0xC 0x010) 0x0101 (by simp)).trans (.of_regs rfl)
  · rw [exec_admCtrlEnable v hup, Dev.admCtrl_close hv]
    refine ⟨_, rfl, rfl, ?_, Dev.put_regs _ _ (by simp)⟩
    exact congrArg (bit · 0) (Dev.rg_put_same s.dev (pf 0xC 0x11C) 0)
end Sys2Proof.Proofs.Scope

namespace Sys2Proof.Machine

/-! Entries fetched (R97, R98) -/

theorem Dev.fetch_frame (d : Dev) (c : Cmd) : d.fetch c = { d with regs := (d.fetch c).regs, qps := (d.fetch c).qps } := by
  unfold Dev.fetch; rw [Dev.bumpQp_frame]; rfl

theorem Dev.qp_fetch (d : Dev) (c : Cmd) : (d.fetch c).qp c.q = { d.qp c.q with
    head := ((d.qp c.q).head + 1) % max 1 (d.sqEntries c.q)
    outstanding := (d.qp c.q).outstanding + 1
    waiting := (d.qp c.q).waiting ++ [c] } := by
  unfold Dev.fetch; rw [(Dev.bumpQp_sig _ _ _).qp, Dev.qp_modQp_same]

theorem Dev.qp_fetch_ne (d : Dev) {c : Cmd} {r : QRef} (h : queueKey r ≠ queueKey c.q) : (d.fetch c).qp r = d.qp r := by
  unfold Dev.fetch; rw [(Dev.bumpQp_sig _ _ _).qp, Dev.qp_modQp_ne _ _ h]

theorem Dev.fetch_regs (d : Dev) (c : Cmd) : RegsBut [queueReg c.q 0x040 0] d (d.fetch c) :=
  RegsBut.trans (.of_regs rfl) (Dev.bumpQp_regs _ _ (by simp))

theorem Dev.fetch_sentOn (d : Dev) (c : Cmd) : SentOn d (d.fetch c) := (d.modQp_sentOn _ _).trans (Dev.bumpQp_sentOn _ _ _)

theorem exec_entryFetch (q : QRef) (entry input : List Byte) (s : State) :
    exec (.entryFetch q entry input) s =
      .next { s with dev := if s.dev.up && s.dev.canFetch q then s.dev.fetch (s.dev.cmdOf q entry input) else s.dev } := rfl

end Sys2Proof.Machine

namespace Sys2Proof.Proofs.Scope
open Sys2Proof.Machine

/-- Settles O30, from what a fetch does to its queue. -/
theorem entryFetched : Obligations.EntryFetched := by
  unfold Obligations.EntryFetched
  intro q entry input s
  rw [exec_entryFetch]
  refine ⟨fun hup hcan => ?_, fun h => ?_⟩
  · rw [if_pos (by simp [hup, hcan])]
    exact ⟨_, rfl, s.dev.fetch_frame _, s.dev.qp_fetch (s.dev.cmdOf q entry input),
      fun r => s.dev.qp_fetch_ne (c := s.dev.cmdOf q entry input), s.dev.fetch_regs (s.dev.cmdOf q entry input)⟩
  · rw [if_neg (by rcases h with h | h <;> simp [h])]
end Sys2Proof.Proofs.Scope

namespace Sys2Proof.Machine

/-! The delay of a message (R93, R111) -/

/-- The device with the count of entries toward a queue's message cleared. -/
def Dev.countCleared (d : Dev) (q : QRef) : Dev := d.modQp q fun x => { x with irqPending := 0 }

theorem Dev.qp_countCleared (d : Dev) (q : QRef) : (d.countCleared q).qp q = { d.qp q with irqPending := 0 } := d.qp_modQp_same q _

theorem Dev.qp_countCleared_ne (d : Dev) {q r : QRef} (h : queueKey r ≠ queueKey q) : (d.countCleared q).qp r = d.qp r := d.qp_modQp_ne _ h

section
variable {d : Dev} {q : QRef}

theorem Dev.sendIrq_unmasked (h : bit (d.rg (msixCtrl q.tenant (d.irq q).2.2.2)) 0 = false) :
    d.sendIrq q = ((d.countCleared q).emit (.msix q.tenant (d.irq q).2.2.2)).bumpQp q 0x050 := by
  have hcleared : bit ((d.countCleared q).rg (msixCtrl q.tenant ((d.countCleared q).irq q).2.2.2)) 0 = false := h
  simp only [Dev.countCleared] at hcleared
  simp only [Dev.sendIrq, Dev.vector, hcleared, Bool.not_false, Bool.false_eq_true, if_false, if_true]
  rfl

theorem Dev.sendIrq_masked (h : bit (d.rg (msixCtrl q.tenant (d.irq q).2.2.2)) 0 = true) :
    d.sendIrq q = (d.countCleared q).put (msixPba q.tenant (d.irq q).2.2.2)
      (setBit ((d.countCleared q).rg (msixPba q.tenant (d.irq q).2.2.2)) ((d.irq q).2.2.2 % 32) true) := by
  have hcleared : bit ((d.countCleared q).rg (msixCtrl q.tenant ((d.countCleared q).irq q).2.2.2)) 0 = true := h
  simp only [Dev.countCleared] at hcleared
  simp only [Dev.sendIrq, Dev.vector, hcleared, Bool.not_true, Bool.false_eq_true, if_false, if_true]
  rfl

theorem Dev.irqDelay_eq : d.irqDelay q =
    if (d.up && (d.irq q).2.2.1 && decide (0 < (d.qp q).irqPending) && decide ((d.qp q).irqRow + (d.irq q).2.1 < d.row.number)) = true
    then d.sendIrq q else d := rfl

theorem Dev.irqDelay_of_due (hup : d.up = true) (hen : (d.irq q).2.2.1 = true) (hp : 0 < (d.qp q).irqPending)
    (hrow : (d.qp q).irqRow + (d.irq q).2.1 < d.row.number) : d.irqDelay q = d.sendIrq q := by
  rw [Dev.irqDelay_eq, if_pos]
  simp only [hup, hen, hp, hrow, decide_true, Bool.and_self]

theorem Dev.irqDelay_of_idle (h : d.up = false ∨ (d.irq q).2.2.1 = false ∨ (d.qp q).irqPending = 0 ∨
    d.row.number ≤ (d.qp q).irqRow + (d.irq q).2.1) : d.irqDelay q = d := by
  rw [Dev.irqDelay_eq, if_neg]
  simp only [Bool.and_eq_true, decide_eq_true_eq]
  rintro ⟨⟨⟨hup, hen⟩, hp⟩, hrow⟩
  rcases h with h | h | h | h
  · rw [hup] at h; cases h
  · rw [hen] at h; cases h
  · omega
  · omega
end

theorem exec_irqDelayExpiry (q : QRef) (s : State) : exec (.irqDelayExpiry q) s = .next { s with dev := s.dev.irqDelay q } := rfl

end Sys2Proof.Machine

namespace Sys2Proof.Proofs.Scope
open Sys2Proof.Machine

/-- Settles O32, by the mask of the queue's vector. -/
theorem irqDelayed : Obligations.IrqDelayed := by
  unfold Obligations.IrqDelayed
  refine ⟨?_, ?_, ?_⟩
  · intro q s hup hen hp hrow hmask
    rw [exec_irqDelayExpiry, Dev.irqDelay_of_due hup hen hp hrow, Dev.sendIrq_unmasked hmask]
    have hsig := ((s.dev.countCleared q).emit_sig (.msix q.tenant (s.dev.irq q).2.2.2)).trans (Dev.bumpQp_sig _ q 0x050)
    refine ⟨_, rfl, ?_, ?_, fun r hr => ?_, ?_, fun _ ht => ?_, ?_⟩
    · rw [Dev.bumpQp_frame]; rfl
    · rw [hsig.qp]; exact s.dev.qp_countCleared q
    · rw [hsig.qp]; exact s.dev.qp_countCleared_ne hr
    · exact (Dev.bumpQp_sentOn _ _ _).sends ((s.dev.countCleared q).emit_sends _)
    · exact Dev.rg_bumpQp _ ht _
    · exact RegsBut.trans (.of_regs rfl) (Dev.bumpQp_regs _ _ (by simp))
  · intro q s hup hen hp hrow hmask
    rw [exec_irqDelayExpiry, Dev.irqDelay_of_due hup hen hp hrow, Dev.sendIrq_masked hmask]
    exact ⟨_, rfl, rfl, s.dev.qp_countCleared q, fun r => s.dev.qp_countCleared_ne,
      Dev.bit_put_setBit _ _ _ _ (Nat.mod_lt _ (by decide)), RegsBut.trans (.of_regs rfl) (Dev.put_regs _ _ (by simp))⟩
  · intro q s h
    rw [exec_irqDelayExpiry, Dev.irqDelay_of_idle h]
end Sys2Proof.Proofs.Scope

namespace Sys2Proof.Machine

/-! A queue pair disabled (R95) -/

theorem QRef.wf_iff_of_vf {q : QRef} (h : q.tenant ≠ 0) : q.wf = true ↔ q.tenant ≤ 16 ∧ q.qp < 64 := by
  simp only [QRef.wf, h, if_false, Bool.and_eq_true, decide_eq_true_eq]

/-- The page of a VF's queue pair and the queue of that page (R90, R93). -/
theorem queuePage_of_vf {q : QRef} (hw : q.wf = true) (ht : q.tenant ≠ 0) :
    4096 ≤ queuePage q ∧ pageInfo (queuePage q) = some (0x31, q.qp) ∧ pageQueue (queuePage q) = some q := by
  obtain ⟨hfn, hqp⟩ := (QRef.wf_iff_of_vf ht).mp hw
  have hpage : queuePage q = q.tenant * 4096 + (1 + q.qp) := if_neg ht
  have hdiv : queuePage q / 4096 = q.tenant := by omega
  have hmod : queuePage q % 4096 = 1 + q.qp := by omega
  refine ⟨by omega, ?_, ?_⟩
  · simp only [pageInfo, hdiv, hmod, ht, hfn, vfSlot, if_false, if_true]
    rw [if_neg (by omega), if_pos (by omega), Nat.add_sub_cancel_left]
  · simp only [pageQueue, hdiv, hmod]
    rw [if_pos (by simp only [Bool.and_eq_true, decide_eq_true_eq]; omega), Nat.add_sub_cancel_left]

/-- PG_CTRL, QP_STAT and the registers of completions of a queue pair are apart. -/
theorem queueRegs_apart {q : QRef} (hw : q.wf = true) (ht : q.tenant ≠ 0) :
    queuePage q * 4096 + 8 ≠ queueStat q ∧ queuePage q * 4096 + 8 ∉ doneRegs q ∧ queueStat q ∉ doneRegs q := by
  obtain ⟨-, hqp⟩ := (QRef.wf_iff_of_vf ht).mp hw
  have hpage : queuePage q = q.tenant * 4096 + (1 + q.qp) := if_neg ht
  simp only [doneRegs, queueStat, queueReg_of_vf ht, hpage, regKey, msixPba, ht, if_false, List.mem_cons, List.not_mem_nil, or_false]
  omega

theorem Dev.clearEn_of_queue {d : Dev} {p : Nat} {q : QRef} (hp : 4096 ≤ p) (hq : pageQueue p = some q) (hr : (d.page p).running = true) :
    d.clearEn p = (d.putBits (p * 4096 + 8) 0 0 0).drain q := by
  unfold Dev.clearEn
  rw [if_neg (Nat.not_lt.mpr hp), hq]
  exact if_pos hr

theorem exec_qpDisable {q : QRef} (ht : q.tenant ≠ 0) {s : State} (hup : s.dev.up = true) :
    exec (.qpDisable q) s = .next { s with dev := s.dev.ctrlWrite (queuePage q) 0 } := by
  show Host.Outcome.next { s with dev := s.dev.host fun d => if q.tenant = 0 then d else d.ctrlWrite (queuePage q) 0 } = _
  rw [Dev.host_of_up _ hup, if_neg ht]

/-! What a completion leaves of the queues (R97) -/

/-- Only one queue is served, and its undecided commands stay. -/
def Serves (q : QRef) (d e : Dev) : Prop :=
  (e.qp q).waiting = (d.qp q).waiting ∧ ∀ r, queueKey r ≠ queueKey q → e.qp r = d.qp r

theorem Serves.trans {q : QRef} {d e f : Dev} (h : Serves q d e) (g : Serves q e f) : Serves q d f :=
  ⟨g.1.trans h.1, fun r hr => (g.2 r hr).trans (h.2 r hr)⟩

theorem Sig.serves {d e : Dev} (h : Sig d e) (q : QRef) : Serves q d e := ⟨by rw [h.qp], fun r _ => h.qp r⟩

theorem Dev.modQp_serves (d : Dev) (q : QRef) {f : Qp → Qp} (h : ∀ x, (f x).waiting = x.waiting) : Serves q d (d.modQp q f) :=
  ⟨by rw [Dev.qp_modQp_same, h], fun _ hr => Dev.qp_modQp_ne _ _ hr⟩

theorem Dev.sendIrq_serves (d : Dev) (q : QRef) : Serves q d (d.sendIrq q) := by
  have hcleared : Serves q d (d.countCleared q) := d.modQp_serves q fun _ => rfl
  unfold Dev.sendIrq
  dsimp only
  split
  · exact hcleared.trans (((Dev.vector_sig _ _ _).trans (Dev.bumpQp_sig _ _ _)).serves q)
  · exact hcleared.trans ((Dev.vector_sig _ _ _).serves q)

theorem Dev.countIrq_serves (d : Dev) (q : QRef) : Serves q d (d.countIrq q) := by
  unfold Dev.countIrq
  dsimp only
  split
  · exact (d.modQp_serves q (by intro; rfl)).trans (Dev.sendIrq_serves _ q)
  · exact d.modQp_serves q (by intro; rfl)

theorem Dev.post_serves (d : Dev) (q : QRef) (noIrq : Bool) (c : Cqe) : Serves q d (d.post q noIrq c) := by
  unfold Dev.post
  extract_lets x emitted wrap posted
  have hposted : Serves q d posted := ((d.emit_sig _).serves q).trans (emitted.modQp_serves q fun _ => rfl)
  split
  · exact hposted
  · exact hposted.trans (posted.countIrq_serves q)

theorem Dev.finish_serves (d : Dev) (c : Cmd) (e : Cqe) : Serves c.q d (d.finish c e) := by
  unfold Dev.finish
  extract_lets counted refused
  have hcounted : Serves c.q d counted := (d.modQp_serves c.q (by intro; rfl)).trans ((Dev.bumpQp_sig _ _ _).serves c.q)
  have hrefused : Serves c.q d refused := by
    unfold refused
    split
    · exact hcounted.trans ((Dev.bumpQp_sig _ _ _).serves c.q)
    · exact hcounted
  exact hrefused.trans (Dev.post_serves _ _ _ _)

/-! Completions one after the other -/

theorem Completed.sentOn {c : Cmd} {a b n x : Nat} {d e : Dev} (h : Completed c a b n x d e) : SentOn d e := by
  obtain ⟨-, -, -, l, h, -⟩ := h
  exact ⟨l, h⟩

/-- A completion stands when more is sent. -/
theorem Completed.then_sentOn {c : Cmd} {a b n x : Nat} {d e f : Dev} (g : Completed c a b n x d e) (h : SentOn e f) :
    Completed c a b n x d f := by
  obtain ⟨slot, head, phase, hs⟩ := g
  exact ⟨slot, head, phase, h.sends hs⟩

/-- Commands completed without a strand, in order. -/
def Dev.finishAll (d : Dev) (status : Nat) (cs : List Cmd) : Dev := cs.foldl (fun d c => d.finishNoStrand c status 0 0 0) d

theorem Dev.finishAll_posts (d : Dev) (status : Nat) (cs : List Cmd) : Posts d (d.finishAll status cs) :=
  Posts.foldl _ (fun d c => d.finishNoStrand_posts c status 0 0 0) cs d

theorem Dev.finishAll_sentOn (d : Dev) (status : Nat) (cs : List Cmd) : SentOn d (d.finishAll status cs) := by
  induction cs generalizing d with
  | nil => exact .refl d
  | cons c cs ih => exact (d.finishNoStrand_completed c status 0 0 0).sentOn.trans (ih _)

/-- Each of the commands has its completion. -/
theorem Dev.finishAll_completed (d : Dev) (status : Nat) {cs : List Cmd} {c : Cmd} (h : c ∈ cs) :
    Completed c status 0 0 0 d (d.finishAll status cs) := by
  induction cs generalizing d with
  | nil => cases h
  | cons b cs ih =>
    have hfirst := d.finishNoStrand_completed b status 0 0 0
    rcases List.mem_cons.mp h with rfl | h
    · exact hfirst.then_sentOn (Dev.finishAll_sentOn _ _ _)
    · exact (ih _ h).of_sentOn hfirst.sentOn

section
variable {q : QRef} {cs : List Cmd} (hq : ∀ c ∈ cs, c.q = q)
include hq

theorem Dev.finishAll_serves (d : Dev) (status : Nat) : Serves q d (d.finishAll status cs) := by
  induction cs generalizing d with
  | nil => exact (Sig.refl d).serves q
  | cons c cs ih =>
    obtain ⟨rfl, hcs⟩ := List.forall_mem_cons.mp hq
    exact (d.finish_serves c _).trans (ih hcs _)

theorem Dev.finishAll_regs (d : Dev) (status : Nat) : RegsBut (doneRegs q) d (d.finishAll status cs) := by
  induction cs generalizing d with
  | nil => exact .refl _ d
  | cons c cs ih =>
    obtain ⟨rfl, hcs⟩ := List.forall_mem_cons.mp hq
    exact (d.finish_regs c _).trans (ih hcs _)
end

/-! The drain (R95) -/

/-- The device as a drain begins: DISABLING set and no command undecided in the queue. -/
def Dev.drainBegun (d : Dev) (q : QRef) : Dev := (d.modQp q fun x => { x with waiting := [] }).setQueueBit q 1 true

theorem Dev.drain_eq (d : Dev) (q : QRef) : d.drain q = (d.drainBegun q).finishAll 0x14 (d.qp q).waiting := rfl

/-- The device as QP_DISABLE leaves it before the completions: EN at 0 and a drain begun. -/
def Dev.disabled (d : Dev) (q : QRef) : Dev := (d.putBits (queuePage q * 4096 + 8) 0 0 0).drainBegun q

/-- EN of a running queue pair written from 1 to 0: the queue drains (R95). -/
theorem Dev.ctrlWrite_queue {d : Dev} {q : QRef} (hw : q.wf = true) (ht : q.tenant ≠ 0) (hr : (d.page (queuePage q)).running = true)
    (he : bit (d.rg (queuePage q * 4096 + 8)) 0 = true) :
    d.ctrlWrite (queuePage q) 0 = (d.disabled q).finishAll 0x14 (d.qp q).waiting := by
  obtain ⟨hp, hinfo, hqueue⟩ := queuePage_of_vf hw ht
  rw [Dev.ctrlWrite_disable hinfo (by decide) (by decide) (by decide) (by decide) he (by omega), Dev.putOwner_of_fixed _ _ (.inl hp),
    Dev.clearEn_of_queue hp hqueue hr, Dev.drain_eq]
  rfl

theorem Dev.disabled_posts (d : Dev) (q : QRef) : Posts d (d.disabled q) :=
  ((d.putBits_sig _ _ _ _).posts.trans (Dev.modQp_posts _ q _)).trans (Dev.put_sig _ _ _).posts

theorem Dev.disabled_sentOn (d : Dev) (q : QRef) : SentOn d (d.disabled q) := .of_eq rfl

theorem Dev.disabled_regs (d : Dev) (q : QRef) : RegsBut [queuePage q * 4096 + 8, queueStat q] d (d.disabled q) :=
  (d.put_regs _ (by simp)).trans (RegsBut.trans (.of_regs rfl) (Dev.put_regs _ _ (by simp)))

theorem Dev.disabled_draining (d : Dev) (q : QRef) : bit ((d.disabled q).rg (queueStat q)) 1 = true :=
  Dev.bit_put_setBit _ _ 1 true (by decide)

theorem Dev.disabled_enable (d : Dev) {q : QRef} (h : queuePage q * 4096 + 8 ≠ queueStat q) :
    bit ((d.disabled q).rg (queuePage q * 4096 + 8)) 0 = false := by
  rw [Dev.disabled, Dev.drainBegun, Dev.setQueueBit, Dev.rg_put_ne _ _ h, Dev.rg_modQp]
  exact d.bit_put_setBit _ 0 false (by decide)

theorem Dev.qp_disabled (d : Dev) (q : QRef) : (d.disabled q).qp q = { d.qp q with waiting := [] } :=
  d.qp_modQp_same q fun x => { x with waiting := [] }

theorem Dev.qp_disabled_ne (d : Dev) {q r : QRef} (h : queueKey r ≠ queueKey q) : (d.disabled q).qp r = d.qp r :=
  d.qp_modQp_ne (fun x => { x with waiting := [] }) h

/-- The device once a drain has ended. -/
def Dev.drainEnded (d : Dev) (q : QRef) : Dev :=
  (d.setQueueBit q 1 false).modPage (queuePage q) fun x => { x with running := false }

theorem Dev.drainDone_of_ended {d : Dev} {q : QRef} (h : d.draining q = true) (ho : (d.qp q).outstanding = 0) :
    d.drainDone q = d.drainEnded q := by
  simp [Dev.drainDone, Dev.drainEnded, h, ho]

theorem Dev.drainDone_of_open {d : Dev} {q : QRef} (h : d.draining q = false ∨ (d.qp q).outstanding ≠ 0) : d.drainDone q = d := by
  rcases h with h | h <;> simp [Dev.drainDone, h]

theorem exec_qpDrainDone (q : QRef) (s : State) : exec (.qpDrainDone q) s = .next { s with dev := s.dev.drainDone q } := rfl

end Sys2Proof.Machine

namespace Sys2Proof.Proofs.Scope
open Sys2Proof.Machine

/-- Settles O24: the drain begins with DISABLING set, and its completions leave that register, EN and the emptied queue as they are. -/
theorem queueDisabled : Obligations.QueueDisabled := by
  unfold Obligations.QueueDisabled
  refine ⟨?_, ?_, ?_⟩
  · intro q s hw ht hup hr he hq
    obtain ⟨hctrlStat, hctrlDone, hstatDone⟩ := queueRegs_apart hw ht
    rw [exec_qpDisable ht hup, Dev.ctrlWrite_queue hw ht hr he]
    obtain ⟨hwait, hother⟩ := Dev.finishAll_serves hq (s.dev.disabled q) 0x14
    have hregs := Dev.finishAll_regs hq (s.dev.disabled q) 0x14
    refine ⟨_, rfl, (s.dev.disabled_posts q).trans (Dev.finishAll_posts _ _ _), ?_, ?_, ?_, fun c hc => ?_, fun r hr => ?_, fun k hk => ?_⟩
    · exact hwait.trans (congrArg Qp.waiting (s.dev.qp_disabled q))
    · rw [hregs _ hctrlDone]; exact s.dev.disabled_enable hctrlStat
    · rw [Dev.draining, hregs _ hstatDone]; exact s.dev.disabled_draining q
    · exact (Dev.finishAll_completed _ _ hc).of_sentOn (s.dev.disabled_sentOn q)
    · exact (hother r hr).trans (s.dev.qp_disabled_ne hr)
    · simp only [List.mem_cons, not_or] at hk
      obtain ⟨hctrl, hstat, hdone⟩ := hk
      rw [hregs k hdone, s.dev.disabled_regs q k (by simp [hctrl, hstat])]
  · intro q s hd ho
    rw [exec_qpDrainDone, Dev.drainDone_of_ended hd ho]
    refine ⟨_, rfl, rfl, ?_, ?_, fun j hj => ?_, ?_⟩
    · exact Dev.bit_put_setBit s.dev (queueStat q) 1 false (by decide)
    · rw [Dev.drainEnded, Dev.page_modPage, if_pos rfl]
    · rw [Dev.drainEnded, Dev.page_modPage, if_neg hj]; rfl
    · exact (s.dev.put_regs (k := queueStat q) _ (by simp)).trans (.of_regs rfl)
  · intro q s h
    rw [exec_qpDrainDone, Dev.drainDone_of_open h]
end Sys2Proof.Proofs.Scope

namespace Sys2Proof.Machine

/-! What a decision does (R103, R117, R122) -/

/-- What becomes of a command on the device that its decision finds: refused with the first failure, or performed (R103). -/
def Dev.outcome (m : Perm) (d : Dev) (c : Cmd) : Dev :=
  match d.validate c with
  | some code => d.refuseCmd c code 0
  | none => d.perform m c

theorem Dev.outcome_of_invalid {d : Dev} {c : Cmd} {code : Nat} (m : Perm) (h : d.validate c = some code) :
    d.outcome m c = d.refuseCmd c code 0 := by
  rw [Dev.outcome, h]

theorem Dev.outcome_of_valid {d : Dev} {c : Cmd} (m : Perm) (h : d.validate c = none) : d.outcome m c = d.perform m c := by
  rw [Dev.outcome, h]

theorem Dev.decideOne_eq (m : Perm) (d : Dev) (key : Nat) (c : Cmd) : d.decideOne m key c = (d.takenOff key c).outcome m c := rfl

/-- The command whose turn it is in the rounds is decided (R117, R118). -/
theorem Dev.decideNext_of_next {d : Dev} {key : Nat} {c : Cmd} (m : Perm) (hup : d.up = true) (hd : d.decided < 512)
    (hn : d.nextDecision = some (key, c)) : d.decideNext m = (d.deciding key c).outcome m c := by
  have hgo : ¬(!d.up || decide (512 ≤ d.decided)) = true := by simp [hup, hd]
  unfold Dev.decideNext
  rw [if_neg hgo]
  unfold Dev.nextDecision at hn
  dsimp only
  cases hf : d.queuesReady.find? fun x => !d.served.contains x.1 with
  | some x =>
    rw [hf] at hn
    cases hn
    have hfresh : d.served.contains key = false := by simpa using List.find?_some hf
    dsimp only
    rw [Dev.decideOne_eq, Dev.deciding_eq, hfresh, if_neg (by decide)]
  | none =>
    rw [hf, Option.none_or] at hn
    obtain ⟨rest, hall⟩ := List.head?_eq_some_iff.mp hn
    have hserved : d.served.contains key = true := by
      have hevery := List.find?_eq_none.mp hf (key, c) (by simp [hall])
      simpa using hevery
    rw [hall]
    dsimp only
    rw [Dev.decideOne_eq, Dev.deciding_eq, if_pos hserved]

/-- Where nothing may be decided, nothing changes (R117). -/
theorem Dev.decideNext_of_idle {d : Dev} (m : Perm) (h : d.up = false ∨ 512 ≤ d.decided ∨ d.nextDecision = none) : d.decideNext m = d := by
  by_cases hgo : (!d.up || decide (512 ≤ d.decided)) = true
  · exact if_pos hgo
  · have hnone : d.nextDecision = none := by
      rcases h with h | h | h
      · simp [h] at hgo
      · simp [h] at hgo
      · exact h
    obtain ⟨hf, hhead⟩ := Option.or_eq_none_iff.mp hnone
    unfold Dev.decideNext
    rw [if_neg hgo]
    dsimp only
    rw [hf, List.head?_eq_none_iff.mp hhead]

/-- A command that is decided now meets its outcome on the device that the decision finds. -/
theorem Dev.take_outcome {d : Dev} {c : Cmd} (m : Perm) (h : d.decidesNow c) :
    d.take m c = ((d.fetch c).deciding (queueKey c.q) c).outcome m c := by
  obtain ⟨hup, hcan, hu, hdec, hready⟩ := h
  have hposts := d.fetch_posts c
  have hnext : (d.fetch c).nextDecision = some (queueKey c.q, c) := by
    unfold Dev.nextDecision
    rw [Dev.queuesReady_fetch hu hready, List.find?_singleton]
    split <;> rfl
  rw [← Dev.decideNext_of_next m (hposts.up.trans hup) (hposts.decided ▸ hdec) hnext]
  simp [Dev.take, hup, hcan, hu]

theorem Dev.take_of_closed {d : Dev} {c : Cmd} (m : Perm) (h : d.up = false ∨ d.canFetch c.q = false) : d.take m c = d := by
  rcases h with h | h <;> simp [Dev.take, h]

/-- Behind another undecided command a command waits (R97, R117). -/
theorem Dev.take_of_behind {d : Dev} {c : Cmd} (m : Perm) (hup : d.up = true) (hcan : d.canFetch c.q = true) (hu : d.undecided ≠ []) :
    d.take m c = d.fetch c := by
  simp [Dev.take, hup, hcan, hu]

/-! Refusals, no-ops and admissions (R106, R113, R121, R122) -/

theorem Dev.event_sentOn (d : Dev) (t b : Nat) : SentOn d (d.event t b) := by
  unfold Dev.event
  split
  · dsimp only
    split
    · exact d.put_sentOn _ _
    · exact (d.put_sentOn _ _).trans (Dev.vector_sentOn _ _ _)
  · exact .refl d

theorem Dev.tenantFault_sentOn (d : Dev) (t off n : Nat) : SentOn d (d.tenantFault t off n) := by
  unfold Dev.tenantFault
  split
  · exact .refl d
  · exact (d.bump_sentOn _ _).trans (Dev.event_sentOn _ _ _)

theorem Dev.countRefusal_sentOn (d : Dev) (c : Cmd) (code r : Nat) : SentOn d (d.countRefusal c code r) := by
  unfold Dev.countRefusal
  extract_lets counted p noted quota
  have hcounted : SentOn d counted := (d.bump_sentOn _ _).trans (Dev.bump_sentOn _ _ _)
  have hquota : SentOn d quota := by
    have hnoted : SentOn d noted := hcounted.trans ((Dev.bump_sentOn _ _ _).trans (Dev.put_sentOn _ _ _))
    unfold quota
    split
    · exact hnoted.trans (Dev.bump_sentOn _ _ _)
    · exact hnoted
  split
  · exact hcounted
  · split
    · exact hquota.trans (Dev.tenantFault_sentOn _ _ _ _)
    · exact hquota

theorem Dev.refuseCmd_completed (d : Dev) (c : Cmd) (code r : Nat) : Completed c 0x10 code 0 0 d (d.refuseCmd c code r) :=
  (Dev.finishNoStrand_completed _ c 0x10 code 0 0).of_sentOn (d.countRefusal_sentOn c code r)

/-- A command with a class makes a strand or ends without one (R105, R113). -/
theorem Dev.perform_work (m : Perm) (d : Dev) {c : Cmd} (h : c.makesStrand = true) : d.perform m c = d.decideWork c := by
  unfold Dev.perform
  split
  case h_7 => rfl
  all_goals
    rename_i hop
    rw [Cmd.makesStrand, hop] at h
    exact absurd h (by decide)

theorem Dev.bump_regsOnly (d : Dev) (k n : Nat) : RegsOnly d (d.bump k n) := ⟨_, d.bump_frame k n⟩

theorem Dev.takePasses_frame (d : Dev) (c : Cmd) (owned : List Bool) : ∃ l, d.takePasses c owned = { d with lanes := l } := by
  unfold Dev.takePasses
  split <;> exact ⟨_, rfl⟩

theorem Dev.takeMarkers_frame (d : Dev) (l : List Nat) (h : Holder) : ∃ m, d.takeMarkers l h = { d with markers := m } := by
  induction l generalizing d with
  | nil => exact ⟨_, rfl⟩
  | cons i l ih =>
    obtain ⟨m, hm⟩ := ih (d.setMarker i ⟨0, 0, 0, h⟩)
    exact ⟨m, hm⟩

/-- An admission enters one strand; beside it registers, passes and markers change (R113 to R116, R122, R413). -/
theorem Dev.admitStrand_frame (d : Dev) (c : Cmd) (p : Plan) (owned : List Bool) :
    ∃ r l m x, d.admitStrand c p owned = { d with regs := r, lanes := l, markers := m, strands := nset d.strands d.freeId x } ∧
      x.cmd = c ∧ x.state = 1 ∧ x.admitRow = d.row.number ∧ x.counter = d.counter ∧ x.foot = p.foot ∧ x.owned = owned ∧
      x.pins = d.pinsOf p.pins ∧ x.markers = d.freeMarkers p.foot.markers ∧ x.start = d.row.number + 1 ∧ x.drops = 0 ∧ x.final = none := by
  unfold Dev.admitStrand
  extract_lets id ms x passed entered counted tenant
  obtain ⟨l, hpassed⟩ := d.takePasses_frame c owned
  obtain ⟨m, hentered⟩ := Dev.takeMarkers_frame { passed with strands := nset passed.strands id x } ms (.strand id c.q.tenant)
  have htenant : RegsOnly entered tenant := by
    have hcounted : RegsOnly entered counted := entered.bump_regsOnly _ _
    unfold tenant
    split
    · exact hcounted
    · exact hcounted.trans (counted.bump_regsOnly _ _)
  have hend : ∀ e, RegsOnly entered e → ∃ r, e = { d with regs := r, lanes := l, markers := m, strands := nset d.strands id x } := by
    rintro e ⟨r, rfl⟩
    refine ⟨r, ?_⟩
    rw [show entered = _ from hentered, show passed = _ from hpassed]
  have hfields : x.cmd = c ∧ x.state = 1 ∧ x.admitRow = d.row.number ∧ x.counter = d.counter ∧ x.foot = p.foot ∧ x.owned = owned ∧
      x.pins = d.pinsOf p.pins ∧ x.markers = d.freeMarkers p.foot.markers ∧ x.start = d.row.number + 1 ∧ x.drops = 0 ∧ x.final = none :=
    ⟨rfl, rfl, rfl, rfl, rfl, rfl, rfl, rfl, rfl, rfl, rfl⟩
  split
  · split
    · obtain ⟨r, hr⟩ := hend _ (htenant.trans (tenant.bump_regsOnly _ _))
      exact ⟨r, l, m, x, hr, hfields⟩
    · obtain ⟨r, hr⟩ := hend _ htenant
      exact ⟨r, l, m, x, hr, hfields⟩
  · obtain ⟨r, hr⟩ := hend _ htenant
    exact ⟨r, l, m, x, hr, hfields⟩

/-- A command admitted holds what the decision gave it (R113, R114, R122, R128, R154). -/
theorem Dev.admitStrand_admitted (d : Dev) (c : Cmd) (p : Plan) (owned : List Bool) : Admitted c p owned d (d.admitStrand c p owned) := by
  obtain ⟨r, l, m, x, he, hx⟩ := d.admitStrand_frame c p owned
  rw [he]
  exact ⟨⟨x, nget_nset_same _ _ _, hx⟩, fun id hid => nget_nset_ne _ _ hid, ⟨_, _, _, _, _, _, _, _, _, _, _, rfl⟩, rfl, rfl⟩

/-- The three ends of a decision on a valid command with a class (R106, R121, R122). -/
theorem Dev.outcome_of_work {n : Dev} {c : Cmd} (m : Perm) (hv : n.validate c = none) (hs : c.makesStrand = true) :
    (n.judge c = .noop → Posts n (n.outcome m c) ∧ Completed c 0 0 0 0 n (n.outcome m c)) ∧
      (∀ code r, n.judge c = .refuse code r → Posts n (n.outcome m c) ∧ Completed c 0x10 code 0 0 n (n.outcome m c)) ∧
      (∀ p owned, n.judge c = .accept p owned → Admitted c p owned n (n.outcome m c)) := by
  rw [Dev.outcome_of_valid m hv, Dev.perform_work m n hs, Dev.decideWork]
  refine ⟨fun h => ?_, fun code r h => ?_, fun p owned h => ?_⟩ <;> rw [h]
  · exact ⟨n.finishNoStrand_posts _ _ _ _ _, n.finishNoStrand_completed _ _ _ _ _⟩
  · exact ⟨n.refuseCmd_posts c code r, n.refuseCmd_completed c code r⟩
  · exact n.admitStrand_admitted c p owned

/-- The end of a decision on a command that fails validation (R103, R122). -/
theorem Dev.outcome_refused {n : Dev} {c : Cmd} {code : Nat} (m : Perm) (hv : n.validate c = some code) :
    Posts n (n.outcome m c) ∧ Completed c 0x10 code 0 0 n (n.outcome m c) := by
  rw [Dev.outcome_of_invalid m hv]
  exact ⟨n.refuseCmd_posts c code 0, n.refuseCmd_completed c code 0⟩

theorem exec_commandDecision (s : State) : exec .commandDecision s = .next { s with dev := s.dev.decideNext s.perm } := rfl

end Sys2Proof.Machine

namespace Sys2Proof.Proofs.Scope
open Sys2Proof.Machine

/-- Settles O31, from the outcome of the command whose turn it is. -/
theorem commandDecided : Obligations.CommandDecided := by
  unfold Obligations.CommandDecided
  refine ⟨?_, fun s h => ?_⟩
  · rintro key c n s hup hd hnext rfl
    rw [exec_commandDecision, Dev.decideNext_of_next s.perm hup hd hnext]
    refine ⟨fun code hv => ⟨_, rfl, Dev.outcome_refused s.perm hv⟩, fun hv hs => ?_⟩
    obtain ⟨hnoop, hrefuse, haccept⟩ := Dev.outcome_of_work s.perm hv hs
    exact ⟨fun h => ⟨_, rfl, hnoop h⟩, fun code r h => ⟨_, rfl, hrefuse code r h⟩, fun p owned h => ⟨_, rfl, haccept p owned h⟩⟩
  · rw [exec_commandDecision, Dev.decideNext_of_idle s.perm h]
end Sys2Proof.Proofs.Scope

namespace Sys2Proof.Machine

/-! The commands of the queues (R105, R515) -/

/-- Each command of a queue is fetched as its entry, opcode and dwords say. -/
theorem exec_of_queued {i : Instr} {x : Entry × Nat × List Nat} (h : queued i = some x) (s : State) :
    exec i s = .next { s with dev := s.dev.take s.perm (s.dev.cmdFor x) } := by
  unfold queued at h
  split at h
  case h_24 => cases h
  all_goals
    cases h
    rfl

/-- What was sent before a command is fetched and decided stands. -/
theorem Dev.deciding_fetch_sentOn (d : Dev) (c : Cmd) (key : Nat) : SentOn d ((d.fetch c).deciding key c) :=
  (d.fetch_sentOn c).trans (.of_eq rfl)

theorem Dev.deciding_fetch_strands (d : Dev) (c : Cmd) (key : Nat) :
    ((d.fetch c).deciding key c).strands = d.strands ∧ ((d.fetch c).deciding key c).markers = d.markers :=
  ⟨(d.fetch_posts c).strands, (d.fetch_posts c).markers⟩

end Sys2Proof.Machine

namespace Sys2Proof.Proofs.Scope
open Sys2Proof.Machine

/-- Settles O33, from where a command stands when it is taken: not fetched, behind another, or alone and refused. -/
theorem commandTaken : Obligations.CommandTaken := by
  unfold Obligations.CommandTaken
  rintro i x c s hi rfl
  rw [exec_of_queued hi]
  refine ⟨fun h => ?_, fun hup hcan hu => ?_, fun hnow code hv => ?_⟩
  · rw [Dev.take_of_closed s.perm h]
  · rw [Dev.take_of_behind s.perm hup hcan hu]
  · rw [Dev.take_outcome s.perm hnow]
    obtain ⟨hposts, hdone⟩ := Dev.outcome_refused s.perm hv
    obtain ⟨hstrands, hmarkers⟩ := s.dev.deciding_fetch_strands (s.dev.cmdFor x) (queueKey (s.dev.cmdFor x).q)
    exact ⟨_, rfl, hposts, hdone.of_sentOn (s.dev.deciding_fetch_sentOn _ _), hposts.strands.trans hstrands, hposts.markers.trans hmarkers⟩

/-- Settles O34, from the three ends of a decision. -/
theorem strandCommands : Obligations.StrandCommands := by
  unfold Obligations.StrandCommands
  rintro i x c n s hi hop rfl hnow rfl hv
  have hs : (s.dev.cmdFor x).makesStrand = true := by
    rw [makesStrandOp, Cmd.makesStrand] at hop
    rw [Cmd.makesStrand, Dev.cmdFor_opcode]
    exact hop
  rw [exec_of_queued hi, Dev.take_outcome s.perm hnow]
  obtain ⟨hnoop, hrefuse, haccept⟩ := Dev.outcome_of_work s.perm hv hs
  have hsent := s.dev.deciding_fetch_sentOn (s.dev.cmdFor x) (queueKey (s.dev.cmdFor x).q)
  refine ⟨fun h => ?_, fun code r h => ?_, fun p owned h => ⟨_, rfl, haccept p owned h⟩⟩
  · obtain ⟨hposts, hdone⟩ := hnoop h
    exact ⟨_, rfl, hposts, hdone.of_sentOn hsent⟩
  · obtain ⟨hposts, hdone⟩ := hrefuse code r h
    exact ⟨_, rfl, hposts, hdone.of_sentOn hsent⟩
end Sys2Proof.Proofs.Scope

namespace Sys2Proof.Machine

/-! Aborts and unpicks (R105, R107, R423) -/

theorem Dev.cmdFor_dw9 (d : Dev) (e : Entry) (op : Nat) (l : List Nat) : (d.cmdFor (e, op, l)).dw 9 = l.getD 1 0 % 2 ^ 32 := rfl

theorem Dev.perform_abort (m : Perm) (d : Dev) {c : Cmd} (h : c.opcode = 0x04 ∨ c.opcode = 0x28) :
    d.perform m c = { d with aborts := d.aborts ++ [c.abortOf] } := by
  unfold Dev.perform
  rcases h with h | h <;> rw [h] <;> rfl

theorem Dev.perform_unpick (m : Perm) (d : Dev) {c : Cmd} (h : c.opcode = 0x29) :
    d.perform m c = { d with unpicks := d.unpicks ++ [(c, bits (c.dw 8) 11 0, c.dw 9)] } := by
  unfold Dev.perform
  rw [h]
  rfl

/-- The low bits of a dword hold a number that they have room for. -/
theorem bits_low {v n : Nat} (hn : n < 32) (h : v < 2 ^ (n + 1)) : bits (v % 2 ^ 32) n 0 = v := by
  have hfits : 2 ^ (n + 1) ≤ 2 ^ 32 := Nat.pow_le_pow_right (by decide) hn
  rw [Nat.mod_eq_of_lt (by omega), bits, Nat.shiftRight_zero, Nat.sub_zero, Nat.mod_eq_of_lt h]

theorem Cmd.abortOf_any {c : Cmd} (h : c.opcode = 0x04) : c.abortOf = (c, some (bits (c.dw 8) 13 0), none) := if_pos h

/-- What ABORT names: a strand, or a queue pair and CID of its own tenant (R105). -/
theorem Cmd.abortOf_own {c : Cmd} (h : c.opcode = 0x28) : c.abortOf =
    if bit (c.dw 8) 24 then (c, some (bits (c.dw 9) 13 0), none)
    else (c, none, some (⟨c.q.tenant, bits (c.dw 8) 21 16⟩, bits (c.dw 8) 15 0)) := if_neg (by rw [h]; decide)

/-- The first dword of ABORT: whether it names a strand, the queue pair and the CID (R105). -/
theorem abortWord_fields (b : Bool) {qp cid : Nat} (hq : qp < 64) (hc : cid < 65536) :
    let w := (b2n b * 2 ^ 24 + qp % 64 * 65536 + cid % 65536) % 2 ^ 32
    bit w 24 = b ∧ bits w 21 16 = qp ∧ bits w 15 0 = cid := by
  have hb := b2n_le b
  have hfields : ∀ n, n ≤ 1 → (n * 2 ^ 24 + qp % 64 * 65536 + cid % 65536) % 2 ^ 32 / 2 ^ 24 % 2 ^ 1 = n ∧
      (n * 2 ^ 24 + qp % 64 * 65536 + cid % 65536) % 2 ^ 32 / 2 ^ 16 % 2 ^ 6 = qp ∧
      (n * 2 ^ 24 + qp % 64 * 65536 + cid % 65536) % 2 ^ 32 / 2 ^ 0 % 2 ^ 16 = cid := by omega
  obtain ⟨hbit, hqp, hcid⟩ := hfields (b2n b) hb
  intro w
  refine ⟨?_, (bits_eq w 21 16).trans hqp, (bits_eq w 15 0).trans hcid⟩
  rw [bit_eq_bits, bits_eq]
  exact (congrArg (· == 1) hbit).trans (b2n_beq_one b)

/-- A valid command taken from its queue and decided at once is performed on the device that its decision finds. -/
theorem exec_of_decided {i : Instr} {x : Entry × Nat × List Nat} {c : Cmd} {n : Dev} {s : State} (hi : queued i = some x)
    (hc : c = s.dev.cmdFor x) (hnow : s.dev.decidesNow c) (hn : n = (s.dev.fetch c).deciding (queueKey c.q) c) (hv : n.validate c = none) :
    exec i s = .next { s with dev := n.perform s.perm c } := by
  rw [exec_of_queued hi, ← hc, Dev.take_of_decidesNow s.perm hnow hn hv]

end Sys2Proof.Machine

namespace Sys2Proof.Proofs.Scope
open Sys2Proof.Machine

/-- Settles O35, from the operands that the dwords of each command hold. -/
theorem headCommands : Obligations.HeadCommands := by
  unfold Obligations.HeadCommands
  intro e s _
  refine ⟨?_, ?_, ?_⟩
  · intro strand c n hc hnow hn hv hstrand
    have hop : c.opcode = 0x04 := hc ▸ Dev.cmdFor_opcode _ _ _ _
    have hdw : c.dw 8 = strand % 2 ^ 32 := hc ▸ Dev.cmdFor_dw8 _ _ _ _
    rw [exec_of_decided (i := .abortAny e strand) rfl hc hnow hn hv, Dev.perform_abort _ _ (.inl hop), Cmd.abortOf_any hop, hdw,
      bits_low (by decide) hstrand]
  · intro byStrand qp cid strand c n hc hnow hn hv hstrand hqp hcid
    have hop : c.opcode = 0x28 := hc ▸ Dev.cmdFor_opcode _ _ _ _
    have hdw8 : c.dw 8 = _ := hc ▸ Dev.cmdFor_dw8 _ _ _ _
    have hdw9 : c.dw 9 = strand % 2 ^ 32 := hc ▸ Dev.cmdFor_dw9 _ _ _ _
    have hq : c.q = e.q := hc ▸ rfl
    obtain ⟨hby, hpair, hid⟩ := abortWord_fields byStrand hqp hcid
    rw [exec_of_decided (i := .abort e byStrand qp cid strand) rfl hc hnow hn hv, Dev.perform_abort _ _ (.inr hop), Cmd.abortOf_own hop,
      hdw8, hdw9, hq, List.getD_cons_zero, hby, hpair, hid, bits_low (by decide) hstrand]
  · intro marker value c n hc hnow hn hv hmarker hvalue
    have hop : c.opcode = 0x29 := hc ▸ Dev.cmdFor_opcode _ _ _ _
    have hdw8 : c.dw 8 = marker % 2 ^ 32 := hc ▸ Dev.cmdFor_dw8 _ _ _ _
    have hdw9 : c.dw 9 = value % 2 ^ 32 := hc ▸ Dev.cmdFor_dw9 _ _ _ _
    rw [exec_of_decided (i := .markerUnpick e marker value) rfl hc hnow hn hv, Dev.perform_unpick _ _ hop, hdw8, hdw9,
      bits_low (by decide) hmarker, Nat.mod_eq_of_lt hvalue]
end Sys2Proof.Proofs.Scope

namespace Sys2Proof.Machine

/-! Results of index jobs (R195, R233) -/

/-- What a finished job brings into the shadow: a build's result or a merge's (R229). -/
def Job.result (j : Job) (base c : Content) : Content := if j.build then buildResult j.params base c else mergeResult base c

@[simp] theorem Dev.obj_bump (d : Dev) (k n h : Nat) : (d.bump k n).obj h = d.obj h := by simp [Dev.obj]

/-- A content that enters an object of which no granule is damaged marks none as written (R195). -/
theorem Obj.rewrites_of_undamaged {n : Obj} (hn : n.damaged = []) (h row : Nat) (o : Obj) (covered : List Nat) :
    o.rewrites h row n covered = n := by
  cases n
  cases hn
  simp [Obj.rewrites]

/-- A result whose base epoch is newer than every foreign write enters the object as a write does, and marks the damaged granules that it
rewrites (R195, R233). -/
theorem Dev.obj_finishJob {d : Dev} {h : Nat} {j : Job} {b : Epoch} (hj : d.jobs.find? (fun x => x.handle == h && x.state == 2) = some j)
    (hb : (d.obj h).epoch j.base = some b) (hbudget : bits (d.inForce (pf 4 0x200)) 11 0 ≠ 0)
    (hfresh : ∀ r, (d.obj h).foreign = some r → r < b.commitRow) :
    (d.finishJob h).obj h =
      { (d.obj h).rewrites h d.row.number ((d.obj h).enter (j.result b.content (d.obj h).base)) [] with foreign := some d.row.number } := by
  have hrow (p n : Nat) : (d.bumpUnitK p 0x054 n).passFree.row = d.row := by
    obtain ⟨_, _, _, _, _, _, _, _, _, _, _, he⟩ := (d.bumpUnitK_works p 0x054 n).trans (Dev.passFree_works _)
    rw [he]
  unfold Dev.finishJob
  simp only [hj, hb, if_neg hbudget]
  rw [if_neg, Dev.obj_bump, Dev.obj_setObj_same, hrow]
  · rfl
  · split
    · rename_i r hr
      exact fun hstale => absurd (of_decide_eq_true hstale) (Nat.not_le.mpr (hfresh r hr))
    · exact Bool.false_ne_true

/-- Where no granule of the object is damaged a result enters it exactly as a write does (R233). -/
theorem Dev.obj_finishJob_of_undamaged {d : Dev} {h : Nat} {j : Job} {b : Epoch}
    (hj : d.jobs.find? (fun x => x.handle == h && x.state == 2) = some j) (hb : (d.obj h).epoch j.base = some b)
    (hbudget : bits (d.inForce (pf 4 0x200)) 11 0 ≠ 0) (hfresh : ∀ r, (d.obj h).foreign = some r → r < b.commitRow)
    (hdamaged : (d.obj h).damaged = []) :
    (d.finishJob h).obj h = { (d.obj h).enter (j.result b.content (d.obj h).base) with foreign := some d.row.number } := by
  rw [Dev.obj_finishJob hj hb hbudget hfresh, Obj.rewrites_of_undamaged (n := (d.obj h).enter _) hdamaged]

end Sys2Proof.Machine

namespace Sys2Proof.Proofs.Scope
open Sys2Proof.Machine

/-- A graph index of tenant 3. -/
def graphHandle : Nat := 0x01030005

/-- Its one epoch: a record of dimension 4 in the sprout, and granule 0 damaged. -/
def damagedEpoch : Epoch := ⟨4, 0, ⟨[(0x44, 4#8)], ⟨[], [], [⟨7, 0, 1, [], [1, 2, 3, 4], [], false⟩]⟩⟩, 0, 6, [0]⟩

/-- A merge of that index that runs from the damaged epoch. -/
def runningMerge : Job := ⟨graphHandle, false, [], 2, 4, 0, 0⟩

/-- A module with that index and that merge. -/
def mergeOverDamage : State :=
  { State.reset with dev := { Dev.reset with
      objs := [(graphHandle, { Obj.blank with epochs := [damagedEpoch], current := true, damaged := [0] })], jobs := [runningMerge] } }

/-- The merge empties the sprout, so it rewrites granule 0 of the home copy, and the object marks that granule as written. -/
theorem mergeOverDamage_marks :
    ((mergeOverDamage.dev.obj graphHandle).rewrites graphHandle 0
      ((mergeOverDamage.dev.obj graphHandle).enter
        (runningMerge.result damagedEpoch.content (mergeOverDamage.dev.obj graphHandle).base)) []).repaired = [(0, 0)] := by
  decide +kernel

/-- Refutes O45: the statement has a result enter the shadow and change nothing else of its object but the row of the last foreign write. On
`mergeOverDamage` the result rewrites a damaged granule, which the object also marks as written (R195). Where no granule is damaged that clause
holds (`Dev.obj_finishJob_of_undamaged`). -/
theorem not_jobsAndSlices : ¬ Obligations.JobsAndSlices := by
  unfold Obligations.JobsAndSlices
  rintro ⟨-, -, -, jobResult, -⟩
  have hbudget : bits (mergeOverDamage.dev.inForce (pf 4 0x200)) 11 0 ≠ 0 := by decide +kernel
  have hfresh : ∀ r, (mergeOverDamage.dev.obj graphHandle).foreign = some r → r < damagedEpoch.commitRow := fun _ hr => nomatch hr
  obtain ⟨e, he, -, entered, -⟩ := jobResult graphHandle runningMerge damagedEpoch mergeOverDamage rfl rfl hbudget
  obtain ⟨hobj, -⟩ := entered hfresh
  have hdev : mergeOverDamage.dev.finishJob graphHandle = e := dev_eq_of_next he
  have hrepaired := congrArg Obj.repaired hobj
  rw [← hdev, Dev.obj_finishJob rfl rfl hbudget hfresh] at hrepaired
  cases mergeOverDamage_marks.symm.trans hrepaired
end Sys2Proof.Proofs.Scope

namespace Sys2Proof.Machine

/-! Signals of markers (R415 to R419) -/

/-- A wait on marker i that the value v meets (R419). -/
def waitMet (i v : Nat) (x : Input) : Bool :=
  match x.src with
  | .marker j t _ => j == i && markerMet v t
  | _ => false

theorem waitMet_eq_false {i v : Nat} {x : Input} : waitMet i v x = false ↔ ∀ t w, x.src = .marker i t w → markerMet v t = false := by
  unfold waitMet
  split
  case h_1 j t w hsrc =>
    rw [hsrc, Bool.and_eq_false_imp]
    constructor
    · intro h t' w' he
      injection he with hj ht
      exact ht ▸ h (beq_iff_eq.mpr hj)
    · exact fun h hj => h t w (by rw [beq_iff_eq.mp hj])
  case h_2 hother => exact iff_of_true rfl fun t w he => absurd he (hother i t w)

/-- A slot once marker i has the value v: a running stitch waits no longer where the value is met. -/
def Slot.woken (i v : Nat) (a : Slot) : Slot := if a.phase = 1 then { a with inputs := a.inputs.filter fun x => !waitMet i v x } else a

theorem Slot.woken_of_running {a : Slot} (i v : Nat) (h : a.phase = 1) :
    a.woken i v = { a with inputs := a.inputs.filter fun x => !waitMet i v x } := if_pos h

theorem Slot.woken_of_idle {a : Slot} (i v : Nat) (h : a.phase ≠ 1) : a.woken i v = a := if_neg h

/-- The inputs alone of a slot change, and only the waits that the value meets leave a running one (R419). -/
theorem Slot.woken_inputs (i v : Nat) (a : Slot) :
    ∃ l, a.woken i v = { a with inputs := l } ∧ (a.phase ≠ 1 → l = a.inputs) ∧
      (a.phase = 1 → ∀ x, x ∈ l ↔ x ∈ a.inputs ∧ ∀ t w, x.src = .marker i t w → markerMet v t = false) := by
  by_cases h : a.phase = 1
  · refine ⟨_, a.woken_of_running i v h, absurd h, fun _ x => ?_⟩
    rw [List.mem_filter, Bool.not_eq_true', waitMet_eq_false]
  · exact ⟨a.inputs, a.woken_of_idle i v h, fun _ => rfl, fun g => absurd g h⟩

/-- The outstanding waits on marker i that its value meets. -/
def Dev.metWaits (d : Dev) (i : Nat) : Nat :=
  sumNat (d.row.slots.map fun a => if a.phase = 1 then (a.inputs.filter (waitMet i (d.marker i).value)).length else 0)

/-- The device with the slots that the value of marker i wakes. -/
def Dev.wakeSlots (d : Dev) (i : Nat) : Dev := { d with row := { d.row with slots := d.row.slots.map (Slot.woken i (d.marker i).value) } }

theorem Dev.wake_eq (d : Dev) (i : Nat) :
    d.wake i = ((d.wakeSlots i).waiters i (· - d.metWaits i)).bumpMarkerK i 0x044 (d.metWaits i) := rfl

theorem Dev.waiters_of_held {d : Dev} {i : Nat} (f : Nat → Nat) (h : (d.marker i).holder ≠ .free) :
    d.waiters i f = d.setMarker i { d.marker i with waiters := f (d.marker i).waiters % 65536 } := if_neg h

@[simp] theorem Dev.marker_bumpMarker (d : Dev) (i off n j : Nat) : (d.bumpMarker i off n).marker j = d.marker j := (d.bump_sig _ _).marker j
@[simp] theorem Dev.marker_bumpMarkerK (d : Dev) (i off n j : Nat) : (d.bumpMarkerK i off n).marker j = d.marker j := (d.bumpK_sig _ _).marker j
@[simp] theorem Dev.row_bumpMarker (d : Dev) (i off n : Nat) : (d.bumpMarker i off n).row = d.row := (d.bump_sig _ _).row
@[simp] theorem Dev.row_bumpMarkerK (d : Dev) (i off n : Nat) : (d.bumpMarkerK i off n).row = d.row := (d.bumpK_sig _ _).row

/-- The waits that end leave the marker's count of waiters, and nothing else of the marker changes (R412, R419). -/
theorem Dev.marker_wake_same {d : Dev} {i : Nat} (h : (d.marker i).holder ≠ .free) :
    (d.wake i).marker i = { d.marker i with waiters := ((d.marker i).waiters - d.metWaits i) % 65536 } := by
  rw [Dev.wake_eq, Dev.marker_bumpMarkerK, Dev.waiters_of_held (d := d.wakeSlots i) _ h, Dev.marker_setMarker_same]
  rfl

theorem Dev.marker_wake_ne {d : Dev} {i j : Nat} (h : (d.marker i).holder ≠ .free) (hj : j ≠ i) : (d.wake i).marker j = d.marker j := by
  rw [Dev.wake_eq, Dev.marker_bumpMarkerK, Dev.waiters_of_held (d := d.wakeSlots i) _ h, Dev.marker_setMarker_ne _ _ hj]
  rfl

theorem Dev.slots_wake {d : Dev} {i : Nat} (h : (d.marker i).holder ≠ .free) :
    (d.wake i).row.slots = d.row.slots.map (Slot.woken i (d.marker i).value) := by
  rw [Dev.wake_eq, Dev.row_bumpMarkerK, Dev.waiters_of_held (d := d.wakeSlots i) _ h, Dev.setMarker_row]
  rfl

/-- What a signal of a marker can change: registers, remainders of counters, markers and the slots of the row. -/
def MarkerWork (d e : Dev) : Prop := ∃ r p m l, e = { d with regs := r, part := p, markers := m, row := { d.row with slots := l } }

theorem MarkerWork.trans {d e f : Dev} (h : MarkerWork d e) (g : MarkerWork e f) : MarkerWork d f := by
  obtain ⟨_, _, _, _, rfl⟩ := h
  obtain ⟨_, _, _, _, rfl⟩ := g
  exact ⟨_, _, _, _, rfl⟩

theorem MarkerWork.eq {d e : Dev} (h : MarkerWork d e) :
    e = { d with regs := e.regs, part := e.part, markers := e.markers, row := { d.row with slots := e.row.slots } } := by
  obtain ⟨_, _, _, _, rfl⟩ := h
  rfl

theorem RegsOnly.markerWork {d e : Dev} (h : RegsOnly d e) : MarkerWork d e := by
  obtain ⟨_, rfl⟩ := h
  exact ⟨_, _, _, _, rfl⟩

theorem Dev.setMarker_markerWork (d : Dev) (i : Nat) (m : Marker) : MarkerWork d (d.setMarker i m) := ⟨_, _, _, _, rfl⟩

theorem Dev.bumpMarkerK_markerWork (d : Dev) (i off n : Nat) : MarkerWork d (d.bumpMarkerK i off n) :=
  (d.bump_regsOnly _ _).markerWork.trans ⟨_, _, _, _, rfl⟩

theorem Dev.wake_markerWork {d : Dev} {i : Nat} (h : (d.marker i).holder ≠ .free) : MarkerWork d (d.wake i) := by
  have hslots : MarkerWork d (d.wakeSlots i) := ⟨_, _, _, _, rfl⟩
  rw [Dev.wake_eq, Dev.waiters_of_held (d := d.wakeSlots i) _ h]
  exact (hslots.trans (Dev.setMarker_markerWork _ _ _)).trans (Dev.bumpMarkerK_markerWork _ _ _ _)

/-- Waking counts the waits that ended, and no other register changes (R426). -/
theorem Dev.wake_regs {d : Dev} {i : Nat} (h : (d.marker i).holder ≠ .free) : RegsBut [pf (0x30 + i / 1024) 0x044] d (d.wake i) := by
  rw [Dev.wake_eq, Dev.waiters_of_held (d := d.wakeSlots i) _ h]
  exact (RegsBut.of_regs rfl).trans (Dev.bumpK_on _ _ (List.mem_singleton_self _)).2

/-- The value that a signal gives a marker (R415). -/
def Marker.signalled (m : Marker) (add : Bool) (operand : Nat) : Nat := if add then (m.value + operand) % 2 ^ 32 else operand % 2 ^ 32

/-- A signal's value, signaller and counts, before it wakes the stitches that wait. -/
def Dev.applySignal (d : Dev) (i : Nat) (add : Bool) (operand last : Nat) (met : Bool) : Dev :=
  ((d.setMarker i { d.marker i with value := (d.marker i).signalled add operand, last := last }).bumpMarkerK i 0x040 1).bumpMarker i 0x04C
    (b2n (!add && met))

section
variable (d : Dev) (i : Nat) (add : Bool) (operand last : Nat) (met : Bool)

theorem Dev.signal_eq : d.signal i add operand last met = (d.applySignal i add operand last met).wake i := rfl

@[simp] theorem Dev.marker_applySignal_same :
    (d.applySignal i add operand last met).marker i = { d.marker i with value := (d.marker i).signalled add operand, last := last } := by
  rw [Dev.applySignal, Dev.marker_bumpMarker, Dev.marker_bumpMarkerK, Dev.marker_setMarker_same]

theorem Dev.marker_applySignal_ne {j : Nat} (h : j ≠ i) : (d.applySignal i add operand last met).marker j = d.marker j := by
  rw [Dev.applySignal, Dev.marker_bumpMarker, Dev.marker_bumpMarkerK, Dev.marker_setMarker_ne _ _ h]

@[simp] theorem Dev.row_applySignal : (d.applySignal i add operand last met).row = d.row := by
  rw [Dev.applySignal, Dev.row_bumpMarker, Dev.row_bumpMarkerK, Dev.setMarker_row]

theorem Dev.applySignal_markerWork : MarkerWork d (d.applySignal i add operand last met) :=
  ((d.setMarker_markerWork i _).trans (Dev.bumpMarkerK_markerWork _ _ _ _)).trans (Dev.bump_regsOnly _ _ _).markerWork

theorem Dev.applySignal_regs :
    RegsBut [pf (0x30 + i / 1024) 0x040, pf (0x30 + i / 1024) 0x04C] d (d.applySignal i add operand last met) := by
  unfold Dev.applySignal
  generalize hm : d.setMarker i _ = n
  have hset : n.regs = d.regs := hm ▸ rfl
  exact (RegsBut.of_regs hset).trans ((n.bumpK_on _ (by simp)).2.trans (Dev.bump_regs _ _ (by simp)))

/-- MK_SET_RACE counts a SET that met another signal (R418). -/
theorem Dev.rg_applySignal_race :
    (d.applySignal i add operand last met).rg (pf (0x30 + i / 1024) 0x04C) =
      (d.rg (pf (0x30 + i / 1024) 0x04C) + b2n (!add && met)) % 2 ^ 32 := by
  have hcount : RegsBut [pf (0x30 + i / 1024) 0x040] (d.setMarker i { d.marker i with value := (d.marker i).signalled add operand, last := last })
      (Dev.bumpMarkerK _ i 0x040 1) := (Dev.bumpK_on _ _ (List.mem_singleton_self _)).2
  rw [Dev.applySignal, Dev.bumpMarker, Dev.rg_bump, if_pos rfl, hcount _ (by simp [pf]), Dev.rg_setMarker]

end

/-- A marker that a signal reaches is held (R415). -/
theorem held_of_holderSignals {h : Holder} {kind strand : Nat} (hs : holderSignals h kind strand = true) : h ≠ .free := by
  rintro rfl
  cases hs

/-- A signal by the holder is applied unless it adds a number outside 1 to 65,535 (R415). -/
theorem exec_markerSignal_of_holder {i operand kind source strand : Nat} {add met : Bool} {s : State}
    (hs : holderSignals (s.dev.marker i).holder kind strand = true) (ho : add = true → 1 ≤ operand ∧ operand ≤ 65535) :
    exec (.markerSignal i add operand kind source strand met) s =
      .next { s with dev := s.dev.signal i add operand (markLast kind source strand) met } := by
  have hadd : (!add || (1 ≤ operand && operand ≤ 65535)) = true := by
    cases add
    · rfl
    · simpa using ho rfl
  refine congrArg (fun d => Host.Outcome.next { s with dev := d }) (if_pos ?_)
  rw [hs, hadd]
  rfl

theorem exec_markerSignal_of_other {i operand kind source strand : Nat} {add met : Bool} {s : State}
    (h : holderSignals (s.dev.marker i).holder kind strand = false ∨ (add = true ∧ (operand = 0 ∨ 65535 < operand))) :
    exec (.markerSignal i add operand kind source strand met) s = .next s := by
  refine congrArg (fun d => Host.Outcome.next { s with dev := d }) (if_neg ?_)
  obtain hs | ⟨rfl, ho⟩ := h
  · simp [hs]
  · simp only [Bool.not_true, Bool.false_or, Bool.and_eq_true, decide_eq_true_eq]
    omega

end Sys2Proof.Machine

namespace Sys2Proof.Proofs.Scope
open Sys2Proof.Machine

/-- Settles O43: the signal is applied, and then its value wakes the stitches that wait. -/
theorem markerSignals : Obligations.MarkerSignals := by
  unfold Obligations.MarkerSignals
  refine ⟨?_, fun i operand kind source strand add met s h => exec_markerSignal_of_other h⟩
  intro i operand kind source strand v add met s hs ho hv
  refine ⟨_, exec_markerSignal_of_holder hs ho, ?_⟩
  rw [Dev.signal_eq]
  have happlied := s.dev.marker_applySignal_same i add operand (markLast kind source strand) met
  have hother := fun j => s.dev.marker_applySignal_ne i add operand (markLast kind source strand) met (j := j)
  have hrow := s.dev.row_applySignal i add operand (markLast kind source strand) met
  have hwork := s.dev.applySignal_markerWork i add operand (markLast kind source strand) met
  have hregs := s.dev.applySignal_regs i add operand (markLast kind source strand) met
  have hrace := s.dev.rg_applySignal_race i add operand (markLast kind source strand) met
  generalize s.dev.applySignal i add operand (markLast kind source strand) met = n at *
  have hheld : (n.marker i).holder ≠ .free := by rw [happlied]; exact held_of_holderSignals hs
  have hvalue : (n.marker i).value = v := by rw [happlied, hv]; rfl
  have hwoken := Dev.marker_wake_same hheld
  refine ⟨(hwork.trans (Dev.wake_markerWork hheld)).eq, ?_, ?_, ?_, ?_, ?_, ?_, ?_, ?_⟩
  · rw [hwoken, hvalue]
  · rw [hwoken, happlied]
  · rw [hwoken, happlied]
  · rw [hwoken, happlied]
    exact Nat.le_trans (Nat.mod_le _ _) (Nat.sub_le _ _)
  · exact fun j hj => (Dev.marker_wake_ne hheld hj).trans (hother j hj)
  · intro j a ha
    obtain ⟨l, hl, hinputs⟩ := a.woken_inputs i v
    refine ⟨l, ?_, hinputs⟩
    rw [Dev.slots_wake hheld, hvalue, hrow, List.getElem?_map, ha, Option.map_some, hl]
  · rintro rfl rfl
    exact (Dev.wake_regs hheld _ (by simp [pf])).trans hrace
  · exact (hregs.mono (by simp)).trans ((Dev.wake_regs hheld).mono (by simp))
end Sys2Proof.Proofs.Scope

namespace Sys2Proof.Machine

/-! The marker pages (R424, R426 to R428) -/

/-- The type of a marker page and its number among them (R426). -/
theorem markerPage_info {p : Nat} (h : 0x30 ≤ p) (g : p < 0x34) : typeOf p = 0x11 ∧ instOf p = p - 0x30 := by
  obtain rfl | rfl | rfl | rfl : p = 0x30 ∨ p = 0x31 ∨ p = 0x32 ∨ p = 0x33 := by omega
  all_goals decide

/-- The type of a view page and the number of the marker page it shows (R427). -/
theorem viewPage_info {p : Nat} (h : 0x34 ≤ p) (g : p < 0x38) : typeOf p = 0x12 ∧ instOf p = p - 0x34 := by
  obtain rfl | rfl | rfl | rfl : p = 0x34 ∨ p = 0x35 ∨ p = 0x36 ∨ p = 0x37 := by omega
  all_goals decide

theorem pf_inj {p a b : Nat} : pf p a = pf p b ↔ a = b := Nat.add_left_cancel_iff

/-- The snapshot that a selection of a marker or view page latches: selection, value, waiter count and last signaller (R426, R427). -/
def Dev.latch (d : Dev) (p sel : Nat) (m : Marker) : Dev :=
  (((d.put (pf p 0x100) (sel % 1024)).put (pf p 0x104) m.value).put (pf p 0x108) (m.waiters % 65536)).put (pf p 0x10C) m.last

theorem Dev.latch_regsOnly (d : Dev) (p sel : Nat) (m : Marker) : RegsOnly d (d.latch p sel m) := ⟨_, rfl⟩

theorem Dev.latch_regs (d : Dev) (p sel : Nat) (m : Marker) :
    RegsBut [pf p 0x100, pf p 0x104, pf p 0x108, pf p 0x10C] d (d.latch p sel m) :=
  (((Dev.put_regs _ _ (by simp)).trans (Dev.put_regs _ _ (by simp))).trans (Dev.put_regs _ _ (by simp))).trans (Dev.put_regs _ _ (by simp))

/-- What the four registers of a snapshot hold. -/
theorem Dev.rg_latch (d : Dev) (p sel : Nat) (m : Marker) :
    (d.latch p sel m).rg (pf p 0x100) = sel % 1024 ∧ (d.latch p sel m).rg (pf p 0x104) = m.value % 2 ^ 32 ∧
      (d.latch p sel m).rg (pf p 0x108) = m.waiters % 65536 ∧ (d.latch p sel m).rg (pf p 0x10C) = m.last % 2 ^ 32 := by
  have hsel : sel % 1024 < 4294967296 := by omega
  have hwaiters : m.waiters % 65536 < 4294967296 := by omega
  simp [Dev.latch, Dev.rg_put, pf_inj, hsel, hwaiters]

theorem holderWord_strand (id tenant : Nat) :
    bits (holderWord (.strand id tenant) % 2 ^ 32) 31 30 = 1 ∧ bits (holderWord (.strand id tenant) % 2 ^ 32) 15 0 = id % 65536 ∧
      bits (holderWord (.strand id tenant) % 2 ^ 32) 25 21 = tenant % 32 := by
  simp only [bits_eq, holderWord]
  omega

theorem Dev.selectMarker_of_page {d : Dev} {p : Nat} (v : Nat) (h : typeOf p = 0x11) :
    d.selectMarker p v =
      (d.latch p v (d.marker (selectedMarker p v))).put (pf p 0x110) (holderWord (d.marker (selectedMarker p v)).holder) :=
  if_neg (by simp [h])

theorem Dev.indexMarker_of_page {d : Dev} {p : Nat} (v : Nat) (h : typeOf p = 0x12) :
    d.indexMarker p v = d.latch p v (d.marker (selectedMarker p v)) := if_neg (by simp [h])

theorem Dev.viewWrite_of_page {d : Dev} {p : Nat} (h : typeOf p = 0x12) : d.viewWrite p = d.bump (pf (0x30 + instOf p) 0x054) 1 :=
  if_neg (by simp [h])

/-- The unpick that MK_FORCE.GO asks for: the page's selected marker and MK_FORCE_VALUE (R424). -/
def Dev.forced (d : Dev) (p : Nat) : Nat × Nat := (selectedMarker p (d.rg (pf p 0x100)), d.rg (pf p 0x114))

theorem Dev.forceGo_of_page {d : Dev} {p : Nat} (h : typeOf p = 0x11) :
    d.forceGo p = { d with forces := (d.forces.filter fun f => f.1 / 1024 != instOf p) ++ [d.forced p] } := if_neg (by simp [h])

section
variable {s : State} (p : Nat) (v : Word) (hup : s.dev.up = true)
include hup

theorem exec_mkSelWrite : exec (.mkSelWrite p v) s = .next { s with dev := s.dev.selectMarker p v.toNat } := by
  rw [← Dev.host_of_up (fun d => d.selectMarker p v.toNat) hup]; rfl

theorem exec_mvIndexWrite : exec (.mvIndexWrite p v) s = .next { s with dev := s.dev.indexMarker p v.toNat } := by
  rw [← Dev.host_of_up (fun d => d.indexMarker p v.toNat) hup]; rfl

theorem exec_mvValueWrite : exec (.mvValueWrite p v) s = .next { s with dev := s.dev.viewWrite p } := by
  rw [← Dev.host_of_up (fun d => d.viewWrite p) hup]; rfl

theorem exec_mkForceGo : exec (.mkForceGo p) s = .next { s with dev := s.dev.forceGo p } := by
  rw [← Dev.host_of_up (fun d => d.forceGo p) hup]; rfl

end

/-- The marker selected on a page is one of its own. -/
theorem selectedMarker_page (p sel : Nat) : selectedMarker p sel / 1024 = instOf p := by
  unfold selectedMarker
  omega

/-- MK_SEL, MV_INDEX, MV_VALUE and MK_FORCE reach nothing while the module is not up. -/
theorem exec_markerPages_of_down {p : Nat} {v : Word} {s : State} (h : s.dev.up = false) :
    ∀ c ∈ [Instr.mkSelWrite p v, .mvIndexWrite p v, .mvValueWrite p v, .mkForceGo p], exec c s = .next s := by
  simp only [List.forall_mem_cons, List.not_mem_nil, false_imp_iff, implies_true, and_true]
  refine ⟨?_, ?_, ?_, ?_⟩ <;> exact congrArg (fun d => Host.Outcome.next { s with dev := d }) (Dev.host_of_down _ h)

end Sys2Proof.Machine

namespace Sys2Proof.Proofs.Scope
open Sys2Proof.Machine

/-- Settles O44, write by write. -/
theorem markerPages : Obligations.MarkerPages := by
  unfold Obligations.MarkerPages
  refine ⟨?select, ?index, ?value, ?force, fun p v s h => exec_markerPages_of_down h⟩
  case select =>
    intro p i v s hp hp' hi hup
    obtain ⟨htype, hinst⟩ := markerPage_info hp hp'
    obtain rfl : i = selectedMarker p v.toNat := by rw [hi, selectedMarker, hinst]
    generalize hm : s.dev.marker (selectedMarker p v.toNat) = m
    obtain ⟨hsel, hvalue, hwaiters, hlast⟩ := s.dev.rg_latch p v.toNat m
    have hkeep (a : Nat) (ha : a ≠ 0x110) : ((s.dev.latch p v.toNat m).put (pf p 0x110) (holderWord m.holder)).rg (pf p a) =
        (s.dev.latch p v.toNat m).rg (pf p a) := Dev.rg_put_ne _ _ (mt pf_inj.mp ha)
    refine ⟨_, exec_mkSelWrite p v hup, ?_⟩
    rw [Dev.selectMarker_of_page _ htype, hm]
    refine ⟨rfl, (hkeep _ (by decide)).trans hsel, (hkeep _ (by decide)).trans hvalue, (hkeep _ (by decide)).trans hwaiters,
      (hkeep _ (by decide)).trans hlast, fun hfree => ?_, fun id t hstrand => ?_, ?_⟩
    · rw [Dev.rg_put_same, hfree]
      rfl
    · rw [Dev.rg_put_same, hstrand]
      exact holderWord_strand id t
    · exact ((s.dev.latch_regs p v.toNat m).mono (by simp)).trans (Dev.put_regs _ _ (by simp))
  case index =>
    intro p i v s hp hp' hi hup
    obtain ⟨htype, hinst⟩ := viewPage_info hp hp'
    obtain rfl : i = selectedMarker p v.toNat := by rw [hi, selectedMarker, hinst]
    obtain ⟨hsel, hvalue, hwaiters, hlast⟩ := s.dev.rg_latch p v.toNat (s.dev.marker (selectedMarker p v.toNat))
    refine ⟨_, exec_mvIndexWrite p v hup, ?_⟩
    rw [Dev.indexMarker_of_page _ htype]
    exact ⟨rfl, hsel, hvalue, hwaiters, hlast, s.dev.latch_regs p v.toNat _⟩
  case value =>
    intro p v s hp hp' hup
    obtain ⟨htype, hinst⟩ := viewPage_info hp hp'
    have hpage : 0x30 + instOf p = p - 4 := by omega
    refine ⟨_, exec_mvValueWrite p v hup, ?_⟩
    rw [Dev.viewWrite_of_page htype, hpage]
    exact ⟨s.dev.bump_frame _ _, by rw [Dev.rg_bump, if_pos rfl], s.dev.bump_regs _ (List.mem_singleton_self _)⟩
  case force =>
    intro p i s hp hp' hi hup
    obtain ⟨htype, hinst⟩ := markerPage_info hp hp'
    obtain rfl : i = selectedMarker p (s.dev.rg (pf p 0x100)) := by rw [hi, selectedMarker, hinst]
    have hown := selectedMarker_page p (s.dev.rg (pf p 0x100))
    refine ⟨_, exec_mkForceGo p hup, ?_⟩
    rw [Dev.forceGo_of_page htype]
    refine ⟨rfl, List.getLast?_concat, fun x hx => ?_, fun x hx hpage => ?_⟩
    · have hne : x ≠ s.dev.forced p := by
        rintro rfl
        exact hx (hown.trans hinst)
      simp [hinst, hx, hne]
    · rw [List.mem_append, List.mem_filter, List.mem_singleton] at hx
      obtain ⟨-, hother⟩ | hgo := hx
      · exact absurd (hpage.trans hinst.symm) (by simpa using hother)
      · exact hgo
end Sys2Proof.Proofs.Scope

namespace Sys2Proof.Machine

/-! Phases of FW_TRANSFER (R515) -/

theorem Dev.fwRefused_zero (d : Dev) (part : Nat) : d.fwRefused part 0 = d := if_pos rfl

theorem Dev.fwRefused_of_ne (d : Dev) (part : Nat) {reason : Nat} (h : reason ≠ 0) :
    d.fwRefused part reason = (d.bump (pf 0xB 0x044) 1).put (pf 0xB 0x104) (part * 65536 + reason) := if_neg h

/-- A refusal counts in FW_REFUSED and keeps its reason in FW_REASON, and changes no other register (R530). -/
theorem Dev.fwRefused_on {ks : List Nat} (d : Dev) (part reason : Nat) (hcount : pf 0xB 0x044 ∈ ks) (hreason : pf 0xB 0x104 ∈ ks) :
    SigOn ks d (d.fwRefused part reason) :=
  SigOn.ite (.refl ks d) ((d.bump_on 1 hcount).trans (Dev.put_on _ _ hreason))

theorem Dev.fwRefused_sig (d : Dev) (part reason : Nat) : Sig d (d.fwRefused part reason) :=
  (d.fwRefused_on (ks := [pf 0xB 0x044, pf 0xB 0x104]) part reason (by simp) (by simp)).1

theorem Dev.fwRefused_sentOn (d : Dev) (part reason : Nat) : SentOn d (d.fwRefused part reason) := by
  unfold Dev.fwRefused
  split
  · exact .refl d
  · exact (d.bump_sentOn _ _).trans (Dev.put_sentOn _ _ _)

theorem Dev.fwRefused_regsOnly (d : Dev) (part reason : Nat) : RegsOnly d (d.fwRefused part reason) := by
  unfold Dev.fwRefused
  split
  · exact ⟨_, rfl⟩
  · exact (d.bump_regsOnly _ _).trans ⟨_, rfl⟩

theorem Dev.rg_fwRefused {d : Dev} {code : Nat} (h : code ≠ 0) (hlt : code < 2 ^ 32) :
    (d.fwRefused 0 code).rg (pf 0xB 0x104) = code ∧ (d.fwRefused 0 code).rg (pf 0xB 0x044) = (d.rg (pf 0xB 0x044) + 1) % 2 ^ 32 := by
  rw [Dev.fwRefused_of_ne _ _ h]
  refine ⟨?_, ?_⟩
  · rw [Dev.rg_put_same, Nat.zero_mul, Nat.zero_add, Nat.mod_eq_of_lt hlt]
  · rw [Dev.rg_put_ne _ _ (by decide), Dev.rg_bump, if_pos rfl]

@[simp] theorem Dev.fwOwe_fw (d : Dev) (c : Cmd) (part reason : Nat) : (d.fwOwe c part reason).fw = d.fw :=
  (d.fwRefused_sig part reason).fw

/-- A phase that acts owes its completion, and a refused one is counted (R515, R530). -/
theorem Dev.fwOwe_owes (d : Dev) (c : Cmd) {code : Nat} (hlt : code < 2 ^ 32) : Owes c code d (d.fwOwe c 0 code) := by
  obtain ⟨r, hr⟩ := d.fwRefused_regsOnly 0 code
  refine ⟨⟨_, congrArg (· ++ _) (d.fwRefused_sig 0 code).owed⟩, ?_, fun h => Dev.rg_fwRefused h hlt, ?_⟩
  · rw [Dev.fwOwe, hr]
  · exact (d.fwRefused_on 0 code (by simp) (by simp)).2

theorem Owes.of_fw {c : Cmd} {code : Nat} {n e : Dev} {f : Fw} (h : Owes c code { n with fw := f } e) : Owes c code n e := h

/-- A header counted before its completion is owed is part of what its phase does (R530). -/
theorem Owes.of_counted {c : Cmd} {n e : Dev} (h : Owes c 0 (n.bump (pf 0xB 0x040) 1) e) : Owes c 0 n e := by
  obtain ⟨howed, hframe, -, hregs⟩ := h
  rw [Dev.bump_frame] at howed hframe
  exact ⟨howed, hframe, fun hne => absurd rfl hne, (n.bump_regs 1 (by simp)).trans hregs⟩

theorem Dev.receive_fw (d : Dev) (h : List Byte) (path : Nat) :
    (d.receive h path).fw = { Fw.reset with state := 1, path := path, header := h.take 1056 } := Dev.bump_fw _ _ _

/-! HEADER (R515, R517) -/

theorem Dev.headerCheck_lt {d : Dev} {m : Perm} {h : List Byte} {code : Nat} (hc : d.headerCheck m h = some code) : code < 2 ^ 32 := by
  unfold Dev.headerCheck at hc
  repeat' split at hc
  all_goals cases hc <;> decide

theorem Dev.fwHeader_of_pass {d : Dev} {m : Perm} {c : Cmd} (hs : d.fw.state = 0) (h : d.headerCheck m c.inp = none) :
    d.fwHeader m c = (d.receive c.inp 1).fwOwe c 0 0 := by
  simp [Dev.fwHeader, hs, h]

theorem Dev.fwHeader_of_refused {d : Dev} {m : Perm} {c : Cmd} {code : Nat}
    (h : (d.fw.state ≠ 0 ∧ code = 0x0A04) ∨ (d.fw.state = 0 ∧ d.headerCheck m c.inp = some code)) : d.fwHeader m c = d.fwOwe c 0 code := by
  rcases h with ⟨hs, rfl⟩ | ⟨hs, hcheck⟩
  · simp [Dev.fwHeader, hs]
  · simp [Dev.fwHeader, hs, hcheck]

/-! BODY and COMMIT (R515, R518, R519) -/

theorem Fw.notReceiving_of_one {f : Fw} (h : f.state = 1) : f.notReceiving = none := by simp [Fw.notReceiving, h]

/-- In IDLE nothing is received yet; in REWRITING and ROLLING_BACK no more (R515). -/
theorem Fw.notReceiving_of_refused {f : Fw} {code : Nat} (h : (f.state = 0 ∧ code = 0x0A01) ∨ (2 ≤ f.state ∧ code = 0x0A04)) :
    f.notReceiving = some code := by
  unfold Fw.notReceiving
  rcases h with ⟨hs, rfl⟩ | ⟨hs, rfl⟩
  · rw [if_pos hs]
  · rw [if_neg (by omega), if_neg (by omega)]

/-- The offset of a BODY as its two dwords hold it (R515). -/
def Cmd.bodyOff (c : Cmd) : Nat := c.dw 9 + 2 ^ 32 * c.dw 10

theorem Dev.cmdFor_bodyOff (d : Dev) (e : Entry) {off : Nat} (h : off < 2 ^ 64) :
    (d.cmdFor (e, 0x03, [1, off % 2 ^ 32, off / 2 ^ 32])).bodyOff = off := by
  have hlow : (d.cmdFor (e, 0x03, [1, off % 2 ^ 32, off / 2 ^ 32])).dw 9 = off % 2 ^ 32 % 2 ^ 32 := rfl
  have hhigh : (d.cmdFor (e, 0x03, [1, off % 2 ^ 32, off / 2 ^ 32])).dw 10 = off / 2 ^ 32 % 2 ^ 32 := rfl
  rw [Cmd.bodyOff, hlow, hhigh]
  omega

theorem Dev.fwBody_of_stored {d : Dev} {c : Cmd} (hs : d.fw.state = 1) (h : c.bodyOff + c.inLen ≤ fwBodyLen d.fw.header) :
    d.fwBody c = ({ d with fw := d.fw.store c.bodyOff c.inp }).fwOwe c 0 0 := by
  unfold Dev.fwBody
  rw [Fw.notReceiving_of_one hs]
  exact if_neg (Nat.not_lt.mpr h)

theorem Dev.fwBody_of_refused {d : Dev} {c : Cmd} {code : Nat}
    (h : (d.fw.state = 0 ∧ code = 0x0A01) ∨ (2 ≤ d.fw.state ∧ code = 0x0A04) ∨
      (d.fw.state = 1 ∧ fwBodyLen d.fw.header < c.bodyOff + c.inLen ∧ code = 0x0A01)) : d.fwBody c = d.fwOwe c 0 code := by
  unfold Dev.fwBody
  rcases or_assoc.mpr h with hs | ⟨hs, hlong, rfl⟩
  · rw [Fw.notReceiving_of_refused hs]
  · rw [Fw.notReceiving_of_one hs]
    exact if_pos hlong

theorem Dev.fwCommit_of_receiving {d : Dev} {c : Cmd} (hs : d.fw.state = 1) (h : d.fw.hashing = false) :
    d.fwCommit c = { d with fw := { d.fw with hashing := true, cmd := some c } } := by
  simp [Dev.fwCommit, Fw.notReceiving_of_one hs, h]

theorem Dev.fwCommit_of_refused {d : Dev} {c : Cmd} {code : Nat}
    (h : (d.fw.state = 0 ∧ code = 0x0A01) ∨ (2 ≤ d.fw.state ∧ code = 0x0A04) ∨
      (d.fw.state = 1 ∧ d.fw.hashing = true ∧ code = 0x0A04)) : d.fwCommit c = d.fwOwe c 0 code := by
  rcases or_assoc.mpr h with hs | ⟨hs, hbusy, rfl⟩
  · simp [Dev.fwCommit, Fw.notReceiving_of_refused hs]
  · simp [Dev.fwCommit, Fw.notReceiving_of_one hs, hbusy]

/-! CANCEL (R515) -/

theorem Dev.fwCancel_of_rewriting {d : Dev} (c : Cmd) (h : 2 ≤ d.fw.state) : d.fwCancel c = d.fwOwe c 0 0x0A04 := if_pos h

theorem Dev.fwCancel_of_idle {d : Dev} (c : Cmd) (h : d.fw.state = 0) : d.fwCancel c = d.fwOwe c 0 0 := by simp [Dev.fwCancel, h]

theorem Dev.fwCancel_of_receiving {d : Dev} (c : Cmd) (hs : d.fw.state = 1) (h : d.fw.cmd = none) :
    d.fwCancel c = ({ d with fw := Fw.reset }).fwOwe c 0 0 := by
  simp [Dev.fwCancel, hs, h]

theorem Dev.fwCancel_of_hashing {d : Dev} (c : Cmd) {x : Cmd} (hs : d.fw.state = 1) (h : d.fw.cmd = some x) :
    d.fwCancel c = (({ d with fw := Fw.reset }).fwOwe x 0 0x0A01).fwOwe c 0 0 := by
  simp [Dev.fwCancel, hs, h]

/-! REVERT (R515, R525) -/

theorem Dev.fwRevert_of_good {d : Dev} {m : Perm} (c : Cmd) {f : FwSet} (hs : d.fw.state = 0) (hset : m.set 1 = some f) (hgood : f.bad = false)
    (hfloor : m.floor ≤ fwSec f.header) (hdep : d.fwDependency f.header = false) :
    d.fwRevert m c =
      { d with fw := { Fw.reset with state := 2, path := 1, header := f.header, cmd := some c, revert := true, ready := true } } := by
  simp [Dev.fwRevert, hs, hset, hgood, hdep, Nat.not_lt.mpr hfloor]

theorem Dev.fwRevert_of_refused {d : Dev} {m : Perm} (c : Cmd) {code : Nat}
    (h : (d.fw.state ≠ 0 ∧ code = 0x0A04) ∨
      (d.fw.state = 0 ∧ (m.set 1 = none ∨ ∃ f, m.set 1 = some f ∧ f.bad = true) ∧ code = 0x0A05) ∨
      (d.fw.state = 0 ∧ ∃ f, m.set 1 = some f ∧ f.bad = false ∧
        ((fwSec f.header < m.floor ∧ code = 0x0804) ∨
          (m.floor ≤ fwSec f.header ∧ d.fwDependency f.header = true ∧ code = 0x0A02)))) :
    d.fwRevert m c = d.fwOwe c 0 code := by
  rcases h with ⟨hs, rfl⟩ | ⟨hs, hset | ⟨f, hset, hbad⟩, rfl⟩ | ⟨hs, f, hset, hgood, ⟨hold, rfl⟩ | ⟨hfloor, hdep, rfl⟩⟩
  · simp [Dev.fwRevert, hs]
  · simp [Dev.fwRevert, hs, hset]
  · simp [Dev.fwRevert, hs, hset, hbad]
  · simp [Dev.fwRevert, hs, hset, hgood, hold]
  · simp [Dev.fwRevert, hs, hset, hgood, hdep, Nat.not_lt.mpr hfloor]

/-! A phase decided at once -/

theorem Dev.deciding_fetch_fw (d : Dev) (c : Cmd) (key : Nat) : ((d.fetch c).deciding key c).fw = d.fw := (d.fetch_posts c).fw

theorem Dev.perform_fw (m : Perm) (d : Dev) {c : Cmd} (h : c.opcode = 0x03) : d.perform m c = d.fwPhase m c := by
  unfold Dev.perform; rw [h]; rfl

theorem Dev.fwPhase_zero (m : Perm) (d : Dev) {c : Cmd} (h : c.dw 8 = 0) : d.fwPhase m c = d.fwHeader m c := by
  unfold Dev.fwPhase; rw [h]; rfl

theorem Dev.fwPhase_one (m : Perm) (d : Dev) {c : Cmd} (h : c.dw 8 = 1) : d.fwPhase m c = d.fwBody c := by
  unfold Dev.fwPhase; rw [h]; rfl

theorem Dev.fwPhase_two (m : Perm) (d : Dev) {c : Cmd} (h : c.dw 8 = 2) : d.fwPhase m c = d.fwCommit c := by
  unfold Dev.fwPhase; rw [h]; rfl

theorem Dev.fwPhase_three (m : Perm) (d : Dev) {c : Cmd} (h : c.dw 8 = 3) : d.fwPhase m c = d.fwCancel c := by
  unfold Dev.fwPhase; rw [h]; rfl

theorem Dev.fwPhase_four (m : Perm) (d : Dev) {c : Cmd} (h : c.dw 8 = 4) : d.fwPhase m c = d.fwRevert m c := by
  unfold Dev.fwPhase; rw [h]; rfl

/-- A valid phase decided at once acts, by its PHASE dword, on the device and the update that its decision finds. -/
theorem exec_fwPhase {i : Instr} {e : Entry} {l : List Nat} {c : Cmd} {n : Dev} {s : State} (hi : queued i = some (e, 0x03, l))
    (hc : c = s.dev.cmdFor (e, 0x03, l)) (hnow : s.dev.decidesNow c) (hn : n = (s.dev.fetch c).deciding (queueKey c.q) c)
    (hv : n.validate c = none) :
    exec i s = .next { s with dev := n.fwPhase s.perm c } ∧ n.fw = s.dev.fw ∧ c.dw 8 = l.getD 0 0 % 2 ^ 32 := by
  have hop : c.opcode = 0x03 := hc ▸ Dev.cmdFor_opcode _ _ _ _
  refine ⟨?_, hn ▸ s.dev.deciding_fetch_fw c _, hc ▸ Dev.cmdFor_dw8 _ _ _ _⟩
  rw [exec_of_decided hi hc hnow hn hv, Dev.perform_fw _ _ hop]

/-- A phase that only owes its completion leaves the update as it stood (R515). -/
theorem exec_owed {i : Instr} {c : Cmd} {code : Nat} {n d : Dev} {s : State} (hx : exec i s = .next { s with dev := d })
    (hd : d = n.fwOwe c 0 code) (hlt : code < 2 ^ 32) : ∃ t, exec i s = .next { s with dev := t } ∧ Owes c code n t ∧ t.fw = n.fw := by
  subst hd
  exact ⟨_, hx, n.fwOwe_owes c hlt, n.fwOwe_fw c 0 code⟩

end Sys2Proof.Machine

namespace Sys2Proof.Proofs.Scope
open Sys2Proof.Machine

/-- Settles O37: each phase acts on the update that its decision finds, as its PHASE dword says. -/
theorem fwPhases : Obligations.FwPhases := by
  unfold Obligations.FwPhases
  refine ⟨?header, ?body, ?commit, ?cancel, ?revert⟩
  case header =>
    intro e c n s hc hnow hn hv
    obtain ⟨hx, hfw, hphase⟩ := exec_fwPhase (i := .fwHeader e) rfl hc hnow hn hv
    rw [Dev.fwPhase_zero _ _ hphase] at hx
    rw [← hfw]
    refine ⟨fun hs hpass => ?_, fun code h => ?_⟩
    · rw [Dev.fwHeader_of_pass hs hpass] at hx
      exact ⟨_, hx, (Dev.fwOwe_owes _ c (by decide)).of_counted.of_fw, (Dev.fwOwe_fw _ _ _ _).trans (n.receive_fw _ _)⟩
    · have hlt : code < 2 ^ 32 := by
        rcases h with ⟨-, rfl⟩ | ⟨-, hcheck, -⟩
        · decide
        · exact Dev.headerCheck_lt hcheck
      exact exec_owed hx (Dev.fwHeader_of_refused (h.imp_right fun ⟨hs, hcheck, _⟩ => ⟨hs, hcheck⟩)) hlt
  case body =>
    intro e off c n s hc hoff hnow hn hv
    obtain ⟨hx, hfw, hphase⟩ := exec_fwPhase (i := .fwBody e off) rfl hc hnow hn hv
    obtain rfl : c.bodyOff = off := hc ▸ s.dev.cmdFor_bodyOff e hoff
    rw [Dev.fwPhase_one _ _ hphase] at hx
    rw [← hfw]
    refine ⟨fun hs hfits => ?_, fun code h => exec_owed hx (Dev.fwBody_of_refused h) (by omega)⟩
    rw [Dev.fwBody_of_stored hs hfits] at hx
    exact ⟨_, hx, (Dev.fwOwe_owes _ c (by decide)).of_fw, Dev.fwOwe_fw _ _ _ _⟩
  case commit =>
    intro e c n s hc hnow hn hv
    obtain ⟨hx, hfw, hphase⟩ := exec_fwPhase (i := .fwCommit e) rfl hc hnow hn hv
    rw [Dev.fwPhase_two _ _ hphase] at hx
    rw [← hfw]
    refine ⟨fun hs hfree => ?_, fun code h => exec_owed hx (Dev.fwCommit_of_refused h) (by omega)⟩
    rw [hx, Dev.fwCommit_of_receiving hs hfree]
  case cancel =>
    intro e c n s hc hnow hn hv
    obtain ⟨hx, hfw, hphase⟩ := exec_fwPhase (i := .fwCancel e) rfl hc hnow hn hv
    rw [Dev.fwPhase_three _ _ hphase] at hx
    rw [← hfw]
    refine ⟨fun hs hnone => ?_, fun hs => exec_owed hx (Dev.fwCancel_of_idle c hs) (by decide), fun x hs hsome => ?_,
      fun hs => exec_owed hx (Dev.fwCancel_of_rewriting c hs) (by decide)⟩
    · rw [Dev.fwCancel_of_receiving c hs hnone] at hx
      exact ⟨_, hx, (Dev.fwOwe_owes _ c (by decide)).of_fw, Dev.fwOwe_fw _ _ _ _⟩
    · rw [Dev.fwCancel_of_hashing c hs hsome] at hx
      exact ⟨_, _, hx, Dev.fwOwe_owes _ x (by decide), Dev.fwOwe_owes _ c (by decide),
        (Dev.fwOwe_fw _ _ _ _).trans (Dev.fwOwe_fw _ _ _ _)⟩
  case revert =>
    intro e c n s hc hnow hn hv
    obtain ⟨hx, hfw, hphase⟩ := exec_fwPhase (i := .fwRevert e) rfl hc hnow hn hv
    rw [Dev.fwPhase_four _ _ hphase] at hx
    rw [← hfw]
    refine ⟨fun f hs hset hgood hfloor hdep => ?_, fun code h => exec_owed hx (Dev.fwRevert_of_refused c h) ?_⟩
    · rw [hx, Dev.fwRevert_of_good c hs hset hgood hfloor hdep]
    · rcases h with ⟨-, rfl⟩ | ⟨-, -, rfl⟩ | ⟨-, _, -, -, ⟨-, rfl⟩ | ⟨-, -, rfl⟩⟩ <;> decide
end Sys2Proof.Proofs.Scope

namespace Sys2Proof.Machine

/-! The digests of a COMMIT (R519) -/

theorem Dev.writeOut_sentOn (d : Dev) (c : Cmd) (l : List (Nat × List Byte)) : SentOn d (d.writeOut c l) := by
  unfold Dev.writeOut
  induction l generalizing d with
  | nil => exact .refl d
  | cons p l ih =>
    refine SentOn.trans ?_ (ih _)
    dsimp only
    split
    · exact .refl d
    · exact d.emit_sentOn _

theorem Dev.fwDone_posts (d : Dev) (c : Cmd) (part reason extra : Nat) : Posts d (d.fwDone c part reason extra) :=
  ((d.writeOut_sig _ _).trans (Dev.fwRefused_sig _ _ _)).posts.trans (Dev.finishNoStrand_posts _ _ _ _ _ _)

theorem Dev.fwDone_completed (d : Dev) (c : Cmd) (part : Nat) {reason : Nat} (h : reason ≠ 0) (extra : Nat) :
    Completed c 0x10 reason 0 extra d (d.fwDone c part reason extra) := by
  unfold Dev.fwDone
  rw [if_neg h]
  exact (Dev.finishNoStrand_completed _ c _ _ _ _).of_sentOn ((d.writeOut_sentOn _ _).trans (Dev.fwRefused_sentOn _ _ _))

section
variable {d : Dev} (hs : d.fw.state = 1) (hh : d.fw.hashing = true)
include hs hh

theorem Dev.digestDone_of_failed {c : Cmd} {part code : Nat} (hc : d.fw.cmd = some c) (h : d.commitCheck d.fw = some (part, code)) :
    d.digestDone = ({ d with fw := { d.fw with hashing := false, cmd := none } }).fwDone c part code 0 := by
  simp [Dev.digestDone, hs, hh, hc, h]

theorem Dev.digestDone_of_passed (h : d.commitCheck d.fw = none) :
    d.digestDone = { d with fw := { d.fw with state := 2, hashing := false, ready := true } } := by
  simp [Dev.digestDone, hs, hh, h]
end

theorem Dev.digestDone_of_idle {d : Dev} (h : d.fw.state ≠ 1 ∨ d.fw.hashing = false) : d.digestDone = d :=
  if_pos (by simpa using h)

theorem exec_digestDone {s : State} {d : Dev} (h : s.dev.digestDone = d) : exec .digestDone s = .next { s with dev := d } := by
  rw [← h]; rfl

/-! The start of a rewrite (R508, R520) -/

/-- The parts whose image is the one in force already (R508). -/
def partsKept (old new : List Byte) : List Nat :=
  (List.range' 1 7).filter fun p => !old.isEmpty && fwDigest old p == fwDigest new p

/-- The parts that a rewrite writes (R508, R520). -/
def partsWritten (old new : List Byte) : List Nat := (List.range' 1 7).filter fun p => !(partsKept old new).contains p

theorem mem_partsWritten {old new : List Byte} (h : old ≠ []) (p : Nat) :
    p ∈ partsWritten old new ↔ 1 ≤ p ∧ p ≤ 7 ∧ fwDigest old p ≠ fwDigest new p := by
  simp only [partsWritten, partsKept, List.mem_filter, List.mem_range'_1, List.contains_eq_mem, List.isEmpty_eq_false_iff.mpr h,
    Bool.not_false, Bool.true_and, beq_iff_eq, Bool.not_eq_true', decide_eq_false_iff_not, not_and]
  exact ⟨fun ⟨⟨hlo, hhi⟩, hne⟩ => ⟨hlo, by omega, hne ⟨hlo, hhi⟩⟩, fun ⟨hlo, hhi, hne⟩ => ⟨⟨hlo, by omega⟩, fun _ => hne⟩⟩

/-- A rewrite with a part to write withholds the next plan and awaits the loaders of the parts it writes (R508, R520). -/
theorem Dev.rewriteStart_of_written {d : Dev} {m : Perm} {old : FwSet} (hs : d.fw.state = 2) (hready : d.fw.ready = true)
    (hrun : d.row.running = true) (hset : m.set 0 = some old) (hw : partsWritten old.header d.fw.header ≠ []) :
    d.rewriteStart m = (m, ({ d with
      fw := { d.fw with ready := false, waiting := partsWritten old.header d.fw.header, rewritten := [] }
      row := { d.row with planned := false, runonCause := 2 } } : Dev).bump (pf 0xB 0x054) (partsKept old.header d.fw.header).length) := by
  have hgo : ¬(d.fw.state != 2 || !d.fw.ready || !d.row.running) = true := by simp [hs, hready, hrun]
  have hsome : ¬(partsWritten old.header d.fw.header).isEmpty = true := by rwa [List.isEmpty_iff]
  unfold Dev.rewriteStart
  rw [if_neg hgo, hset]
  extract_lets oldHeader all skip write begun
  exact if_neg hsome

theorem Dev.rewriteStart_of_idle {d : Dev} (m : Perm) (h : d.fw.state ≠ 2 ∨ d.fw.ready = false ∨ d.row.running = false) :
    d.rewriteStart m = (m, d) :=
  if_pos (by simpa [or_assoc] using h)

theorem exec_rewriteStart {s : State} {m : Perm} {d : Dev} (h : s.dev.rewriteStart s.perm = (m, d)) :
    exec .rewriteStart s = .next { s with dev := d, perm := m } := by
  have hr : exec .rewriteStart s = .next { s with dev := (s.dev.rewriteStart s.perm).2, perm := (s.dev.rewriteStart s.perm).1 } := rfl
  rw [hr, h]

end Sys2Proof.Machine

namespace Sys2Proof.Proofs.Scope
open Sys2Proof.Machine

/-- Settles O38: a COMMIT ends at its checks, and the parts to rewrite are those whose digest differs. -/
theorem fwRewrites : Obligations.FwRewrites := by
  unfold Obligations.FwRewrites
  refine ⟨?digests, fun s h => exec_digestDone (Dev.digestDone_of_idle h), ?start, fun s h => exec_rewriteStart (Dev.rewriteStart_of_idle _ h)⟩
  case digests =>
    intro c s hs hh hc
    refine ⟨fun part code h => ?_, fun h => exec_digestDone (Dev.digestDone_of_passed hs hh h)⟩
    exact ⟨_, exec_digestDone (Dev.digestDone_of_failed hs hh hc h), Dev.fwDone_posts _ _ _ _ _,
      fun hne => .of_sentOn (.of_eq (by rfl)) (Dev.fwDone_completed _ c part hne 0)⟩
  case start =>
    rintro old s hs hready hrun hset hold ⟨p, hlo, hhi, hne⟩
    have hw : partsWritten old.header s.dev.fw.header ≠ [] := List.ne_nil_of_mem ((mem_partsWritten hold p).mpr ⟨hlo, hhi, hne⟩)
    refine ⟨_, exec_rewriteStart (Dev.rewriteStart_of_written hs hready hrun hset hw), ?_, ?_, ?_, ?_, ?_, ?_⟩
    · rw [Dev.bump_frame]
    · rw [Dev.bump_fw]
    · rw [Dev.bump_fw]; exact hs
    · rw [Dev.bump_fw]
    · intro q
      rw [Dev.bump_fw]
      exact mem_partsWritten hold q
    · exact Dev.bump_regs _ _ List.mem_cons_self
end Sys2Proof.Proofs.Scope

namespace Sys2Proof.Machine

/-! Sorting keeps the elements -/

theorem mem_insertBy {α : Type} (le : α → α → Bool) (a x : α) (l : List α) : x ∈ insertBy le a l ↔ x = a ∨ x ∈ l := by
  induction l with
  | nil => exact List.mem_cons
  | cons b l ih =>
    unfold insertBy
    split
    · rw [List.mem_cons, ih, List.mem_cons, or_left_comm]
    · exact List.mem_cons

theorem mem_sortBy {α : Type} (le : α → α → Bool) (x : α) (l : List α) : x ∈ sortBy le l ↔ x ∈ l := by
  have hfold : ∀ acc : List α, x ∈ l.foldl (fun acc a => insertBy le a acc) acc ↔ x ∈ l ∨ x ∈ acc := by
    induction l with
    | nil => simp
    | cons a l ih =>
      intro acc
      rw [List.foldl_cons, ih, mem_insertBy, List.mem_cons, or_left_comm, or_assoc]
  exact (hfold []).trans (by simp)

/-! Reports of the loaders (R521 to R523) -/

/-- A rewrite that fails waits for the loaders of every part, written or not, to write the old images back (R523). -/
theorem Dev.fwFail_rollsBack (d : Dev) (part : Nat) :
    ∃ f, d.fwFail part = { d with fw := f } ∧ f.state = 3 ∧ f.failed = part ∧ f.rewritten = [] ∧
      ∀ p, p ∈ f.waiting ↔ p ∈ d.fw.waiting ∨ p ∈ d.fw.rewritten :=
  ⟨_, rfl, rfl, rfl, rfl, fun _ => (mem_sortBy _ _ _).trans List.mem_append⟩

/-- Over FW_TRANSFER the last match turns the directory, and the new set starts at the next boundary (R522). -/
theorem Dev.fwMatched_of_transfer {d : Dev} (m : Perm) (h : d.fw.path = 1) :
    d.fwMatched m = (m.rotate d.fw, { d with fw := { d.fw with activating := true } }) :=
  if_neg (by rw [h]; decide)

/-- STAGING becomes CURRENT, CURRENT becomes PREVIOUS and PREVIOUS becomes STAGING; no slot but STAGING's is written (R522). -/
theorem Perm.rotate_of_update {m : Perm} {f : Fw} {a b c : Nat} (hr : f.revert = false) (hroles : m.roles = [a, b, c]) :
    (m.rotate f).roles = [c, a, b] ∧ m.rotate f = { m with roles := (m.rotate f).roles, seeds := (m.rotate f).seeds } ∧
      ∀ j, j ≠ c → (m.rotate f).seeds[j]? = m.seeds[j]? := by
  have heq : m.rotate f = { m with
      roles := [c, a, b], seeds := m.seeds.set c (some ⟨f.header, f.body.readN 0 (fwBodyLen f.header)⟩) } := by
    simp [Perm.rotate, hr, hroles]
  rw [heq]
  exact ⟨rfl, rfl, fun j hj => List.getElem?_set_ne (Ne.symm hj)⟩

theorem Dev.loaderReport_of_unawaited {d : Dev} (m : Perm) {part : Nat} (ok : Bool) (h : part ∉ d.fw.waiting) :
    d.loaderReport m part ok = (m, d) :=
  if_pos (by simp [h])

section
variable {d : Dev} (m : Perm) {part : Nat} (hw : part ∈ d.fw.waiting) (ha : d.fw.activating = false) (hr : d.inRunon = true)
include hw ha hr

theorem Dev.loaderReport_of_match (hs : d.fw.state = 2) (hleft : d.fw.waiting.erase part ≠ []) :
    d.loaderReport m part true = (m, { d with
      fw := { d.fw with waiting := d.fw.waiting.erase part, rewritten := d.fw.rewritten ++ [part] } }) := by
  simp [Dev.loaderReport, hw, ha, hr, hs, hleft]

theorem Dev.loaderReport_of_lastMatch (hs : d.fw.state = 2) (hleft : d.fw.waiting.erase part = []) :
    d.loaderReport m part true = Dev.fwMatched m { d with
      fw := { d.fw with waiting := d.fw.waiting.erase part, rewritten := d.fw.rewritten ++ [part] } } := by
  simp [Dev.loaderReport, hw, ha, hr, hs, hleft]

theorem Dev.loaderReport_of_mismatch (hs : d.fw.state = 2) : d.loaderReport m part false = (m, d.fwFail part) := by
  simp [Dev.loaderReport, hw, ha, hr, hs]

theorem Dev.loaderReport_of_restored (hs : d.fw.state = 3) :
    d.loaderReport m part true = (m, { d with
      fw := { d.fw with
        waiting := d.fw.waiting.erase part, rewritten := d.fw.rewritten ++ [part]
        activating := (d.fw.waiting.erase part).isEmpty, restoring := (d.fw.waiting.erase part).isEmpty } }) := by
  simp [Dev.loaderReport, hw, ha, hr, hs]
end

theorem exec_loaderReport {part : Nat} {ok : Bool} {s : State} {m : Perm} {d : Dev} (h : s.dev.loaderReport s.perm part ok = (m, d)) :
    exec (.loaderReport part ok) s = .next { s with dev := d, perm := m } := by
  have hr : exec (.loaderReport part ok) s =
    .next { s with dev := (s.dev.loaderReport s.perm part ok).2, perm := (s.dev.loaderReport s.perm part ok).1 } := rfl
  rw [hr, h]

theorem Dev.rewriteTimeout_of_late {d : Dev} (hs : d.fw.state = 2) (hready : d.fw.ready = false) (hw : d.fw.waiting ≠ [])
    (hlate : 60000 ≤ d.runonRows * d.period) : d.rewriteTimeout = d.fwFail (d.fw.waiting.headD 0) :=
  if_neg (by simp [hs, hready, hw, hlate])

theorem Dev.rewriteTimeout_of_idle {d : Dev} (h : d.fw.state ≠ 2 ∨ d.fw.ready = true ∨ d.fw.waiting = [] ∨ d.runonRows * d.period < 60000) :
    d.rewriteTimeout = d :=
  if_pos (by simpa [or_assoc] using h)

theorem exec_rewriteTimeout {s : State} {d : Dev} (h : s.dev.rewriteTimeout = d) : exec .rewriteTimeout s = .next { s with dev := d } := by
  rw [← h]; rfl

end Sys2Proof.Machine

namespace Sys2Proof.Proofs.Scope
open Sys2Proof.Machine

/-- Settles O39, from what a rewrite does at a match, at the last match and when it fails. -/
theorem loaderReports : Obligations.LoaderReports := by
  unfold Obligations.LoaderReports
  refine ⟨?rewriting, fun part s hw ha hr hs => exec_loaderReport (Dev.loaderReport_of_restored _ hw ha hr hs),
    fun part ok s h => exec_loaderReport (Dev.loaderReport_of_unawaited _ ok h), ?late,
    fun s h => exec_rewriteTimeout (Dev.rewriteTimeout_of_idle h)⟩
  case rewriting =>
    intro part s hw ha hr hs
    refine ⟨fun hleft => exec_loaderReport (Dev.loaderReport_of_match _ hw ha hr hs hleft), fun a b c hlast hpath hrev hroles => ?_, ?_⟩
    · have hleft : s.dev.fw.waiting.erase part = [] := by rw [hlast, List.erase_cons_head]
      have hreport := (Dev.loaderReport_of_lastMatch s.perm hw ha hr hs hleft).trans (Dev.fwMatched_of_transfer s.perm hpath)
      obtain ⟨hturned, hkept, hslots⟩ := Perm.rotate_of_update (m := s.perm)
        (f := { s.dev.fw with waiting := s.dev.fw.waiting.erase part, rewritten := s.dev.fw.rewritten ++ [part] }) hrev hroles
      exact ⟨_, exec_loaderReport hreport, rfl, hturned, hkept, hslots, rfl, rfl⟩
    · obtain ⟨f, hfail, hf⟩ := s.dev.fwFail_rollsBack part
      exact ⟨f, exec_loaderReport ((Dev.loaderReport_of_mismatch s.perm hw ha hr hs).trans (by rw [hfail])), hf⟩
  case late =>
    intro s hs hready hw hlate
    obtain ⟨f, hfail, hstate, -, hrest⟩ := s.dev.fwFail_rollsBack (s.dev.fw.waiting.headD 0)
    exact ⟨f, exec_rewriteTimeout ((Dev.rewriteTimeout_of_late hs hready hw hlate).trans hfail), hstate, hrest⟩
end Sys2Proof.Proofs.Scope

namespace Sys2Proof.Machine

/-! Firmware update over PLDM (R528, R553, R557) -/

theorem Dev.pldm_of_managed {d : Dev} (type : Nat) (data : List Nat) (h : d.managed = true) :
    d.pldm type data =
      (((d.bump (pf 0xA 0x040) 1).bump (pf 0xA 0x044) 1).emit (.mctp 1 type data)).bump (pf 0xA 0x048) 1 := by
  simp [Dev.pldm, Dev.mctp, h]

/-- While the management block answers, a request that signals alone beside the update gets its answer sent (R553, R557). -/
theorem Dev.pldm_answers {d n e : Dev} (type : Nat) (data : List Nat) (hm : d.managed = true) (hp : n.power = d.power) (hs : Sig n e)
    (hsent : SentOn d e) : Sig n (e.pldm type data) ∧ Sends (.mctp 1 type data) d (e.pldm type data) := by
  have he : e.managed = true := by rw [← hm, Dev.managed, Dev.managed, hs.power, hp]
  rw [Dev.pldm_of_managed type data he]
  have hcounted : SentOn d ((e.bump (pf 0xA 0x040) 1).bump (pf 0xA 0x044) 1) :=
    (hsent.trans (e.bump_sentOn _ _)).trans (Dev.bump_sentOn _ _ _)
  refine ⟨hs.trans ?_, SentOn.sends (Sends.of_sentOn hcounted (Dev.emit_sends _ _)) (Dev.bump_sentOn _ _ _)⟩
  exact (((e.bump_sig _ _).trans (Dev.bump_sig _ _ _)).trans (Dev.emit_sig _ _)).trans (Dev.bump_sig _ _ _)

section
variable {d : Dev} (m : Perm)

theorem Dev.pldmRequest_of_silent (h : List Byte) (hm : d.managed = false) : d.pldmRequest m h = d := by simp [Dev.pldmRequest, hm]

theorem Dev.pldmVerify_of_silent (body : List Byte) (hm : d.managed = false) : d.pldmVerify body = d := by simp [Dev.pldmVerify, hm]

theorem Dev.pldmActivate_of_silent (hm : d.managed = false) : d.pldmActivate m = (m, d) := by simp [Dev.pldmActivate, hm]

theorem Dev.pldmRequest_of_pass {h : List Byte} (hm : d.managed = true) (hs : d.fw.state = 0) (hcheck : d.headerCheck m h = none) :
    d.pldmRequest m h = (d.receive h 2).pldm 5 [0x10, 0] := by
  simp [Dev.pldmRequest, hm, hs, hcheck]

theorem Dev.pldmRequest_of_refused {h : List Byte} {code : Nat} (hm : d.managed = true)
    (hc : (d.fw.state ≠ 0 ∧ code = 0x0A04) ∨ (d.fw.state = 0 ∧ d.headerCheck m h = some code)) :
    d.pldmRequest m h = (d.fwRefused 0 code).pldm 5 [0x10, code] := by
  rcases hc with ⟨hs, rfl⟩ | ⟨hs, hcheck⟩
  · simp [Dev.pldmRequest, hm, hs]
  · simp [Dev.pldmRequest, hm, hs, hcheck]

theorem Dev.pldmActivate_of_applied (hm : d.managed = true) (hp : d.fw.path = 2) (ha : d.fw.applied = true) :
    d.pldmActivate m = (m.rotate d.fw, ({ d with fw := { d.fw with activating := true } }).pldm 5 [0x1A, 0]) := by
  simp [Dev.pldmActivate, hm, hp, ha]

theorem Dev.pldmActivate_of_refused (hm : d.managed = true) (h : d.fw.path ≠ 2 ∨ d.fw.applied = false) :
    d.pldmActivate m = (m, d.pldm 5 [0x1A, 0x0A01]) := by
  rcases h with h | h <;> simp [Dev.pldmActivate, hm, h]
end

section
variable {d : Dev} {f : Fw} {body : List Byte} (hm : d.managed = true) (hp : d.fw.path = 2) (hs : d.fw.state = 1)
  (hf : f = d.fw.store 0 (body.take (fwBodyLen d.fw.header)))
include hm hp hs hf

theorem Dev.pldmVerify_of_pass (hcheck : d.commitCheck f = none) :
    d.pldmVerify body = ({ d with fw := { f with state := 2, ready := true } }).pldm 5 [0x16, 0, 0] := by
  simp [Dev.pldmVerify, hm, hp, hs, ← hf, hcheck]

theorem Dev.pldmVerify_of_refused {part code : Nat} (hcheck : d.commitCheck f = some (part, code)) :
    d.pldmVerify body = (({ d with fw := f }).fwRefused part code).pldm 5 [0x16, code, part] := by
  simp [Dev.pldmVerify, hm, hp, hs, ← hf, hcheck]
end

theorem exec_pldmRequestUpdate {h : List Byte} {s : State} {d : Dev} (hd : s.dev.pldmRequest s.perm h = d) :
    exec (.pldmRequestUpdate h) s = .next { s with dev := d } := by rw [← hd]; rfl

theorem exec_pldmTransferComplete {body : List Byte} {s : State} {d : Dev} (hd : s.dev.pldmVerify body = d) :
    exec (.pldmTransferComplete body) s = .next { s with dev := d } := by rw [← hd]; rfl

theorem exec_activateFirmware {s : State} {m : Perm} {d : Dev} (h : s.dev.pldmActivate s.perm = (m, d)) :
    exec .activateFirmware s = .next { s with dev := d, perm := m } := by
  have hr : exec .activateFirmware s = .next { s with dev := (s.dev.pldmActivate s.perm).2, perm := (s.dev.pldmActivate s.perm).1 } := rfl
  rw [hr, h]

end Sys2Proof.Machine

namespace Sys2Proof.Proofs.Scope
open Sys2Proof.Machine

/-- Settles O40: each request acts on the update first, and its answer only signals. -/
theorem fwOverPldm : Obligations.FwOverPldm := by
  unfold Obligations.FwOverPldm
  refine ⟨?request, ?transfer, ?activate, ?silent⟩
  case request =>
    intro h s hm
    refine ⟨fun hs hcheck => ?_, fun code hc => ?_⟩
    · exact ⟨_, exec_pldmRequestUpdate (Dev.pldmRequest_of_pass _ hm hs hcheck),
        Dev.pldm_answers _ _ hm rfl (Dev.bump_sig _ _ _) (.trans (.of_eq rfl) (Dev.bump_sentOn _ _ _))⟩
    · exact ⟨_, exec_pldmRequestUpdate (Dev.pldmRequest_of_refused _ hm hc),
        Dev.pldm_answers _ _ hm rfl (Dev.fwRefused_sig _ _ _) (Dev.fwRefused_sentOn _ _ _)⟩
  case transfer =>
    intro body f s hm hp hs hf
    refine ⟨fun hcheck => ?_, fun part code hcheck => ?_⟩
    · exact ⟨_, exec_pldmTransferComplete (Dev.pldmVerify_of_pass hm hp hs hf hcheck),
        Dev.pldm_answers _ _ hm rfl (.refl _) (.of_eq rfl)⟩
    · exact ⟨_, exec_pldmTransferComplete (Dev.pldmVerify_of_refused hm hp hs hf hcheck),
        Dev.pldm_answers _ _ hm rfl (Dev.fwRefused_sig _ _ _) (.trans (.of_eq rfl) (Dev.fwRefused_sentOn _ _ _))⟩
  case activate =>
    intro s hm
    refine ⟨fun hp ha => ?_, fun h => ?_⟩
    · exact ⟨_, exec_activateFirmware (Dev.pldmActivate_of_applied _ hm hp ha), Dev.pldm_answers _ _ hm rfl (.refl _) (.of_eq rfl)⟩
    · exact ⟨_, exec_activateFirmware (Dev.pldmActivate_of_refused _ hm h), Dev.pldm_answers _ _ hm rfl (.refl _) (.refl _)⟩
  case silent =>
    intro h body s hm
    exact ⟨exec_pldmRequestUpdate (Dev.pldmRequest_of_silent _ h hm), exec_pldmTransferComplete (Dev.pldmVerify_of_silent body hm),
      exec_activateFirmware (Dev.pldmActivate_of_silent _ hm)⟩
end Sys2Proof.Proofs.Scope

namespace Sys2Proof.Machine

/-! The queue of waiting commands (log 1, log 2) -/

/-- The command answers a next state and leaves the queue as it is. -/
def Answers (c : Instr) (s : State) : Prop := ∃ t, exec c s = .next t ∧ t.pending = s.pending

theorem answers_of_onFn {c : Instr} {s : State} {fn : Nat} {d : Dev} (hf : fn < 18) (hx : exec c s = onFn fn s d) : Answers c s :=
  ⟨{ s with dev := d }, by rw [hx, onFn_of_lt hf], rfl⟩

theorem answers_registerWrite {fn : Nat} (hf : fn < 18) (off : Nat) (v : Word) (s : State) : Answers (.registerWrite fn off v) s :=
  ⟨_, if_pos hf, rfl⟩

/-- The closing record is written, or there is no save to close (R495, R496). -/
theorem answers_saveDone (ok : Bool) (tenUs mJ : Nat) (s : State) : Answers (.saveDone ok tenUs mJ) s := by
  have hx : exec (.saveDone ok tenUs mJ) s = execSaveDone ok tenUs mJ s := rfl
  unfold Answers execSaveDone at *
  rw [hx]
  split
  · exact ⟨_, rfl, rfl⟩
  · exact ⟨s, rfl, rfl⟩

theorem lt_of_pageWf {fn slot : Nat} (h : pageWf fn slot = true) : fn < 18 := by
  unfold pageWf at h
  split at h
  · omega
  · simp only [Bool.and_eq_true, decide_eq_true_eq] at h; omega

/-- A read names the PF or a VF (R84). -/
theorem lt_of_readWf {fn off : Nat} (h : (fn ≤ 16 && off % 4 == 0) = true) : fn < 18 := by
  simp only [Bool.and_eq_true, decide_eq_true_eq] at h; omega

/-- A register write names the PF, a VF or the PF's MSI-X window (R84, R86). -/
theorem lt_of_writeWf {fn off : Nat} (h : (fn ≤ 17 && off % 4 == 0) = true) : fn < 18 := by
  simp only [Bool.and_eq_true, decide_eq_true_eq] at h; omega

theorem answers_of_wf {c : Instr} (s : State) (h : c.wf = true) : Answers c s := by
  cases c
  case enableRequest fn slot v => exact answers_of_onFn (lt_of_pageWf h) rfl
  case enableCheckDone fn slot => exact answers_of_onFn (lt_of_pageWf h) rfl
  case softReset fn slot => exact answers_of_onFn (lt_of_pageWf h) rfl
  case blockResetDone fn slot => exact answers_of_onFn (lt_of_pageWf h) rfl
  case rcRead fn off => exact answers_of_onFn (lt_of_readWf h) rfl
  case pairLoRead fn off => exact answers_of_onFn (lt_of_readWf h) rfl
  case pairHiRead fn off => exact answers_of_onFn (lt_of_readWf h) rfl
  case registerWrite fn off v => exact answers_registerWrite (lt_of_writeWf h) off v s
  case saveDone ok tenUs mJ => exact answers_saveDone ok tenUs mJ s
  all_goals exact ⟨_, rfl, rfl⟩

theorem step_of_cons {c : Instr} {rest : List Instr} {s : State} (h : s.pending = c :: rest) :
    step s = exec c { s with pending := rest } := by
  unfold step; rw [h]

theorem step_of_empty {s : State} (h : s.pending = []) : step s = .next s := by
  unfold step; rw [h]

end Sys2Proof.Machine

namespace Sys2Proof.Proofs.Scope
open Sys2Proof.Machine

/-- Settles O1, from the two cases of a step: a command waits, or none does. -/
theorem stepRunsFront : Obligations.StepRunsFront := by
  unfold Obligations.StepRunsFront
  exact ⟨fun _ _ _ => step_of_cons, fun _ => step_of_empty⟩

/-- Settles O2: a well-formed command names a function that exists, and none but those that name a function can fault. -/
theorem everyCommandCompletes : Obligations.EveryCommandCompletes := by
  unfold Obligations.EveryCommandCompletes
  exact fun _ s h => answers_of_wf s h
end Sys2Proof.Proofs.Scope

namespace Sys2Proof.Machine

/-! Messages of the management block (R553, R557) -/

section
variable {d : Dev} (hm : d.managed = true)
include hm

theorem Dev.mctp_of_managed (type code : Nat) (data : List Nat) :
    d.mctp type code data = ((d.bump (pf 0xA 0x040) 1).bump (pf 0xA 0x044) 1).emit (.mctp type code data) := if_pos hm

theorem Dev.mctp_frame (type code : Nat) (data : List Nat) :
    d.mctp type code data = { d with regs := (d.mctp type code data).regs, sent := d.sent ++ [.mctp type code data] } := by
  rw [Dev.mctp_of_managed hm, Dev.bump_frame (d.bump _ _), Dev.bump_frame d]
  rfl

theorem Dev.mctp_regs (type code : Nat) (data : List Nat) : RegsBut messageRegs d (d.mctp type code data) := by
  rw [Dev.mctp_of_managed hm]
  exact ((d.bump_on _ (by simp [messageRegs])).trans ((Dev.bump_on _ _ (by simp [messageRegs])).trans (Dev.emit_on _ _))).2

/-! SPDM requests (R554, R558) -/

theorem Dev.spdm_of_managed (code : Nat) (data : List Nat) : d.spdm code data = (d.mctp 5 code data).bump (pf 9 0x040) 1 := if_pos hm

theorem Dev.spdmError_of_managed (err : Nat) : d.spdmError err = (d.spdm 0x7F [err]).bump (pf 9 0x044) 1 := if_pos hm

theorem Dev.spdm_frame (code : Nat) (data : List Nat) :
    d.spdm code data = { d with regs := (d.spdm code data).regs, sent := d.sent ++ [.mctp 5 code data] } := by
  rw [Dev.spdm_of_managed hm, Dev.bump_frame, Dev.mctp_frame hm]

theorem Dev.spdm_regs (code : Nat) (data : List Nat) : RegsBut (pf 9 0x040 :: messageRegs) d (d.spdm code data) := by
  rw [Dev.spdm_of_managed hm]
  exact ((Dev.mctp_regs hm _ _ _).mono (List.subset_cons_self _ _)).trans (Dev.bump_regs _ _ List.mem_cons_self)

theorem Dev.rg_spdm (code : Nat) (data : List Nat) : (d.spdm code data).rg (pf 9 0x040) = (d.rg (pf 9 0x040) + 1) % 2 ^ 32 := by
  rw [Dev.spdm_of_managed hm, Dev.rg_bump, if_pos rfl, Dev.mctp_regs hm 5 code data _ (by decide)]

/-- A request answered, the connection being left as m. -/
theorem Dev.spdm_answered (m : Mgmt) (code : Nat) (data : List Nat) : Answered code m d (({ d with mgmt := m }).spdm code data) :=
  have hm' : ({ d with mgmt := m } : Dev).managed = true := hm
  ⟨⟨data, Dev.spdm_frame hm' code data⟩, Dev.rg_spdm hm' code data, Dev.spdm_regs hm' code data⟩

/-- A request answered with an error, the connection being left as m. -/
theorem Dev.spdm_declined (m : Mgmt) (err : Nat) (data : List Nat) :
    Declined err data m d ((({ d with mgmt := m }).spdm 0x7F (err :: data)).bump (pf 9 0x044) 1) := by
  have hm' : ({ d with mgmt := m } : Dev).managed = true := hm
  refine ⟨?_, ?_, ?_, ?_⟩
  · rw [Dev.bump_frame, Dev.spdm_frame hm']
  · rw [Dev.rg_bump_ne _ _ (by decide), Dev.rg_spdm hm']; rfl
  · rw [Dev.rg_bump, if_pos rfl, Dev.spdm_regs hm' _ _ _ (by decide)]; rfl
  · refine (RegsBut.of_regs rfl : RegsBut _ d { d with mgmt := m }).trans (((Dev.spdm_regs hm' _ _).mono ?_).trans (Dev.bump_regs _ _ (by simp)))
    exact List.cons_subset_cons _ (List.subset_cons_self _ _)

theorem Dev.spdmError_declined (m : Mgmt) (err : Nat) : Declined err [] m d (({ d with mgmt := m }).spdmError err) := by
  rw [Dev.spdmError_of_managed (d := { d with mgmt := m }) hm]
  exact Dev.spdm_declined hm m err []

theorem Dev.asked_of_open (hs : d.securityStopped = false) (f : Dev → Dev) : d.asked f = f d := by simp [Dev.asked, hm, hs]

theorem Dev.asked_of_stopped (hs : d.securityStopped = true) (f : Dev → Dev) : d.asked f = d.spdmError 0x42 := by simp [Dev.asked, hm, hs]

theorem Dev.negotiated_of_open (hs : d.securityStopped = false) (hn : d.mgmt.negotiated = true) (f : Dev → Dev) : d.negotiated f = f d := by
  rw [Dev.negotiated, Dev.asked_of_open hm hs, if_pos hn]

theorem Dev.negotiated_of_early (hs : d.securityStopped = false) (hn : d.mgmt.negotiated = false) (f : Dev → Dev) :
    d.negotiated f = d.spdmError 4 := by
  rw [Dev.negotiated, Dev.asked_of_open hm hs, if_neg (by simp [hn])]
end

theorem Dev.asked_of_silent {d : Dev} (hm : d.managed = false) (f : Dev → Dev) : d.asked f = d := by simp [Dev.asked, hm]

/-- The requests that follow NEGOTIATE_ALGORITHMS (R554). -/
def negotiatedRequests (slot offset length index : Nat) (x : List Byte) : List Instr :=
  [.getDigests, .getCertificate slot offset length, .challenge slot x, .getMeasurements index x, .keyExchange slot x, .finish x]

/-- The requests of SPDM (R554). -/
def spdmRequests (code slot offset length index : Nat) (x : List Byte) : List Instr :=
  [.getVersion, .getCapabilities, .negotiateAlgorithms] ++ negotiatedRequests slot offset length index x ++
    [.heartbeat, .endSession, .spdmUnsupported code]

theorem exec_negotiated {slot offset length index : Nat} {x : List Byte} {c : Instr} (h : c ∈ negotiatedRequests slot offset length index x)
    (s : State) : ∃ f, exec c s = .next { s with dev := s.dev.negotiated f } := by
  simp only [negotiatedRequests, List.mem_cons, List.not_mem_nil, or_false] at h
  rcases h with rfl | rfl | rfl | rfl | rfl | rfl <;> exact ⟨_, rfl⟩

theorem exec_asked {code slot offset length index : Nat} {x : List Byte} {c : Instr} (h : c ∈ spdmRequests code slot offset length index x)
    (s : State) : ∃ f, exec c s = .next { s with dev := s.dev.asked f } := by
  simp only [spdmRequests, List.mem_append, List.mem_cons, List.not_mem_nil, or_false] at h
  rcases h with ((rfl | rfl | rfl) | h) | (rfl | rfl | rfl)
  case inl.inr =>
    obtain ⟨f, hx⟩ := exec_negotiated h s
    exact ⟨_, hx⟩
  all_goals exact ⟨_, rfl⟩

/-- The request is answered with a code, and the connection left as m. -/
def AnswersWith (code : Nat) (m : Mgmt) (c : Instr) (s : State) : Prop :=
  ∃ e, exec c s = .next { s with dev := e } ∧ Answered code m s.dev e

/-- The request is answered with an error, and the connection left as m. -/
def DeclinesWith (err : Nat) (data : List Nat) (m : Mgmt) (c : Instr) (s : State) : Prop :=
  ∃ e, exec c s = .next { s with dev := e } ∧ Declined err data m s.dev e

section
variable {c : Instr} {s : State} (hm : s.dev.managed = true)
include hm

theorem answersWith_of_spdm {m : Mgmt} {code : Nat} {data : List Nat}
    (hx : exec c s = .next { s with dev := ({ s.dev with mgmt := m }).spdm code data }) : AnswersWith code m c s :=
  ⟨_, hx, Dev.spdm_answered hm m code data⟩

theorem declinesWith_of_error {m : Mgmt} {err : Nat}
    (hx : exec c s = .next { s with dev := ({ s.dev with mgmt := m }).spdmError err }) : DeclinesWith err [] m c s :=
  ⟨_, hx, Dev.spdmError_declined hm m err⟩

theorem answersWith_of_asked {m : Mgmt} {code : Nat} {data : List Nat} {f : Dev → Dev} (hs : s.dev.securityStopped = false)
    (hx : exec c s = .next { s with dev := s.dev.asked f }) (hf : f s.dev = ({ s.dev with mgmt := m }).spdm code data) :
    AnswersWith code m c s :=
  answersWith_of_spdm hm (by rw [hx, Dev.asked_of_open hm hs, hf])

theorem declinesWith_of_asked {m : Mgmt} {err : Nat} {f : Dev → Dev} (hs : s.dev.securityStopped = false)
    (hx : exec c s = .next { s with dev := s.dev.asked f }) (hf : f s.dev = ({ s.dev with mgmt := m }).spdmError err) :
    DeclinesWith err [] m c s :=
  declinesWith_of_error hm (by rw [hx, Dev.asked_of_open hm hs, hf])

theorem answersWith_of_negotiated {m : Mgmt} {code : Nat} {data : List Nat} {f : Dev → Dev} (hs : s.dev.securityStopped = false)
    (hn : s.dev.mgmt.negotiated = true) (hx : exec c s = .next { s with dev := s.dev.negotiated f })
    (hf : f s.dev = ({ s.dev with mgmt := m }).spdm code data) : AnswersWith code m c s :=
  answersWith_of_spdm hm (by rw [hx, Dev.negotiated_of_open hm hs hn, hf])

theorem declinesWith_of_negotiated {m : Mgmt} {err : Nat} {f : Dev → Dev} (hs : s.dev.securityStopped = false)
    (hn : s.dev.mgmt.negotiated = true) (hx : exec c s = .next { s with dev := s.dev.negotiated f })
    (hf : f s.dev = ({ s.dev with mgmt := m }).spdmError err) : DeclinesWith err [] m c s :=
  declinesWith_of_error hm (by rw [hx, Dev.negotiated_of_open hm hs hn, hf])

/-- Before NEGOTIATE_ALGORITHMS, UnexpectedRequest (R554). -/
theorem declinesWith_of_early {slot offset length index : Nat} {x : List Byte} (hs : s.dev.securityStopped = false)
    (hn : s.dev.mgmt.negotiated = false) (h : c ∈ negotiatedRequests slot offset length index x) : DeclinesWith 4 [] s.dev.mgmt c s := by
  obtain ⟨f, hx⟩ := exec_negotiated h s
  exact declinesWith_of_error hm (by rw [hx, Dev.negotiated_of_early hm hs hn])

/-- While the security part is rewritten, ResponseNotReady (R507, R554). -/
theorem declinesWith_of_stopped {code slot offset length index : Nat} {x : List Byte} (hs : s.dev.securityStopped = true)
    (h : c ∈ spdmRequests code slot offset length index x) : DeclinesWith 0x42 [] s.dev.mgmt c s := by
  obtain ⟨f, hx⟩ := exec_asked h s
  exact declinesWith_of_error hm (by rw [hx, Dev.asked_of_stopped hm hs])

/-! The requests that are always answered -/

section
variable (hs : s.dev.securityStopped = false)
include hs

theorem getVersion_answers : AnswersWith 0x04 { s.dev.mgmt with negotiated := false, handshake := false, session := false } .getVersion s :=
  answersWith_of_asked hm hs rfl rfl

theorem getCapabilities_answers : AnswersWith 0x61 s.dev.mgmt .getCapabilities s := answersWith_of_asked hm hs rfl rfl

theorem negotiateAlgorithms_answers : AnswersWith 0x63 { s.dev.mgmt with negotiated := true } .negotiateAlgorithms s :=
  answersWith_of_asked hm hs rfl rfl

theorem spdmUnsupported_declines (code : Nat) : DeclinesWith 7 [code] s.dev.mgmt (.spdmUnsupported code) s := by
  have hx : exec (.spdmUnsupported code) s = execSpdmUnsupported code s := rfl
  exact ⟨_, by rw [hx, execSpdmUnsupported, Dev.asked_of_open hm hs], Dev.spdm_declined hm s.dev.mgmt 7 [code]⟩

/-! The requests of a session -/

theorem sessionRequests_answer (h : s.dev.mgmt.session = true) :
    AnswersWith 0x68 s.dev.mgmt .heartbeat s ∧ AnswersWith 0x6C { s.dev.mgmt with session := false } .endSession s := by
  refine ⟨?heartbeat, answersWith_of_asked hm hs rfl (if_pos h)⟩
  have hkept : ({ s.dev.mgmt with session := true } : Mgmt) = s.dev.mgmt := by rw [← h]
  rw [← hkept]
  exact answersWith_of_asked hm hs rfl (if_pos h)

theorem sessionRequests_decline (h : s.dev.mgmt.session = false) (hc : c ∈ [Instr.heartbeat, .endSession]) :
    DeclinesWith 4 [] s.dev.mgmt c s := by
  have hno : ¬s.dev.mgmt.session = true := by simp [h]
  simp only [List.mem_cons, List.not_mem_nil, or_false] at hc
  rcases hc with rfl | rfl <;> exact declinesWith_of_asked hm hs rfl (if_neg hno)

/-! The requests that follow NEGOTIATE_ALGORITHMS -/

section
variable (hn : s.dev.mgmt.negotiated = true)
include hn

theorem getDigests_answers : AnswersWith 0x01 s.dev.mgmt .getDigests s := answersWith_of_negotiated hm hs hn rfl rfl

theorem getCertificate_answers (offset length : Nat) : AnswersWith 0x02 s.dev.mgmt (.getCertificate 0 offset length) s :=
  answersWith_of_negotiated hm hs hn rfl (if_pos rfl)

theorem challenge_answers (x : List Byte) : AnswersWith 0x03 s.dev.mgmt (.challenge 0 x) s :=
  answersWith_of_negotiated hm hs hn rfl (if_pos rfl)

theorem keyExchange_answers (x : List Byte) : AnswersWith 0x64 { s.dev.mgmt with handshake := true } (.keyExchange 0 x) s :=
  answersWith_of_negotiated hm hs hn rfl (if_pos rfl)

/-- The slots other than 0 are empty (R554). -/
theorem emptySlot_declines {slot : Nat} (h : slot ≠ 0) (offset length : Nat) (x : List Byte)
    (hc : c ∈ [Instr.getCertificate slot offset length, .challenge slot x, .keyExchange slot x]) : DeclinesWith 1 [] s.dev.mgmt c s := by
  simp only [List.mem_cons, List.not_mem_nil, or_false] at hc
  rcases hc with rfl | rfl | rfl <;> exact declinesWith_of_negotiated hm hs hn rfl (if_neg h)

/-- The number of blocks, every block, or one of the eleven (R555). -/
theorem getMeasurements_answers {index : Nat} (h : index ≤ 11 ∨ index = 0xFF) (x : List Byte) :
    AnswersWith 0x60 s.dev.mgmt (.getMeasurements index x) s := by
  by_cases h0 : index = 0
  · exact answersWith_of_negotiated hm hs hn rfl (if_pos h0)
  by_cases hall : index = 0xFF
  · exact answersWith_of_negotiated hm hs hn rfl ((if_neg h0).trans (if_pos hall))
  · exact answersWith_of_negotiated hm hs hn rfl ((if_neg h0).trans ((if_neg hall).trans (if_pos (h.resolve_right hall))))

theorem getMeasurements_declines {index : Nat} (h : 11 < index) (hall : index ≠ 0xFF) (x : List Byte) :
    DeclinesWith 1 [] s.dev.mgmt (.getMeasurements index x) s :=
  declinesWith_of_negotiated hm hs hn rfl ((if_neg (by omega)).trans ((if_neg hall).trans (if_neg (by omega))))

/-- A handshake ends: the session opens when the requester's data verify (R554). -/
theorem finish_of_handshake (h : s.dev.mgmt.handshake = true) (x : List Byte) :
    ∃ e, exec (.finish x) s = .next { s with dev := e } ∧
      if Config.verifies x then Answered 0x65 { s.dev.mgmt with handshake := false, session := true } s.dev e
      else Declined 6 [] { s.dev.mgmt with handshake := false } s.dev e := by
  have hno : ¬(!s.dev.mgmt.handshake) = true := by simp [h]
  by_cases hv : Config.verifies x = true
  · simp only [if_pos hv]
    exact answersWith_of_negotiated hm hs hn rfl ((if_neg hno).trans (if_pos hv))
  · simp only [if_neg hv]
    exact declinesWith_of_negotiated hm hs hn rfl ((if_neg hno).trans (if_neg hv))

theorem finish_declines (h : s.dev.mgmt.handshake = false) (x : List Byte) : DeclinesWith 4 [] s.dev.mgmt (.finish x) s :=
  declinesWith_of_negotiated hm hs hn rfl (if_pos (by simp [h]))
end
end
end

/-! PLDM requests (R553) -/

theorem Dev.pldm_answered {d : Dev} (hm : d.managed = true) (type : Nat) (data : List Nat) : PldmAnswered type d (d.pldm type data) := by
  have heq : d.pldm type data = (d.mctp 1 type data).bump (pf 0xA 0x048) 1 := if_pos hm
  refine ⟨⟨data, ?_⟩, ?_, ?_, ?_⟩
  · rw [heq, Dev.bump_frame, Dev.mctp_frame hm]
  · rw [heq, Dev.bump_free, Dev.mctp_frame hm]
  · rw [heq, Dev.rg_bump, if_pos rfl, Dev.mctp_regs hm 1 type data _ (by decide)]
  · rw [heq]
    exact ((Dev.mctp_regs hm _ _ _).mono (List.subset_cons_self _ _)).trans (Dev.bump_regs _ _ List.mem_cons_self)

/-- An answer that takes a free value is one (log 4). -/
theorem PldmAnswered.passFree {type : Nat} {d e : Dev} (h : PldmAnswered type d e) : PldmAnswered type d e.passFree := by
  obtain ⟨⟨data, he⟩, hfree, hcount, hregs⟩ := h
  refine ⟨⟨data, ?_⟩, Nat.le_succ_of_le hfree, hcount, hregs⟩
  rw [he]
  rfl

theorem Dev.pldmBase_answered {d : Dev} (hm : d.managed = true) (code : Nat) : PldmAnswered 0 d (d.pldmBase code) := by
  unfold Dev.pldmBase
  split
  · exact Dev.pldm_answered hm _ _
  · exact (Dev.pldm_answered hm _ _).passFree

theorem Dev.pldmPlatform_answered {d : Dev} (hm : d.managed = true) (m : Perm) (sensor : Nat) :
    PldmAnswered 2 d (d.pldmPlatform m sensor) := by
  unfold Dev.pldmPlatform
  split
  · exact (Dev.pldm_answered hm _ _).passFree
  · exact Dev.pldm_answered hm _ _

theorem Dev.pldmFru_answered {d : Dev} (hm : d.managed = true) : PldmAnswered 4 d d.pldmFru := (Dev.pldm_answered hm _ _).passFree

/-! Locks, addresses, lines and the PCIe link (R83, R544, R553, R556, R557) -/

/-- SEC_LOCK with the lock bits of a write set. -/
def Dev.lockWord (d : Dev) (v : Nat) : Nat := d.rg (pf 9 0x104) ||| (v &&& 0x3F)

theorem Dev.lockWord_lt (d : Dev) (v : Nat) : d.lockWord v < 2 ^ 32 :=
  Nat.or_lt_two_pow (d.rg_lt _) (Nat.lt_of_le_of_lt Nat.and_le_right (by decide))

theorem Dev.bit_lockWord (d : Dev) (v : Nat) {i : Nat} (h : i < 6) : bit (d.lockWord v) i = (bit (d.rg (pf 9 0x104)) i || bit v i) := by
  have hmask : Nat.testBit 0x3F i = true := by
    rw [show 0x3F = 2 ^ 6 - 1 from rfl, Nat.testBit_two_pow_sub_one]; simpa using h
  simp only [bit_eq_testBit, Dev.lockWord, Nat.testBit_or, Nat.testBit_and, hmask, Bool.and_true]

theorem Dev.secLock_eq (d : Dev) (v : Nat) :
    d.secLock v = (d.put (pf 9 0x104) (d.lockWord v)).bump (pf 9 0x04C) (b2n (d.lockWord v != d.rg (pf 9 0x104))) := rfl

theorem Dev.rg_secLock (d : Dev) (v : Nat) : (d.secLock v).rg (pf 9 0x104) = d.lockWord v := by
  rw [Dev.secLock_eq, Dev.rg_bump_ne _ _ (by decide), Dev.rg_put_same, Nat.mod_eq_of_lt (d.lockWord_lt v)]

/-- A change of the locks is a change of measurement block 11 (R555, R556). -/
theorem Dev.secLock_counts (d : Dev) (v : Nat) (h : (d.secLock v).rg (pf 9 0x104) ≠ d.rg (pf 9 0x104)) :
    (d.secLock v).rg (pf 9 0x04C) = (d.rg (pf 9 0x04C) + 1) % 2 ^ 32 := by
  rw [Dev.rg_secLock] at h
  have hone : b2n (d.lockWord v != d.rg (pf 9 0x104)) = 1 := by simp [b2n, h]
  rw [Dev.secLock_eq, hone, Dev.rg_bump, if_pos rfl, Dev.rg_put_ne _ _ (by decide)]

theorem Dev.secLock_frame (d : Dev) (v : Nat) : d.secLock v = { d with regs := (d.secLock v).regs } := by
  rw [Dev.secLock_eq, Dev.bump_frame]; rfl

theorem Dev.secLock_regs (d : Dev) (v : Nat) : RegsBut [pf 9 0x104, pf 9 0x04C] d (d.secLock v) :=
  (d.put_regs _ (by simp)).trans (Dev.bump_regs _ _ (by simp))

/-- An endpoint ID given on a binding shows in its field of MG_EID (R553, R557). -/
theorem Dev.eid_given {d : Dev} (hm : d.managed = true) (eid : Nat) {hi lo : Nat} (h : lo ≤ hi) (hi32 : hi < 32) :
    (let e := (d.putBits (pf 0xA 0x104) hi lo eid).mctp 0 1 [eid % 256]
     e = { d with regs := e.regs, sent := d.sent ++ [.mctp 0 1 [eid % 256]] } ∧
      bits (e.rg (pf 0xA 0x104)) hi lo = eid % 2 ^ (hi + 1 - lo) ∧ RegsBut [pf 0xA 0x040, pf 0xA 0x044, pf 0xA 0x104] d e) := by
  have hm' : (d.putBits (pf 0xA 0x104) hi lo eid).managed = true := hm
  refine ⟨(Dev.mctp_frame hm' _ _ _).trans rfl, ?_, ?_⟩
  · rw [Dev.mctp_regs hm' _ _ _ _ (by decide), Dev.bits_putBits _ _ _ _ _ h hi32]
  · refine (d.put_regs _ (by simp)).trans ((Dev.mctp_regs hm' _ _ _).mono ?_)
    simp [messageRegs]

theorem Dev.setEid_of_open {d : Dev} {i3c : Bool} (hm : d.managed = true) (hb : i3c = true ∨ d.up = true) (eid : Nat) :
    d.setEid i3c eid = (if i3c then d.putBits (pf 0xA 0x104) 7 0 eid else d.putBits (pf 0xA 0x104) 15 8 eid).mctp 0 1 [eid % 256] :=
  if_neg (by rcases hb with h | h <;> simp [hm, h])

theorem Dev.setEid_of_silent {d : Dev} (hm : d.managed = false) (i3c : Bool) (eid : Nat) : d.setEid i3c eid = d := by
  simp [Dev.setEid, hm]

theorem Dev.alert_frame (d : Dev) : ∃ r o, d.alert = { d with regs := r, sent := o } := by
  unfold Dev.alert
  extract_lets v
  obtain ⟨r, hr⟩ := (d.put_regsOnly (pf 0xA 0x11C) v).trans (Dev.bump_regsOnly _ (pf 0xA 0x044) 1)
  split
  · exact ⟨_, _, rfl⟩
  · rw [hr]; exact ⟨_, _, rfl⟩

theorem Dev.rg_alert (d : Dev) : d.alert.rg (pf 0xA 0x11C) = d.alertWord % 2 ^ 32 := by
  unfold Dev.alert
  extract_lets v
  split
  case isTrue h => exact h.trans (Nat.mod_eq_of_lt (h ▸ d.rg_lt _)).symm
  case isFalse => rw [Dev.rg_emit, Dev.rg_bump_ne _ _ (by decide), Dev.rg_put_same]

/-- While the line is low, LINE is set in MG_ALERT (R544, R557). -/
theorem Dev.alertWord_line {d : Dev} (h : d.mgmt.lineLow = true) : bit (d.alertWord % 2 ^ 32) 8 = true := by
  have h1 := b2n_le d.tempHigh
  have h2 := b2n_le d.power.sag
  have h3 := b2n_le d.alertFlags
  have hw : d.alertWord = 256 + b2n d.tempHigh * 4 + b2n d.power.sag * 2 + b2n d.alertFlags := by
    simp only [Dev.alertWord, h, Bool.or_true]; rfl
  rw [hw, bit, beq_iff_eq, Nat.shiftRight_eq_div_pow]
  omega

/-- The link register after a training (R83): rate, width and FLIT mode. -/
def linkWord (rate width : Nat) (flit : Bool) : Nat := b2n flit * 4096 + width % 64 * 16 + rate % 16

theorem linkWord_fields (rate width : Nat) (flit : Bool) :
    bits (linkWord rate width flit % 2 ^ 32) 3 0 = rate % 16 ∧ bits (linkWord rate width flit % 2 ^ 32) 9 4 = width % 64 ∧
      bit (linkWord rate width flit % 2 ^ 32) 12 = flit := by
  have hf := b2n_le flit
  have hbit : linkWord rate width flit % 2 ^ 32 / 2 ^ 12 % 2 = b2n flit := by unfold linkWord; omega
  refine ⟨?_, ?_, ?_⟩
  · rw [bits_eq]; unfold linkWord; omega
  · rw [bits_eq]; unfold linkWord; omega
  · rw [bit, Nat.shiftRight_eq_div_pow, hbit, b2n_beq_one]

/-- The device once the link has trained to a rate and width; with width 0 nothing has trained (R83). -/
def Dev.linkTrained (d : Dev) (rate width : Nat) (flit : Bool) : Dev :=
  if width = 0 then d
  else (d.bump (pf 0xC 0x050) (b2n (d.rg (pf 0xC 0x100) != 0))).put (pf 0xC 0x100) (linkWord rate width flit)

theorem Dev.linkTrained_on (d : Dev) (rate width : Nat) (flit : Bool) : SigOn [pf 0xC 0x050, pf 0xC 0x100] d (d.linkTrained rate width flit) :=
  .ite (.refl _ d) ((d.bump_on _ (by simp)).trans (Dev.put_on _ _ (by simp)))

theorem Dev.linkTrained_regsOnly (d : Dev) (rate width : Nat) (flit : Bool) : RegsOnly d (d.linkTrained rate width flit) := by
  unfold Dev.linkTrained
  split
  · exact ⟨_, rfl⟩
  · exact (d.bump_regsOnly _ _).trans (Dev.put_regsOnly _ _ _)

theorem Dev.rg_linkTrained (d : Dev) (rate width : Nat) (flit : Bool) :
    (d.linkTrained rate width flit).rg (pf 0xC 0x100) = if width = 0 then d.rg (pf 0xC 0x100) else linkWord rate width flit % 2 ^ 32 := by
  unfold Dev.linkTrained
  split
  · rfl
  · exact Dev.rg_put_same _ _ _

/-- The error counters of the endpoint page with what each is raised by (R83). -/
def Dev.linkErrors (d : Dev) (corr nonFatal fatal replays poisoned : Nat) : Dev :=
  ((((d.bump (pf 0xC 0x040) corr).bump (pf 0xC 0x044) nonFatal).bump (pf 0xC 0x048) fatal).bump (pf 0xC 0x04C) replays).bump (pf 0xC 0x054) poisoned

theorem Dev.linkErrors_regsOnly (d : Dev) (corr nonFatal fatal replays poisoned : Nat) :
    RegsOnly d (d.linkErrors corr nonFatal fatal replays poisoned) :=
  ((((d.bump_regsOnly _ _).trans (Dev.bump_regsOnly _ _ _)).trans (Dev.bump_regsOnly _ _ _)).trans (Dev.bump_regsOnly _ _ _)).trans
    (Dev.bump_regsOnly _ _ _)

theorem Dev.linkErrors_counts (d : Dev) (corr nonFatal fatal replays poisoned : Nat) :
    (let e := d.linkErrors corr nonFatal fatal replays poisoned
     e.rg (pf 0xC 0x040) = (d.rg (pf 0xC 0x040) + corr) % 2 ^ 32 ∧ e.rg (pf 0xC 0x044) = (d.rg (pf 0xC 0x044) + nonFatal) % 2 ^ 32 ∧
      e.rg (pf 0xC 0x048) = (d.rg (pf 0xC 0x048) + fatal) % 2 ^ 32 ∧ e.rg (pf 0xC 0x04C) = (d.rg (pf 0xC 0x04C) + replays) % 2 ^ 32 ∧
      e.rg (pf 0xC 0x054) = (d.rg (pf 0xC 0x054) + poisoned) % 2 ^ 32) := by
  simp [Dev.linkErrors, Dev.rg_bump, pf_inj]

theorem Dev.linkErrors_regs (d : Dev) (corr nonFatal fatal replays poisoned : Nat) :
    RegsBut [pf 0xC 0x040, pf 0xC 0x044, pf 0xC 0x048, pf 0xC 0x04C, pf 0xC 0x054] d (d.linkErrors corr nonFatal fatal replays poisoned) :=
  (((d.bump_regs _ (by simp)).trans (Dev.bump_regs _ _ (by simp))).trans (Dev.bump_regs _ _ (by simp))).trans
    ((Dev.bump_regs _ _ (by simp)).trans (Dev.bump_regs _ _ (by simp)))

theorem Dev.pcieLink_of_up {d : Dev} (hup : d.up = true) (rate width : Nat) (flit : Bool) (corr nonFatal fatal replays poisoned : Nat) :
    d.pcieLink rate width flit corr nonFatal fatal replays poisoned =
      (d.linkTrained rate width flit).linkErrors corr nonFatal fatal replays poisoned := by
  simp [Dev.pcieLink, hup, Dev.linkTrained, Dev.linkErrors, linkWord]

end Sys2Proof.Machine

namespace Sys2Proof.Machine

theorem exec_secLockWrite (v : Word) {s : State} (hup : s.dev.up = true) :
    exec (.secLockWrite v) s = .next { s with dev := s.dev.secLock v.toNat } := by
  have hx : exec (.secLockWrite v) s = execSecLockWrite v s := rfl
  rw [hx, execSecLockWrite, Dev.host_of_up _ hup]

theorem exec_setEndpointId {i3c : Bool} {eid : Nat} {s : State} {d : Dev} (h : s.dev.setEid i3c eid = d) :
    exec (.setEndpointId i3c eid) s = .next { s with dev := d } := by rw [← h]; rfl

theorem exec_i3cDynamicAddress (addr : Nat) (s : State) :
    exec (.i3cDynamicAddress addr) s =
      .next { s with dev := if s.dev.managed then s.dev.putBits (pf 0xA 0x104) 22 16 addr else s.dev } := rfl

theorem exec_alertNLineChange (low : Bool) {s : State} (hm : s.dev.managed = true) :
    exec (.alertNLineChange low) s = .next { s with dev := ({ s.dev with mgmt := { s.dev.mgmt with lineLow := low } }).alert } := by
  have hm' : ({ s.dev with mgmt := { s.dev.mgmt with lineLow := low } } : Dev).managed = true := hm
  have hx : exec (.alertNLineChange low) s = execAlertNLineChange low s := rfl
  rw [hx, execAlertNLineChange, Dev.alertLine, if_pos hm']

theorem exec_pcieLinkRetrain (rate width : Nat) (flit : Bool) (corr nonFatal fatal replays poisoned : Nat) {s : State}
    (hup : s.dev.up = true) : exec (.pcieLinkRetrain rate width flit corr nonFatal fatal replays poisoned) s =
      .next { s with dev := (s.dev.linkTrained rate width flit).linkErrors corr nonFatal fatal replays poisoned } := by
  rw [← Dev.pcieLink_of_up hup]; rfl

/-- Outside its rails nothing answers (R542). -/
theorem exec_of_silent {code slot offset length index : Nat} {x : List Byte} {i3c : Bool} {c : Instr} {s : State} (hm : s.dev.managed = false)
    (hc : c ∈ spdmRequests code slot offset length index x ++ [.setEndpointId i3c code, .i3cDynamicAddress code]) : exec c s = .next s := by
  rcases List.mem_append.mp hc with hc | hc
  · obtain ⟨f, hx⟩ := exec_asked hc s
    rw [hx, Dev.asked_of_silent hm]
  · simp only [List.mem_cons, List.not_mem_nil, or_false] at hc
    rcases hc with rfl | rfl
    · exact exec_setEndpointId (Dev.setEid_of_silent hm _ _)
    · rw [exec_i3cDynamicAddress, if_neg (by simp [hm])]

end Sys2Proof.Machine

namespace Sys2Proof.Proofs.Scope
open Sys2Proof.Machine

/-- Settles O57: a request is judged by rails, rewrite, negotiation and session in turn, and every answer is one message and its counts. -/
theorem managementAnswers : Obligations.ManagementAnswers := by
  unfold Obligations.ManagementAnswers
  refine ⟨?spdm, ?locks, ?endpoint, ?pldm, ?address, ?line, ?link, ?silent⟩
  case spdm =>
    rintro code slot offset length index x m s hm rfl
    refine ⟨fun hs => ?always, fun hs hn => ?negotiated, fun hs h => sessionRequests_answer hm hs h,
      fun hs h c hc => sessionRequests_decline hm hs h hc, fun hs hn c hc => declinesWith_of_early hm hs hn hc,
      fun hs c hc => declinesWith_of_stopped hm hs hc⟩
    case always =>
      exact ⟨getVersion_answers hm hs, getCapabilities_answers hm hs, negotiateAlgorithms_answers hm hs, spdmUnsupported_declines hm hs code⟩
    case negotiated =>
      exact ⟨getDigests_answers hm hs hn, getCertificate_answers hm hs hn offset length, challenge_answers hm hs hn x,
        fun h => getMeasurements_answers hm hs hn h x, keyExchange_answers hm hs hn x, fun h => finish_of_handshake hm hs hn h x,
        fun h => finish_declines hm hs hn h x, fun h c hc => emptySlot_declines hm hs hn h offset length x hc,
        fun h hall => getMeasurements_declines hm hs hn h hall x⟩
  case locks =>
    intro v s hup
    refine ⟨_, exec_secLockWrite v hup, s.dev.secLock_frame _, fun i hi => ?_, s.dev.secLock_counts _, s.dev.secLock_regs _⟩
    rw [Dev.rg_secLock, Dev.bit_lockWord _ _ hi]
  case endpoint =>
    intro i3c eid s hm hb
    have hx := exec_setEndpointId (Dev.setEid_of_open hm hb eid)
    cases i3c with
    | true =>
      obtain ⟨hframe, hfield, hregs⟩ := Dev.eid_given hm eid (hi := 7) (lo := 0) (by decide) (by decide)
      exact ⟨_, hx, hframe, hfield, hregs⟩
    | false =>
      obtain ⟨hframe, hfield, hregs⟩ := Dev.eid_given hm eid (hi := 15) (lo := 8) (by decide) (by decide)
      exact ⟨_, hx, hframe, hfield, hregs⟩
  case pldm =>
    intro code sensor s hm
    exact ⟨⟨_, rfl, Dev.pldmBase_answered hm code⟩, ⟨_, rfl, Dev.pldmPlatform_answered hm s.perm sensor⟩, ⟨_, rfl, Dev.pldmFru_answered hm⟩⟩
  case address =>
    intro addr s hm
    refine ⟨s.dev.putBits (pf 0xA 0x104) 22 16 addr, ?_, rfl, Dev.bits_putBits _ _ _ _ _ (by decide) (by decide), Dev.put_regs _ _ (by simp)⟩
    rw [exec_i3cDynamicAddress, if_pos hm]
  case line =>
    intro low s hm
    obtain ⟨r, o, hframe⟩ := Dev.alert_frame { s.dev with mgmt := { s.dev.mgmt with lineLow := low } }
    refine ⟨_, exec_alertNLineChange low hm, by rw [hframe], fun h => ?_, ?_⟩
    · rw [Dev.rg_alert]
      exact Dev.alertWord_line h
    · have hline : RegsBut alertRegs s.dev { s.dev with mgmt := { s.dev.mgmt with lineLow := low } } := .of_regs rfl
      exact hline.trans (Dev.alert_on _ (List.Subset.refl _)).2
  case link =>
    intro rate width corr nonFatal fatal replays poisoned flit s hup
    have htrained := (s.dev.linkTrained_on rate width flit).2
    have herrors := (s.dev.linkTrained rate width flit).linkErrors_regs corr nonFatal fatal replays poisoned
    have hword := (herrors (pf 0xC 0x100) (by decide)).trans (s.dev.rg_linkTrained rate width flit)
    obtain ⟨hcorr, hnonFatal, hfatal, hreplays, hpoisoned⟩ :=
      (s.dev.linkTrained rate width flit).linkErrors_counts corr nonFatal fatal replays poisoned
    obtain ⟨r, hr⟩ := (s.dev.linkTrained_regsOnly rate width flit).trans (Dev.linkErrors_regsOnly _ corr nonFatal fatal replays poisoned)
    rw [htrained _ (by decide)] at hcorr hnonFatal hfatal hreplays hpoisoned
    refine ⟨_, exec_pcieLinkRetrain rate width flit corr nonFatal fatal replays poisoned hup, by rw [hr], fun hw => ?_, fun hw => ?_,
      hcorr, hnonFatal, hfatal, hreplays, hpoisoned, (htrained.mono ?_).trans (herrors.mono ?_)⟩
    · rw [hword, if_neg hw]
      exact linkWord_fields rate width flit
    · rw [hword, if_pos hw]
    · simp
    · simp
  case silent =>
    intro code slot offset length index x i3c s hm c hc
    exact exec_of_silent hm hc
end Sys2Proof.Proofs.Scope

namespace Sys2Proof.Machine

/-! Turn-on and admission (R489, R499, R540, R542, R543) -/

theorem Dev.turnOn_of_connected {d : Dev} {feedB : Bool} (hs : d.power.stage = 0) (hl : d.power.l3 = false)
    (hc : d.power.connected.getD (b2n feedB) false = true) (ok : Bool) :
    d.turnOn feedB ok = { d with power :=
      let w := { d.power with feedOk := d.power.feedOk.set (b2n feedB) true, dark := false }
      if ok then w.rise else { w with stage := 1 } } :=
  if_neg (by simp only [hs, hl, hc, bne_self_eq_false, Bool.or_self, Bool.not_true, Bool.false_eq_true, not_false_eq_true])

theorem Dev.turnOn_of_idle {d : Dev} {feedB : Bool}
    (h : d.power.stage ≠ 0 ∨ d.power.l3 = true ∨ d.power.connected.getD (b2n feedB) false = false) (ok : Bool) : d.turnOn feedB ok = d :=
  if_pos (by rcases h with h | h | h <;> simp only [h, bne_iff_ne, ne_eq, not_false_eq_true, Bool.or_true, Bool.true_or, Bool.not_false,
    Bool.or_eq_true, true_or])

theorem Dev.openAdmission_frame (d : Dev) : d.openAdmission = { d with pages := d.openAdmission.pages } := by
  unfold Dev.openAdmission; split <;> rfl

theorem Dev.rg_openAdmission (d : Dev) (k : Nat) : d.openAdmission.rg k = d.rg k := by
  unfold Dev.openAdmission; split <;> rfl

theorem Dev.page_openAdmission_ne (d : Dev) {j : Nat} (h : j ≠ 6) : d.openAdmission.page j = d.page j := by
  unfold Dev.openAdmission
  split
  · rw [Dev.page_modPage, if_neg h]
  · rfl

/-- The admission page runs once the row runs, the upper tiers are rebuilt and the bank is ready (R489). -/
theorem Dev.openAdmission_on {d : Dev} (hrow : d.row.running = true) (hreb : d.power.rebuilt = true) (hbank : d.power.bankReady = true)
    (hen : d.enAct 6 = true) (hwarm : d.power.warm = false) : d.openAdmission.on 6 = true := by
  rw [Dev.openAdmission, if_pos (by simp [hrow, hreb, hbank, hen, hwarm]), Dev.on, Dev.page_modPage, if_pos rfl]

theorem Dev.rebuildDone_of_running {d : Dev} (hr : d.row.running = true) (hs : d.power.starting = false) :
    d.rebuildDone = ({ d with power := { d.power with rebuilt := true } }).openAdmission := if_pos (by simp [hr, hs])

theorem Dev.rebuildDone_of_idle {d : Dev} (h : d.row.running = false ∨ d.power.starting = true) : d.rebuildDone = d :=
  if_neg (by rcases h with h | h <;> simp [h])

theorem Dev.bankCharged_of_powered {d : Dev} (h : d.power.stage ≠ 0) (hs : d.power.sag = false) :
    d.bankCharged = (({ d with power := { d.power with bankReady := true } }).put (pf 8 0x114) 5400).openAdmission :=
  if_neg (by simp [h, hs])

theorem Dev.bankCharged_of_idle {d : Dev} (h : d.power.stage = 0 ∨ d.power.sag = true) : d.bankCharged = d :=
  if_pos (by simpa using h)

/-! The units of a start (R62, R476, R488) -/

/-- The units of a type that take active indices (R16, R62). -/
def typeActive (u : Nat) : Nat := match sparing (typeOf ((unitSlots u).headD 0)) with | some (_, a) => a | none => 0

/-- No type has as many active units as there are indices. -/
theorem typeActive_lt (u : Nat) : typeActive u < 0xFFF := by
  have hlt {type spares a : Nat} (h : sparing type = some (spares, a)) : a < 0xFFF := by
    unfold sparing at h
    split at h <;> cases h <;> decide
  unfold typeActive
  split
  · rename_i h; exact hlt h
  · decide

/-- The page that a start gives the unit of a slot. -/
def startPage (fenced failed : List Nat) (u p : Nat) : Page :=
  let good := (unitSlots u).filter fun p => !fenced.contains p && !failed.contains p
  let x := pageReset p
  if fenced.contains p then { x with active := 0xFFF, spare := false, fenced := true }
  else match good.findIdx? (· == p) with
    | none => { x with active := 0xFFF, spare := true, quiesced := true }
    | some i => if i < typeActive u then { x with active := i, spare := false } else { x with active := 0xFFF, spare := true }

/-- No page is fenced or quiesced at its reset status (R62). -/
theorem pageReset_unfenced (p : Nat) : (pageReset p).fenced = false ∧ (pageReset p).quiesced = false := by
  unfold pageReset
  dsimp only
  split
  · exact ⟨rfl, rfl⟩
  · split
    · split <;> exact ⟨rfl, rfl⟩
    · exact ⟨rfl, rfl⟩

section
variable {fenced failed : List Nat} {p : Nat} (u : Nat)

theorem startPage_of_fenced (h : p ∈ fenced) :
    startPage fenced failed u p = { pageReset p with active := 0xFFF, spare := false, fenced := true } :=
  if_pos (List.contains_iff_mem.mpr h)

theorem startPage_of_failed (hf : p ∉ fenced) (h : p ∈ failed) :
    startPage fenced failed u p = { pageReset p with active := 0xFFF, spare := true, quiesced := true } := by
  have hnone : ((unitSlots u).filter fun p => !fenced.contains p && !failed.contains p).findIdx? (· == p) = none := by
    rw [List.findIdx?_eq_none_iff]
    intro q hq
    have hgood := (List.mem_filter.mp hq).2
    simp only [Bool.and_eq_true, Bool.not_eq_true', List.contains_eq_mem, decide_eq_false_iff_not] at hgood
    simpa using fun e : q = p => hgood.2 (e ▸ h)
  have hno : ¬fenced.contains p = true := by simpa using hf
  unfold startPage
  simp only [if_neg hno, hnone]

/-- A unit that is not in the fault record and passes self-test takes an active index, or is a spare. -/
theorem startPage_of_good (hp : p ∈ unitSlots u) (hf : p ∉ fenced) (h : p ∉ failed) :
    (startPage fenced failed u p).quiesced = false ∧ (startPage fenced failed u p).fenced = false ∧
      ((startPage fenced failed u p).spare = true ↔ (startPage fenced failed u p).active = 0xFFF) := by
  have hmem : p ∈ (unitSlots u).filter fun p => !fenced.contains p && !failed.contains p :=
    List.mem_filter.mpr ⟨hp, by simp [hf, h]⟩
  obtain ⟨i, hi⟩ : ∃ i, ((unitSlots u).filter fun p => !fenced.contains p && !failed.contains p).findIdx? (· == p) = some i := by
    rw [← Option.isSome_iff_exists, List.findIdx?_isSome, List.any_eq_true]
    exact ⟨p, hmem, by simp⟩
  have hno : ¬fenced.contains p = true := by simpa using hf
  obtain ⟨hfence, hquiet⟩ := pageReset_unfenced p
  unfold startPage
  simp only [if_neg hno, hi]
  split
  case isFalse => exact ⟨hquiet, hfence, by simp⟩
  case isTrue hlt =>
    refine ⟨hquiet, hfence, ?_⟩
    simp [Nat.ne_of_lt (Nat.lt_trans hlt (typeActive_lt u))]
end

/-- The pages that a start gives the units of one type, over pages already given. -/
def startUnits (fenced failed : List Nat) (t : NMap Page) (u : Nat) : NMap Page :=
  (unitSlots u).foldl (fun t p => nset t p (startPage fenced failed u p)) t

/-- The pages that a start lists. -/
def startTable (fenced failed : List Nat) : NMap Page := (List.range 5).foldl (startUnits fenced failed) []

theorem foldl_setPage (g : Nat → Page) (l : List Nat) (d : Dev) :
    l.foldl (fun d p => d.setPage p (g p)) d = { d with pages := l.foldl (fun t p => nset t p (g p)) d.pages } := by
  induction l generalizing d with
  | nil => rfl
  | cons p l ih => exact ih (d.setPage p (g p))

theorem startType_eq (fenced failed : List Nat) (u : Nat) (d : Dev) :
    startType fenced failed u d = { d with pages := startUnits fenced failed d.pages u } :=
  foldl_setPage (startPage fenced failed u) (unitSlots u) d

theorem Dev.startPages_eq (d : Dev) (fenced failed : List Nat) : d.startPages fenced failed = { d with pages := startTable fenced failed } := by
  have hfold (l : List Nat) : ∀ e : Dev,
      l.foldl (fun d u => startType fenced failed u d) e = { e with pages := l.foldl (startUnits fenced failed) e.pages } := by
    induction l with
    | nil => exact fun e => rfl
    | cons u l ih => intro e; rw [List.foldl_cons, startType_eq, ih]; rfl
  exact hfold _ { d with pages := [] }

theorem nget_foldl_nset_fun {α : Type} (g : Nat → α) (l : List Nat) (t : NMap α) (j : Nat) :
    nget (l.foldl (fun t p => nset t p (g p)) t) j = if j ∈ l then some (g j) else nget t j := by
  induction l generalizing t with
  | nil => simp
  | cons p l ih =>
    rw [List.foldl_cons, ih]
    by_cases hl : j ∈ l
    · simp [hl]
    · by_cases hp : j = p
      · subst hp; simp [hl]
      · simp [hl, hp, nget_nset_ne]

/-- A slot holds a unit of one type (R59). -/
theorem unitSlots_inj {u v p : Nat} (hu : p ∈ unitSlots u) (hv : p ∈ unitSlots v) : u = v := by
  have hrange {w : Nat} (h : p ∈ unitSlots w) : (w = 0 ∧ 0x100 ≤ p ∧ p < 0x166) ∨ (w = 1 ∧ 0x170 ≤ p ∧ p < 0x182) ∨
      (w = 2 ∧ 0x190 ≤ p ∧ p < 0x1B2) ∨ (w = 3 ∧ 0x1C0 ≤ p ∧ p < 0x1C9) ∨ (w = 4 ∧ 0x1D0 ≤ p ∧ p < 0x1D5) := by
    unfold unitSlots at h
    split at h
    case h_6 => cases h
    all_goals
      obtain ⟨i, hi, rfl⟩ := List.mem_map.mp h
      have := List.mem_range.mp hi
      omega
  have := hrange hu
  have := hrange hv
  omega

theorem nget_startTable {fenced failed : List Nat} {u p : Nat} (hu : u < 5) (hp : p ∈ unitSlots u) :
    nget (startTable fenced failed) p = some (startPage fenced failed u p) := by
  have hfold (l : List Nat) : ∀ t, nget (l.foldl (startUnits fenced failed) t) p =
      if u ∈ l then some (startPage fenced failed u p) else nget t p := by
    induction l with
    | nil => simp
    | cons v l ih =>
      intro t
      rw [List.foldl_cons, ih, startUnits, nget_foldl_nset_fun]
      by_cases hl : u ∈ l
      · simp [hl]
      · by_cases hv : u = v
        · subst hv; simp [hp]
        · have hno : p ∉ unitSlots v := fun h => hv (unitSlots_inj hp h)
          simp [hl, hv, hno]
  rw [startTable, hfold, if_pos (List.mem_range.mpr hu)]

/-- A start lists the pages of units alone. -/
theorem nget_startTable_none {fenced failed : List Nat} {p : Nat} (h : ∀ u < 5, p ∉ unitSlots u) : nget (startTable fenced failed) p = none := by
  have hfold (l : List Nat) : (∀ u ∈ l, p ∉ unitSlots u) → ∀ t, nget (l.foldl (startUnits fenced failed) t) p = nget t p := by
    induction l with
    | nil => exact fun _ _ => rfl
    | cons v l ih =>
      intro hl t
      rw [List.foldl_cons, ih (fun u hu => hl u (List.mem_cons_of_mem _ hu)), startUnits, nget_foldl_nset_fun,
        if_neg (hl v List.mem_cons_self)]
  exact hfold _ (fun u hu => h u (List.mem_range.mp hu)) []

end Sys2Proof.Machine

namespace Sys2Proof.Machine

/-! What the row and the publishes of a start leave as they find it (R71, R73, R488) -/

/-- What places the unit of a page: its active index, and whether it is a spare, fenced or quiesced (R62, R467, R468). -/
def Page.unit (x : Page) : Nat × Bool × Bool × Bool := (x.active, x.spare, x.fenced, x.quiesced)

/-- Power, faults, the current epoch of each object, and where each page's unit stands. -/
@[ext] structure Standing where
  power : Power
  fault : Faults
  current : Nat → Option Epoch
  unit : Nat → Nat × Bool × Bool × Bool

def Dev.standing (d : Dev) : Standing := ⟨d.power, d.fault, fun h => (d.obj h).cur, fun p => (d.page p).unit⟩

theorem Dev.put_standing (d : Dev) (k v : Nat) : (d.put k v).standing = d.standing := rfl
theorem Dev.put64_standing (d : Dev) (k v : Nat) : (d.put64 k v).standing = d.standing := rfl
theorem Dev.putBits_standing (d : Dev) (k hi lo v : Nat) : (d.putBits k hi lo v).standing = d.standing := rfl
theorem Dev.pubBit_standing (d : Dev) (n : Nat) (b : Bool) : (d.pubBit n b).standing = d.standing := rfl
theorem Dev.emit_standing (d : Dev) (o : Out) : (d.emit o).standing = d.standing := rfl
theorem Dev.pass_standing (d : Dev) (p : Nat) : (d.pass p).standing = d.standing := rfl
theorem Dev.setMarker_standing (d : Dev) (i : Nat) (m : Marker) : (d.setMarker i m).standing = d.standing := rfl

theorem Dev.withRow_standing (d : Dev) (r : Row) : ({ d with row := r } : Dev).standing = d.standing := rfl

theorem Dev.bump_standing (d : Dev) (k n : Nat) : (d.bump k n).standing = d.standing := by
  unfold Dev.bump; split <;> rfl

theorem Dev.vector_standing (d : Dev) (fn v : Nat) : (d.vector fn v).standing = d.standing := by
  unfold Dev.vector; split <;> rfl

theorem Dev.event_standing (d : Dev) (t b : Nat) : (d.event t b).standing = d.standing := by
  unfold Dev.event
  split
  · dsimp only
    split
    · rfl
    · exact Dev.vector_standing _ _ _
  · rfl

/-- A page changed in other respects keeps where its unit stands. -/
theorem Dev.modPage_standing (d : Dev) (p : Nat) {f : Page → Page} (h : ∀ x, (f x).unit = x.unit) :
    (d.modPage p f).standing = d.standing := by
  have hunit : ∀ j, ((d.modPage p f).page j).unit = (d.page j).unit := by
    intro j
    rw [Dev.page_modPage]
    split
    · rename_i e; rw [e, h]
    · rfl
  exact Standing.ext rfl rfl rfl (funext hunit)

theorem Dev.refuse_standing (d : Dev) (p code : Nat) : (d.refuse p code).standing = d.standing :=
  Dev.modPage_standing (d.put _ _) p fun _ => rfl

theorem Dev.after_standing (d : Dev) (m : NMap Word) : (d.after m).standing = d.standing := by
  unfold Dev.after
  dsimp only
  refine (foldl_keeps Dev.standing (fun e p => ?_) _ _).trans rfl
  exact e.modPage_standing p fun _ => rfl

theorem Dev.afterPeriod_standing (d : Dev) (m : NMap Word) : (d.afterPeriod m).standing = d.standing := by
  unfold Dev.afterPeriod
  dsimp only
  rw [Dev.put_standing, Dev.put_standing, Dev.after_standing]

theorem Dev.cleanPages_standing (d : Dev) : d.cleanPages.standing = d.standing := by
  refine foldl_keeps Dev.standing (fun e p => ?_) _ _
  split
  · exact e.modPage_standing p fun _ => rfl
  · rfl

theorem Dev.dirtyPages_standing (d : Dev) : d.dirtyPages.standing = d.standing := by
  refine foldl_keeps Dev.standing (fun e p => ?_) _ _
  exact e.modPage_standing p fun _ => rfl

theorem Dev.latchSwatches_standing (d : Dev) : d.latchSwatches.standing = d.standing := by
  unfold Dev.latchSwatches
  rw [Dev.put64_standing]
  exact foldl_keeps Dev.standing (fun _ _ => Dev.put64_standing _ _ _) _ _

theorem Dev.showTenants_standing (d : Dev) : d.showTenants.standing = d.standing := by
  unfold Dev.showTenants
  exact foldl_keeps Dev.standing (fun _ _ => Dev.putBits_standing _ _ _ _ _) _ _

/-- A change of the row-sync state is shown and signalled, or there is none. -/
theorem Dev.syncShown_standing (d : Dev) (c : Prop) [Decidable c] (v : Nat) :
    (if c then d else (d.putBits (pf 1 0x114) 1 0 v).vector 0 5).standing = d.standing := by
  split
  · rfl
  · exact Dev.vector_standing _ _ _

theorem Dev.timerPublish_standing (d : Dev) (oldMode : Nat) : (d.timerPublish oldMode).standing = d.standing := by
  unfold Dev.timerPublish
  extract_lets P mode timed _ started st signalled row
  have htimed : timed.standing = d.standing := by unfold timed; rw [Dev.put_standing, Dev.put_standing]
  have hstarted : started.standing = d.standing := (Dev.withRow_standing _ _).trans htimed
  split
  · exact hstarted
  · exact (Dev.withRow_standing _ _).trans ((Dev.syncShown_standing started _ st).trans hstarted)

section
variable {p : Pub} (h : p.objs = [])
include h

theorem Dev.enterPub_standing (d : Dev) : (d.enterPub p).standing = d.standing := by
  have hm : p.models = [] := by simp [Pub.models, h]
  have hobjs : d.objsAfter (d.afterPeriod p.regs) p = d.objs := by rw [Dev.objsAfter, h]; rfl
  unfold Dev.enterPub
  simp only [hm, hobjs, List.foldl_nil]
  refine (foldl_keeps Dev.standing (fun e q => ?_) _ _).trans ((Dev.after_standing _ _).trans (Dev.bump_standing _ _ _))
  rw [Dev.put_standing]
  split <;> rfl

theorem Dev.afterPub_standing (d : Dev) (old : NMap Obj) : (d.afterPub p old).standing = d.standing := by
  have hm : p.models = [] := by simp [Pub.models, h]
  unfold Dev.afterPub
  simp only [hm, h, List.foldl_nil]
  exact (foldl_keeps Dev.standing (fun e t => e.event_standing t 3) _ _).trans (Dev.bump_standing _ _ _)

/-- Firmware's publish of registers alone leaves power, faults, epochs and units (R71, R77). -/
theorem Dev.applyPub_standing (d : Dev) (hs : p.src = .firmware) : (d.applyPub p).standing = d.standing := by
  unfold Dev.applyPub Dev.measured
  simp only [hs, Dev.pubDone]
  rw [Dev.vector_standing, Dev.afterPub_standing h, Dev.pubBit_standing, Dev.pubBit_standing, Dev.put64_standing, Dev.bump_standing,
    Dev.showTenants_standing, Dev.latchSwatches_standing, Dev.timerPublish_standing, Dev.cleanPages_standing, Dev.enterPub_standing h]
end

theorem Dev.pulse_standing (d : Dev) : d.pulse.standing = d.standing := by
  unfold Dev.pulse; split <;> rfl

theorem Dev.rowStart_standing (d : Dev) : d.rowStart.standing = d.standing := by
  unfold Dev.rowStart
  rw [Dev.pulse_standing, Dev.put64_standing]
  exact Dev.applyPub_standing rfl _ rfl

/-- What every recheck of a page that fails keeps is kept by all of them (R73). -/
theorem Dev.recheck_keeps {γ : Type} (π : Dev → γ) (hpass : ∀ d p, π (Dev.pass d p) = π d)
    (hbad : ∀ (d : Dev) p code, π ((d.refuse p code).putBits (pf p 0x008) 0 0 0) = π d) (fuel : Nat) (d : Dev) : π (d.recheck fuel) = π d := by
  induction fuel generalizing d with
  | zero => rfl
  | succ fuel ih =>
    unfold Dev.recheck
    dsimp only
    split
    · exact foldl_keeps π hpass _ _
    · refine (ih _).trans (foldl_keeps π (fun e (x : Nat × Nat) => ?_) _ _)
      exact hbad e x.1 x.2

theorem Dev.snapshot_standing (d : Dev) (src : PubSrc) (due : Nat) : (d.snapshot src due).standing = d.standing := by
  have hcur : ∀ h, ((d.snapshot src due).obj h).cur = (d.obj h).cur := by
    intro h
    obtain ⟨hepochs, hcurrent⟩ := d.snapshot_epochs src due h
    rw [Obj.cur, Obj.cur, hepochs, hcurrent]
  have hframe := d.snapshot_frame src due
  refine Standing.ext ?_ ?_ (funext hcur) ?_ <;> rw [hframe] <;> rfl

theorem Dev.restartPublish_standing (d : Dev) : d.restartPublish.standing = d.standing :=
  (Dev.snapshot_standing _ _ _).trans
    (Dev.recheck_keeps Dev.standing Dev.pass_standing (fun e p code => e.refuse_standing p code) _ _)

/-! Firmware's publish after the row has begun (R73, R488) -/

theorem Dev.recheck_row (fuel : Nat) (d : Dev) : (d.recheck fuel).row = d.row :=
  Dev.recheck_keeps Dev.row (fun _ _ => rfl) (fun _ _ _ => rfl) fuel d

theorem Dev.restartPublish_row (d : Dev) : d.restartPublish.row = d.row := by
  rw [Dev.restartPublish, Dev.snapshot_frame]; exact Dev.recheck_row 400 d

theorem Dev.restartPublish_pub (d : Dev) : ∃ p, d.restartPublish.pub = some p ∧ p.src = .firmware ∧ p.due = d.row.number + 2 :=
  ⟨_, by rw [Dev.restartPublish, Dev.snapshot_frame], rfl, rfl⟩

theorem Dev.dirtyPages_row (d : Dev) : d.dirtyPages.row = d.row := by
  unfold Dev.dirtyPages; exact foldl_keeps Dev.row (fun _ _ => Dev.modPage_row _ _ _) _ _

theorem Dev.dirtyPages_pub (d : Dev) : d.dirtyPages.pub = d.pub := by
  unfold Dev.dirtyPages; exact foldl_keeps Dev.pub (fun _ _ => Dev.modPage_pub _ _ _) _ _

theorem Dev.rowStart_number (d : Dev) : d.rowStart.row.number = 0 := by
  unfold Dev.rowStart
  rw [Dev.pulse_row, Dev.put64_row]
  exact (Dev.applyPub_clock _ _).1

end Sys2Proof.Machine

namespace Sys2Proof.Machine

/-! The check of the row timer's page at a start (R70, R71) -/

/-- What firmware finds on the row timer's page before the row begins. -/
def Dev.timerCheck (d : Dev) : Option Nat := d.pageCheck (d.afterPeriod d.shadows) d.objs true 1

theorem Dev.afterPeriod_act (d : Dev) (m : NMap Word) : (d.afterPeriod m).act = m := by
  unfold Dev.afterPeriod
  dsimp only
  rw [Dev.put_act, Dev.put_act, Dev.after_act]

/-- Once the shadows are in force, a configuration-class register's value in force is its shadow (R65). -/
theorem Dev.inForce_of_shadows {d n : Dev} (h : n.act = d.shadows) {k : Nat} (hk : isConfig k = true) : n.inForce k = d.rg k := by
  unfold Dev.inForce Dev.rg
  rw [h, Dev.shadows, nget_filter _ isConfig, if_pos hk]

/-- EN of a page in the shadows, where it resets to 0. -/
theorem Dev.enIn_shadows (d : Dev) {p : Nat} (hk : isConfig (pf p 8) = true) (hr : resetOf (pf p 8) % 2 = 0) :
    enIn d.shadows p = (d.rg (pf p 8) % 2 == 1) := by
  unfold enIn Dev.rg
  rw [Dev.shadows, nget_filter _ isConfig, if_pos hk]
  cases nget d.regs (pf p 8) with
  | none => simp [hr]
  | some v => rfl

/-- A row timer with its registers at their reset values passes its check on a module without objects, in no cascade (R70, R71). -/
theorem Dev.timerCheck_passes {d : Dev} (hpage : (d.page 1).unit = (pageReset 1).unit) (hobjs : d.objs = []) (hlock : d.rg (pf 9 0x104) = 0)
    (hen : d.rg (pf 1 8) = 1) (hcascade : d.rg (pf 0xD 8) = 0) (hregs : ∀ off ∈ [0x100, 0x10C, 0x120], d.rg (pf 1 off) = resetOf (pf 1 off)) :
    d.timerCheck = none := by
  unfold Dev.timerCheck
  have hact := d.afterPeriod_act d.shadows
  have hunit : ((d.afterPeriod d.shadows).page 1).unit = (pageReset 1).unit :=
    (congrFun (congrArg Standing.unit (d.afterPeriod_standing d.shadows)) 1).trans hpage
  generalize d.afterPeriod d.shadows = n at hact hunit
  have hfenced : (n.page 1).fenced = false := congrArg (fun u => u.2.2.1) hunit
  have hspare : (n.page 1).spare = false := congrArg (fun u => u.2.1) hunit
  have hunlocked : d.lockedPage 1 = false := by
    have hgroup : d.lockedPage 1 = bit (d.rg (pf 9 0x104)) 2 := rfl
    rw [hgroup, hlock]; rfl
  have howner : n.owner 1 = 0 := by
    rw [Dev.owner, Dev.inForce_of_shadows hact (by decide), hen]; rfl
  have hon : n.enAct 1 = true := by
    rw [Dev.enAct, hact, Dev.enIn_shadows _ (by decide) (by decide), hen]; rfl
  have halone : n.memberIn = false := by
    rw [Dev.memberIn, Dev.enAct, hact, Dev.enIn_shadows _ (by decide) (by decide), hcascade]; rfl
  have hown : n.ownCheck 1 = none := by
    simp [Dev.ownCheck, hfenced, hspare, howner, firstCode]
  have hcross : n.crossCheck 1 = none := by
    have hdeps : n.depsOf 1 = [] := rfl
    simp [Dev.crossCheck, hdeps, howner, firstCode]
  have hblock : d.blockCheck n d.objs true 1 = none := by
    have hperiod := (Dev.inForce_of_shadows hact (k := pf 1 0x100) (by decide)).trans (hregs _ (by decide))
    have hmode := (Dev.inForce_of_shadows hact (k := pf 1 0x10C) (by decide)).trans (hregs _ (by decide))
    have hlimit := (Dev.inForce_of_shadows hact (k := pf 1 0x120) (by decide)).trans (hregs _ (by decide))
    have hinfo : pageInfo 1 = some (0x02, 0) := rfl
    unfold Dev.blockCheck
    simp only [hinfo, hperiod, hmode, hlimit, halone, hobjs]
    decide
  rw [Dev.pageCheck, hunlocked, hown, hon, hcross, hblock]
  rfl

/-! The start (R488) -/

/-- The device that a start begins with: restored after a POR (R489, R502). -/
def Dev.startBase (d : Dev) (m : Perm) : Dev := if d.power.por then d.restore m else d

/-- The device with its firmware's interface shown, its units placed and no cascade page. -/
def Dev.configured (d : Dev) (m : Perm) (failed : List Nat) : Dev :=
  ((d.showInterface (match m.set 0 with | some f => f.header | none => [])).startPages m.fenced failed).leaveCascade

/-- The spread of the clocks that takes effect with a start, in MG_SSC (R547). -/
def Dev.spread (d : Dev) : Dev := d.putBits (pf 0xA 0x118) 7 4 (min 10 (bits (d.rg (pf 0xA 0x118)) 3 0))

/-- Power once the start has taken its course. -/
def Power.started (w : Power) : Power := { w with starting := false, por := false, returned := false, l3 := false }

/-- The device as the row timer's own check finds it at a start. -/
def Dev.readied (d : Dev) (m : Perm) (failed : List Nat) : Dev :=
  let d := ((d.startBase m).configured m failed).spread
  ({ d with power := d.power.started }).putBits (pf 1 0x008) 0 0 1

section
variable {d : Dev} {m : Perm} {failed : List Nat}

theorem Dev.start_of_idle (h : d.power.starting = false ∨ d.power.perst = true ∨ d.power.stage ≠ 2 ∨ d.power.pwrgd = false) :
    d.start m failed = d :=
  if_pos (by rcases h with h | h | h | h <;> simp [h])

theorem Dev.start_eq (hs : d.power.starting = true) (hp : d.power.perst = false) (hm : d.power.stage = 2) (hg : d.power.pwrgd = true) :
    d.start m failed =
      match (d.readied m failed).timerCheck with
      | some code => ((d.readied m failed).putBits (pf 1 0x008) 0 0 0).refuse 1 code
      | none => ((d.readied m failed).pass 1).rowStart.restartPublish.dirtyPages := by
  have hgo : ¬(!d.power.starting || d.power.perst || d.power.stage != 2 || !d.power.pwrgd) = true := by simp [hs, hp, hm, hg]
  rw [Dev.start, if_neg hgo]
  rfl
end

end Sys2Proof.Machine

namespace Sys2Proof.Machine

/-! What a start changes before the row begins (R488) -/

theorem RegsOnly.standing {d e : Dev} (h : RegsOnly d e) : e.standing = d.standing := by
  obtain ⟨_, rfl⟩ := h
  rfl

theorem RegsOnly.refl (d : Dev) : RegsOnly d d := ⟨_, rfl⟩

theorem RegsOnly.foldl {β : Type} (f : Dev → β → Dev) (h : ∀ d b, RegsOnly d (f d b)) (l : List β) (d : Dev) : RegsOnly d (l.foldl f d) := by
  induction l generalizing d with
  | nil => exact .refl d
  | cons b l ih => exact (h d b).trans (ih (f d b))

theorem Dev.showInterface_regsOnly (d : Dev) (header : List Byte) : RegsOnly d (d.showInterface header) := by
  unfold Dev.showInterface
  split
  · exact .refl d
  · refine RegsOnly.foldl _ (fun e fn => ?_) _ d
    exact (e.put_regsOnly _ _).trans (Dev.put_regsOnly _ _ _)

theorem Dev.leaveCascade_regsOnly (d : Dev) : RegsOnly d d.leaveCascade := by
  unfold Dev.leaveCascade
  dsimp only
  split
  · exact (d.put_regsOnly _ _).trans (Dev.put_regsOnly _ _ _)
  · exact d.put_regsOnly _ _

theorem Dev.configured_frame (d : Dev) (m : Perm) (failed : List Nat) :
    ∃ r, d.configured m failed = { d with regs := r, pages := startTable m.fenced failed } := by
  unfold Dev.configured
  obtain ⟨r, hshown⟩ := d.showInterface_regsOnly (match m.set 0 with | some f => f.header | none => [])
  rw [hshown, Dev.startPages_eq]
  generalize startTable m.fenced failed = t
  obtain ⟨r', hleft⟩ := ({ d with regs := r, pages := t } : Dev).leaveCascade_regsOnly
  exact ⟨r', hleft⟩

/-- Beside registers, a start gives the pages of the units their places and is over itself. -/
theorem Dev.readied_frame (d : Dev) (m : Perm) (failed : List Nat) : ∃ r, d.readied m failed =
    { d.startBase m with
      regs := r, pages := startTable m.fenced failed, power := (d.startBase m).power.started } := by
  obtain ⟨r, h⟩ := (d.startBase m).configured_frame m failed
  unfold Dev.readied
  rw [h]
  generalize startTable m.fenced failed = t
  exact ⟨_, rfl⟩

/-- Whether the row begins or its page is refused, a start leaves power, faults, epochs and units as it readied them. -/
theorem Dev.start_standing {d : Dev} {m : Perm} {failed : List Nat} (hs : d.power.starting = true) (hp : d.power.perst = false)
    (hm : d.power.stage = 2) (hg : d.power.pwrgd = true) : (d.start m failed).standing = (d.readied m failed).standing := by
  rw [Dev.start_eq hs hp hm hg]
  split
  · rw [Dev.refuse_standing, Dev.putBits_standing]
  · rw [Dev.dirtyPages_standing, Dev.restartPublish_standing, Dev.rowStart_standing, Dev.pass_standing]

/-- A start ends with the row at row 0 and firmware's publish due two rows on, or with the row timer's page refused (R71, R488). -/
theorem Dev.start_row {d : Dev} {m : Perm} {failed : List Nat} (hs : d.power.starting = true) (hp : d.power.perst = false)
    (hm : d.power.stage = 2) (hg : d.power.pwrgd = true) :
    ((d.start m failed).row.number = 0 ∧ ∃ p, (d.start m failed).pub = some p ∧ p.src = .firmware ∧ p.due = 2) ∨
      (((d.start m failed).page 1).refused = true ∧ bit ((d.start m failed).rg (pf 1 8)) 0 = false) := by
  rw [Dev.start_eq hs hp hm hg]
  generalize d.readied m failed = n
  split
  · refine .inr ⟨?_, ?_⟩
    · rw [Dev.refuse, Dev.page_modPage, if_pos rfl]
    · rw [Dev.rg_refuse, if_neg (by decide)]
      exact Dev.bit_put_setBit _ (pf 1 8) 0 false (by decide)
  · refine .inl ⟨?_, ?_⟩
    · rw [Dev.dirtyPages_row, Dev.restartPublish_row, Dev.rowStart_number]
    · obtain ⟨p, hpub, hsrc, hdue⟩ := Dev.restartPublish_pub (n.pass 1).rowStart
      rw [Dev.rowStart_number] at hdue
      exact ⟨p, by rw [Dev.dirtyPages_pub, hpub], hsrc, hdue⟩

/-! A restored save (R502) -/

theorem Dev.freeOrphan_standing (d : Dev) (i : Nat) : (d.freeOrphan i).standing = d.standing := by
  unfold Dev.freeOrphan
  dsimp only
  split
  · rfl
  · rw [Dev.bump_standing]; rfl

theorem Dev.takeMarkers_standing (d : Dev) (l : List Nat) (h : Holder) : (d.takeMarkers l h).standing = d.standing := by
  unfold Dev.takeMarkers
  exact foldl_keeps Dev.standing (fun _ _ => Dev.setMarker_standing _ _ _) _ _

theorem Dev.restoreMarkers_standing (d : Dev) : d.restoreMarkers.standing = d.standing := by
  unfold Dev.restoreMarkers
  refine foldl_keeps Dev.standing (fun e x => ?_) _ _
  split
  · split
    · exact e.takeMarkers_standing _ _
    · rfl
  · rfl

/-- What a POR starts from: everything at reset but what the outside drives, the records of Perm and the model's own positions. -/
def Dev.blanked (d : Dev) (m : Perm) : Dev :=
  { Dev.reset with
    free := d.free, sent := d.sent, mgmt := { d.mgmt with session := false, handshake := false, negotiated := false }
    power := { d.power with bankAt := 0 }, fault := { Faults.reset with cores := m.cores, retired := m.retired } }

/-- The objects that a save's directory restores, each with its damage. -/
def Save.objects (v : Save) : NMap Obj := v.directory.map fun (p : Nat × Epoch) =>
  (p.1, { Obj.blank with epochs := [{ p.2 with damaged := (nget v.damaged p.1).getD [] }], current := true,
                         damaged := (nget v.damaged p.1).getD [] })

/-- The device with a save's content in place. -/
def Dev.refilled (d : Dev) (m : Perm) (v : Save) : Dev :=
  { d.blanked m with
    regs := v.regs.filter fun p => survOf p.1 == Surv.k && !isMsix p.1
    objs := v.objects, snapObjs := v.objects, fault := { (d.blanked m).fault with log := v.log }, tiers := { Tiers.reset with lost := v.lost }
    power := { (d.blanked m).power with lost := v.strands, restored := true } }

theorem Dev.restore_standing {m : Perm} {v : Save} (d : Dev) (h : m.newest = some v) : (d.restore m).standing = (d.refilled m v).standing := by
  unfold Dev.restore
  simp only [h]
  rw [Dev.put_standing, Dev.put64_standing, Dev.put_standing, Dev.bump_standing, Dev.bump_standing, Dev.bump_standing, Dev.bump_standing,
    Dev.restoreMarkers_standing, foldl_keeps Dev.standing Dev.freeOrphan_standing]
  rfl

theorem nget_map_value {α β : Type} (f : Nat × α → β) (m : NMap α) (k : Nat) :
    nget (m.map fun p => (p.1, f p)) k = (nget m k).map fun v => f (k, v) := by
  induction m with
  | nil => rfl
  | cons p m ih =>
    obtain ⟨a, v⟩ := p
    by_cases h : a = k
    · subst h; simp [nget]
    · simp [nget, h, ih]

/-- A restored object's current epoch is the one of the directory, with the damage that the save lists (R195, R502). -/
theorem Dev.refilled_cur {m : Perm} {v : Save} (d : Dev) {h : Nat} {x : Epoch} (hx : nget v.directory h = some x) :
    ((d.refilled m v).obj h).cur = some { x with damaged := (nget v.damaged h).getD [] } := by
  have hobj : nget v.objects h = some { Obj.blank with
      epochs := [{ x with damaged := (nget v.damaged h).getD [] }], current := true, damaged := (nget v.damaged h).getD [] } := by
    rw [Save.objects, nget_map_value, hx]; rfl
  have hget : (d.refilled m v).obj h = (nget v.objects h).getD Obj.blank := rfl
  rw [hget, hobj]
  rfl

/-! A start as new (R489) -/

/-- The registers that a start as new sets on the power page: what the cellar held, and the cause of the reset. -/
def newStartRegs : List Nat := [pf 8 0x054, pf 8 0x128, pf 8 0x124]

theorem Dev.bump_wf {d : Dev} (h : NMap.wf d.regs) (k n : Nat) : NMap.wf (d.bump k n).regs := by
  unfold Dev.bump
  split
  · exact h
  · exact Dev.put_wf h _ _

theorem Dev.restore_new {m : Perm} (d : Dev) (h : m.newest = none) :
    RegsOnly (d.blanked m) (d.restore m) ∧ RegsBut newStartRegs (d.blanked m) (d.restore m) ∧ NMap.wf (d.restore m).regs := by
  have hwf : NMap.wf (d.blanked m).regs := List.Pairwise.nil
  unfold Dev.restore
  simp only [h]
  exact ⟨(Dev.bump_regsOnly (d.blanked m) _ _).trans ((Dev.put_regsOnly _ _ _).trans (Dev.put_regsOnly _ _ _)),
    (Dev.bump_regs (d.blanked m) _ (by simp [newStartRegs])).trans
      ((Dev.put_regs _ _ (by simp [newStartRegs])).trans (Dev.put_regs _ _ (by simp [newStartRegs]))),
    Dev.put_wf (Dev.put_wf (Dev.bump_wf hwf _ _) _ _) _ _⟩

/-- The interface shows on the VFs alone (R92). -/
theorem Dev.rg_showInterface (d : Dev) (header : List Byte) {k : Nat} (hk : k < 2 ^ 24) : (d.showInterface header).rg k = d.rg k := by
  unfold Dev.showInterface
  split
  · rfl
  · refine List.foldlRecOn (motive := fun e : Dev => e.rg k = d.rg k) _ _ rfl fun e he fn hfn => ?_
    have hvf : 1 ≤ fn := (List.mem_range'_1.mp hfn).1
    rw [Dev.rg_put_ne _ _ (by unfold regKey; omega), Dev.rg_put_ne _ _ (by unfold regKey; omega), he]

theorem Dev.showInterface_wf {d : Dev} (h : NMap.wf d.regs) (header : List Byte) : NMap.wf (d.showInterface header).regs := by
  unfold Dev.showInterface
  split
  · exact h
  · exact List.foldlRecOn (motive := fun e : Dev => NMap.wf e.regs) _ _ h fun e he fn _ => Dev.put_wf (Dev.put_wf he _ _) _ _

theorem Dev.startPages_regs (d : Dev) (fenced failed : List Nat) : (d.startPages fenced failed).regs = d.regs := by
  rw [Dev.startPages_eq]

theorem Dev.rg_startPages (d : Dev) (fenced failed : List Nat) (k : Nat) : (d.startPages fenced failed).rg k = d.rg k := by
  unfold Dev.rg; rw [Dev.startPages_regs]

theorem Dev.leaveCascade_wf {d : Dev} (h : NMap.wf d.regs) : NMap.wf d.leaveCascade.regs := by
  unfold Dev.leaveCascade
  dsimp only
  split
  · exact Dev.put_wf (Dev.put_wf h _ _) _ _
  · exact Dev.put_wf h _ _

/-- Outside CASCADE mode, a start takes the enable of the cascade page alone (R439). -/
theorem Dev.leaveCascade_of_free {d : Dev} (h : bits (d.rg (pf 1 0x10C)) 1 0 ≠ 2) : d.leaveCascade = d.putBits (pf 0xD 0x008) 0 0 0 := by
  unfold Dev.leaveCascade
  dsimp only
  rw [if_neg h]

section
variable {d : Dev} {m : Perm} {failed : List Nat}

theorem Dev.configured_wf (h : NMap.wf d.regs) : NMap.wf (d.configured m failed).regs := by
  refine Dev.leaveCascade_wf ?_
  rw [Dev.startPages_regs]
  exact Dev.showInterface_wf h _

theorem Dev.readied_wf (h : NMap.wf (d.startBase m).regs) : NMap.wf (d.readied m failed).regs := by
  have hspread : NMap.wf ((d.startBase m).configured m failed).spread.regs := Dev.put_wf (Dev.configured_wf h) _ _
  unfold Dev.readied
  generalize ((d.startBase m).configured m failed).spread = e at hspread
  exact Dev.put_wf (d := { e with power := e.power.started }) hspread _ _

/-- What a PF register holds once the units are placed, where MODE is not CASCADE. -/
theorem Dev.rg_configured (h : bits (d.rg (pf 1 0x10C)) 1 0 ≠ 2) {k : Nat} (hk : k < 2 ^ 24) :
    (d.configured m failed).rg k = if k = pf 0xD 8 then setBits (d.rg k) 0 0 0 else d.rg k := by
  have hshown {k : Nat} (hk : k < 2 ^ 24) :
      ((d.showInterface (match m.set 0 with | some f => f.header | none => [])).startPages m.fenced failed).rg k = d.rg k := by
    rw [Dev.rg_startPages, Dev.rg_showInterface _ _ hk]
  unfold Dev.configured
  rw [Dev.leaveCascade_of_free (by rw [hshown (by decide)]; exact h), Dev.rg_putBits _ _ _ _ (Nat.le_refl 0) (by decide), hshown hk,
    hshown (by decide : pf 0xD 8 < 2 ^ 24)]
  split
  · rename_i e; rw [e]
  · rfl

/-- What a PF register holds when the row timer is checked: its page's EN is set besides. -/
theorem Dev.rg_readied (h : bits ((d.startBase m).rg (pf 1 0x10C)) 1 0 ≠ 2) {k : Nat} (hk : k < 2 ^ 24) (hspread : k ≠ pf 0xA 0x118) :
    (d.readied m failed).rg k =
      if k = pf 1 8 then setBits ((d.startBase m).rg k) 0 0 1 else if k = pf 0xD 8 then setBits ((d.startBase m).rg k) 0 0 0
      else (d.startBase m).rg k := by
  have hconf {k : Nat} (hk : k < 2 ^ 24) (hne : k ≠ pf 0xA 0x118) : ((d.startBase m).configured m failed).spread.rg k =
      if k = pf 0xD 8 then setBits ((d.startBase m).rg k) 0 0 0 else (d.startBase m).rg k := by
    rw [Dev.spread, Dev.rg_putBits_ne _ _ _ _ hne, Dev.rg_configured h hk]
  have htimer : ((d.startBase m).configured m failed).spread.rg (pf 1 8) = (d.startBase m).rg (pf 1 8) := by
    rw [hconf (by decide) (by decide), if_neg (by decide)]
  have hrg := hconf hk hspread
  unfold Dev.readied
  generalize ((d.startBase m).configured m failed).spread = e at hrg htimer
  have hpower : ∀ j, ({ e with power := e.power.started } : Dev).rg j = e.rg j := fun _ => rfl
  dsimp only
  rw [Dev.rg_putBits _ _ _ _ (Nat.le_refl 0) (by decide), hpower, hpower, htimer, hrg]
  split
  · rename_i htimerKey; rw [htimerKey]
  · rfl

/-- A start as new finds every PF register at its reset value, but those of the power page that tell of the start (R489). -/
theorem Dev.rg_startBase_new (hpor : d.power.por = true) (hnew : m.newest = none) {k : Nat} (hk : k ∉ newStartRegs) :
    (d.startBase m).rg k = resetOf k := by
  obtain ⟨-, hregs, -⟩ := d.restore_new hnew
  rw [Dev.startBase, if_pos hpor, hregs k hk]
  rfl

theorem unitSlots_timer : ∀ u < 5, 1 ∉ unitSlots u := by decide

/-- A module that starts as new passes the check of its row timer (R70, R489). -/
theorem Dev.timerCheck_readied_new (hpor : d.power.por = true) (hnew : m.newest = none) : (d.readied m failed).timerCheck = none := by
  have hbase {k : Nat} (hk : k ∉ newStartRegs) := Dev.rg_startBase_new hpor hnew hk
  have hmode : bits ((d.startBase m).rg (pf 1 0x10C)) 1 0 ≠ 2 := by rw [hbase (by decide)]; decide
  obtain ⟨⟨r, hr⟩, -, -⟩ := d.restore_new hnew
  obtain ⟨r', hr'⟩ := d.readied_frame m failed
  rw [Dev.startBase, if_pos hpor, hr] at hr'
  have hpage : ((d.readied m failed).page 1).unit = (pageReset 1).unit := by
    rw [Dev.page, hr']
    dsimp only
    rw [nget_startTable_none unitSlots_timer]
    rfl
  refine Dev.timerCheck_passes hpage (by rw [hr']; rfl) ?_ ?_ ?_ fun off hoff => ?_
  · rw [Dev.rg_readied hmode (by decide) (by decide), if_neg (by decide), if_neg (by decide), hbase (by decide)]; decide
  · rw [Dev.rg_readied hmode (by decide) (by decide), if_pos rfl, hbase (by decide)]; decide
  · rw [Dev.rg_readied hmode (by decide) (by decide), if_neg (by decide), if_pos rfl, hbase (by decide)]; decide
  · simp only [List.mem_cons, List.not_mem_nil, or_false] at hoff
    rcases hoff with rfl | rfl | rfl <;>
      rw [Dev.rg_readied hmode (by decide) (by decide), if_neg (by decide), if_neg (by decide), hbase (by decide)]

/-- A module that starts as new begins its row (R71, R489). -/
theorem Dev.start_new (hs : d.power.starting = true) (hp : d.power.perst = false) (hm : d.power.stage = 2) (hg : d.power.pwrgd = true)
    (hpor : d.power.por = true) (hnew : m.newest = none) : (d.start m failed).row.running = true ∧ (d.start m failed).row.number = 0 := by
  have hcheck : (d.readied m failed).timerCheck = none := Dev.timerCheck_readied_new hpor hnew
  have hmode : bits ((d.startBase m).rg (pf 1 0x10C)) 1 0 ≠ 2 := by rw [Dev.rg_startBase_new hpor hnew (by decide)]; decide
  have hwf : NMap.wf (d.readied m failed).regs :=
    Dev.readied_wf (by rw [Dev.startBase, if_pos hpor]; exact (d.restore_new hnew).2.2)
  have hen : bit ((d.readied m failed).rg (pf 1 8)) 0 = true := by
    rw [Dev.rg_readied hmode (by decide) (by decide), if_pos rfl]; exact bit_setBit _ 0 true
  rw [Dev.start_eq hs hp hm hg, hcheck]
  dsimp only
  rw [Dev.dirtyPages_row, Dev.restartPublish_row]
  refine ⟨?_, Dev.rowStart_number _⟩
  rw [Dev.rowStart_running]
  refine Dev.firstConfig_enabled (Dev.put_wf hwf _ _) ?_
  rw [Dev.pass, Dev.rg_put_ne _ _ (by decide)]
  exact hen

end

end Sys2Proof.Machine

namespace Sys2Proof.Machine

theorem exec_powerTurnOn {feedB ok : Bool} {s : State} {d : Dev} (h : s.dev.turnOn feedB ok = d) :
    exec (.powerTurnOn feedB ok) s = .next { s with dev := d } := by rw [← h]; rfl

theorem exec_powerOnReset {failed : List Nat} {s : State} {d : Dev} (h : s.dev.start s.perm failed = d) :
    exec (.powerOnReset failed) s = .next { s with dev := d } := by rw [← h]; rfl

theorem exec_rebuildDone {s : State} {d : Dev} (h : s.dev.rebuildDone = d) : exec .rebuildDone s = .next { s with dev := d } := by
  rw [← h]; rfl

theorem exec_bankCharged {s : State} {d : Dev} (h : s.dev.bankCharged = d) : exec .bankCharged s = .next { s with dev := d } := by
  rw [← h]; rfl

section
variable {d : Dev} {m : Perm} {failed : List Nat} (hs : d.power.starting = true) (hp : d.power.perst = false) (hm : d.power.stage = 2)
  (hg : d.power.pwrgd = true)
include hs hp hm hg

theorem Dev.start_power : (d.start m failed).power = (d.startBase m).power.started := by
  obtain ⟨r, hr⟩ := d.readied_frame m failed
  exact (congrArg Standing.power (Dev.start_standing hs hp hm hg)).trans (by rw [hr]; rfl)

theorem Dev.start_fault : (d.start m failed).fault = (d.startBase m).fault := by
  obtain ⟨r, hr⟩ := d.readied_frame m failed
  exact (congrArg Standing.fault (Dev.start_standing hs hp hm hg)).trans (by rw [hr]; rfl)

theorem Dev.start_cur (h : Nat) : ((d.start m failed).obj h).cur = ((d.startBase m).obj h).cur := by
  obtain ⟨r, hr⟩ := d.readied_frame m failed
  exact (congrFun (congrArg Standing.current (Dev.start_standing hs hp hm hg)) h).trans (by rw [hr]; rfl)

/-- The unit of a slot stands after a start where self-test and fault record place it (R476, R488). -/
theorem Dev.start_unit {u p : Nat} (hu : u < 5) (hslot : p ∈ unitSlots u) :
    ((d.start m failed).page p).unit = (startPage m.fenced failed u p).unit := by
  obtain ⟨r, hr⟩ := d.readied_frame m failed
  have hpage : (d.readied m failed).page p = startPage m.fenced failed u p := by
    rw [Dev.page, hr]
    dsimp only
    rw [nget_startTable hu hslot]
    rfl
  rw [← hpage]
  exact congrFun (congrArg Standing.unit (Dev.start_standing hs hp hm hg)) p

/-- A POR that finds a save restores its lost strands, its log and its epochs (R502). -/
theorem Dev.start_restores {v : Save} (hpor : d.power.por = true) (hv : m.newest = some v) :
    (d.start m failed).power.lost = v.strands ∧ (d.start m failed).fault.log = v.log ∧
      ∀ h x, nget v.directory h = some x → ((d.start m failed).obj h).cur = some { x with damaged := (nget v.damaged h).getD [] } := by
  have hbase : (d.startBase m).standing = (d.refilled m v).standing := by rw [Dev.startBase, if_pos hpor, Dev.restore_standing d hv]
  have hpower : (d.startBase m).power = (d.refilled m v).power := congrArg Standing.power hbase
  have hfault : (d.startBase m).fault = (d.refilled m v).fault := congrArg Standing.fault hbase
  refine ⟨?_, ?_, fun h x hx => ?_⟩
  · rw [Dev.start_power hs hp hm hg, hpower]; rfl
  · rw [Dev.start_fault hs hp hm hg, hfault]; rfl
  · rw [Dev.start_cur hs hp hm hg]
    exact (congrFun (congrArg Standing.current hbase) h).trans (d.refilled_cur hx)
end

/-- A start leaves the power stage (R542). -/
theorem Dev.startBase_stage (d : Dev) (m : Perm) : (d.startBase m).power.stage = d.power.stage := by
  unfold Dev.startBase
  split
  · cases hv : m.newest with
    | none =>
      obtain ⟨⟨r, hr⟩, -, -⟩ := d.restore_new hv
      rw [hr]; rfl
    | some v =>
      have hpower : (d.restore m).power = (d.refilled m v).power := congrArg Standing.power (d.restore_standing hv)
      rw [hpower]; rfl
  · rfl

end Sys2Proof.Machine

namespace Sys2Proof.Proofs.Scope
open Sys2Proof.Machine

/-- Settles O53: a start places the units and readies the row timer's page, and neither the row nor firmware's publish moves what it
has restored or placed. -/
theorem powerUp : Obligations.PowerUp := by
  unfold Obligations.PowerUp
  refine ⟨?turnOn, ?noTurnOn, ?start, ?noStart, ?rebuild, ?noRebuild, ?bank, ?noBank⟩
  case turnOn =>
    intro feedB ok s hs hl hc
    refine ⟨_, exec_powerTurnOn (Dev.turnOn_of_connected hs hl hc ok), rfl, ?_⟩
    cases ok with
    | true => exact ⟨rfl, rfl, rfl, rfl, fun _ => ⟨rfl, rfl, rfl, rfl⟩, nofun⟩
    | false => exact ⟨rfl, rfl, rfl, rfl, nofun, fun _ => rfl⟩
  case noTurnOn => exact fun feedB ok s h => exec_powerTurnOn (Dev.turnOn_of_idle h ok)
  case start =>
    intro failed s hs hp hm hg
    have hpower := Dev.start_power (m := s.perm) (failed := failed) hs hp hm hg
    have hunit {u p : Nat} (hu : u < 5) (hslot : p ∈ unitSlots u) := Dev.start_unit (m := s.perm) (failed := failed) hs hp hm hg hu hslot
    refine ⟨_, exec_powerOnReset rfl, by rw [hpower]; rfl, by rw [hpower]; rfl, ?stage, ?fenced, ?failed, ?good,
      Dev.start_row hs hp hm hg, Dev.start_new hs hp hm hg, fun v => Dev.start_restores hs hp hm hg⟩
    case stage => rw [hpower]; exact (s.dev.startBase_stage s.perm).trans hm
    case fenced =>
      intro u p hu hslot hf
      have h := hunit hu hslot
      rw [startPage_of_fenced u hf] at h
      exact ⟨congrArg (fun x => x.2.2.1) h, congrArg (fun x => x.1) h⟩
    case failed =>
      intro u p hu hslot hf hfail
      have h := hunit hu hslot
      rw [startPage_of_failed u hf hfail] at h
      exact ⟨congrArg (fun x => x.2.2.2) h, congrArg (fun x => x.2.1) h, congrArg (fun x => x.1) h⟩
    case good =>
      intro u p hu hslot hf hpass
      obtain ⟨hquiet, hfence, hspare⟩ := startPage_of_good u hslot hf hpass
      obtain ⟨eactive, espare, efence, equiet⟩ : _ ∧ _ ∧ _ ∧ _ := by simpa only [Page.unit, Prod.mk.injEq] using hunit hu hslot
      exact ⟨equiet.trans hquiet, efence.trans hfence, by rw [espare, eactive]; exact hspare⟩
  case noStart => exact fun failed s h => exec_powerOnReset (Dev.start_of_idle h)
  case rebuild =>
    intro s hr hs
    refine ⟨_, exec_rebuildDone (Dev.rebuildDone_of_running hr hs), Dev.openAdmission_frame _, fun j hj => Dev.page_openAdmission_ne _ hj, ?_⟩
    exact fun hbank hen hwarm => Dev.openAdmission_on hr rfl hbank hen hwarm
  case noRebuild => exact fun s h => exec_rebuildDone (Dev.rebuildDone_of_idle h)
  case bank =>
    intro s hm hs
    refine ⟨_, exec_bankCharged (Dev.bankCharged_of_powered hm hs), ?frame, ?volts, fun j hj => Dev.page_openAdmission_ne _ hj,
      fun hr hreb hen hwarm => Dev.openAdmission_on hr hreb rfl hen hwarm, ?regs⟩
    case frame => rw [Dev.openAdmission_frame]; rfl
    case volts => exact (Dev.rg_openAdmission _ _).trans (Dev.rg_put_same _ _ _)
    case regs =>
      intro k hk
      rw [Dev.rg_openAdmission, Dev.rg_put_ne _ _ (by simpa using hk)]
      rfl
  case noBank => exact fun s h => exec_bankCharged (Dev.bankCharged_of_idle h)
end Sys2Proof.Proofs.Scope
